-- ==== Sys2Proof/Word.lean ====
section
/-! DEFINITION. The word types of the QPN-4824: the native 24-bit word, bytes, register dwords and the wide values (R8, R125). -/
namespace Sys2Proof

/-- A byte of a frame, a payload, an image or slate memory. -/
abbrev Byte := BitVec 8
/-- A native word of 24 bits (R8). -/
abbrev Word := BitVec 24
/-- A register of BAR0 (R46). -/
abbrev Dword := BitVec 32
/-- A reason or event code 0xBBnn (R4). -/
abbrev Code := BitVec 16
/-- A point number, a segment number times 2^24 plus an offset, a slate address: keys of sparse data. -/
abbrev Key := Nat
/-- Sparse data by key, in ascending order of key, no key twice. -/
abbrev SMap (α : Type) := List (Nat × α)

end Sys2Proof
end

