-- ==== Sys2Proof/Syntax.lean ====
section
/-! DEFINITION. The commands of the block: one constructor of Instr per row of spec/opcode_table.json, with the operands each takes from outside. -/
namespace Sys2Proof

/-- The two host ports (R45). -/
inductive Port | a | b
deriving DecidableEq, Repr

/-- The two program banks (R231). -/
inductive BankId | a | b
deriving DecidableEq, Repr

/-- A mailbox request as the supervisor starts it (R57): the sender, its slot, and the fields of the header that it uses. -/
structure Req where
  port : Port
  slot : Fin 32
  notify : Bool
  seq : BitVec 32
  hostAddr : BitVec 64
  hostLen : BitVec 32
  payload : List Byte
deriving DecidableEq, Repr

/-- The header of a request as it stands in the request area at the doorbell (R57). -/
structure ReqHdr where
  code : BitVec 16
  flags : BitVec 16
  seq : BitVec 32
  length : BitVec 32
  reserved12 : BitVec 32
  hostAddr : BitVec 64
  hostLen : BitVec 32
  reserved28 : BitVec 32
deriving DecidableEq, Repr

/-- How a bus-mastered transfer ended (R62): with the bytes read from the host (empty for a transfer to the host), or in error. -/
inductive TransferResult
  | done (data : List Byte)
  | error
deriving DecidableEq, Repr

/-- A word of rod-local memory or the instance cache that fails its check: corrected, or lost at an offset (R147). -/
inductive WordErr
  | corrected
  | uncorrectable (offset : BitVec 24)
deriving DecidableEq, Repr

/-- A reset of a host port: by a hot reset, link-down or function-level reset, or a new level of its PERST pin, true when it is low (R63, R551). -/
structure PortReset where
  port : Port
  perst : Option Bool
deriving DecidableEq, Repr

/-- A frame as a field link receives it: its octets, and whether the receiver finds a sync-header error, an undefined or a misplaced
block after them (R276). -/
structure RxFrame where
  bytes : List Byte
  broken : Bool
deriving DecidableEq, Repr

/-- What the memories report in one issue cycle: syllables of the bundle corrected by the code store, whether one cannot be (R161),
and the words of rod-local memory and the instance cache that fail their check (R147). -/
structure IssueEcc where
  codeCorrected : Nat
  codeLost : Bool
  mem : List WordErr
deriving DecidableEq, Repr

/-- What a DRAM address holds (R146): a program bank with its segments, a slot of the recorder ring, a host DMA buffer. -/
inductive DramArea
  | program
  | ring (slot : Nat)
  | hostBuffer
deriving DecidableEq, Repr

/-- A codeword of a burst that fails its check, by its DRAM address (R146). -/
inductive DramErr
  | corrected (addr : BitVec 48)
  | uncorrectable (addr : BitVec 48) (area : DramArea)
deriving DecidableEq, Repr

/-- What a PROBE of the partner says (R351). -/
structure Probe where
  position : Bool
  pair : Bool
  domain : BitVec 16
  period : BitVec 9
  sync : BitVec 2
  version : BitVec 8
  role : BitVec 2
  mode : BitVec 3
  claim : BitVec 24
  tick : BitVec 64
  /-- the measured round trip, in ns (R332) -/
  roundTrip : Nat
deriving DecidableEq, Repr

/-- What the hardware reports to the supervisor during BOOT (R33). -/
structure BootInputs where
  /-- step 1: ROM check and lockstep self-test pass -/
  supervisorOk : Bool
  /-- step 2: slot 0 and slot 1 read back in order from flash -/
  slot0Ok : Bool
  slot1Ok : Bool
  /-- R532: the load of the bedrock controller code succeeds -/
  bedrockLoadOk : Bool
  /-- step 3: failing DRAM stack 0 or 1, or 2 for the SRAM -/
  memFail : Option (Fin 3)
  /-- step 4: failing rod, or 48 for the trunk -/
  rodFail : Option (Fin 49)
  /-- step 7: the partner found -/
  probe : Option Probe
  /-- step 8: links with block lock -/
  locks : BitVec 24
  /-- a reset or a loss of power cuts a pointer write of this BOOT: which of its writes, and how many words are written (R469) -/
  pointerCut : Option (Nat × Nat)
  /-- words of slate memory with a new check-bit error: address, whether it is uncorrectable (R471) -/
  slateErrors : List (Nat × Bool)
deriving DecidableEq, Repr

/-- A received CAN frame (R405, R410); sofAgo is the time from the sample point of its start-of-frame bit, in ns. -/
structure CanFrame where
  id : BitVec 29
  ide : Bool
  fdf : Bool
  brs : Bool
  esi : Bool
  remote : Bool
  data : List Byte
  sofAgo : Nat
deriving DecidableEq, Repr

/-- Why a frame did not go out (R415, R416, R417). -/
inductive CanTxErr
  | arbitrationLost | collision | bitError | stuffFormCrc | noAck
deriving DecidableEq, Repr

/-- How staging ends (R527, R528): the read-back of the slot passes or fails, or a read of the card fails. -/
inductive StagingResult | passed | readBackFailed | cardReadFailed
deriving DecidableEq, Repr

/-- The result of a detection dwell (R419): nothing, frames without BRS, or frames of which one had BRS. -/
inductive DwellResult | none | found | foundBrs
deriving DecidableEq, Repr

/-- The data set of an Announce message that the best master clock algorithm compares (R362, R365). -/
structure Announce where
  grandmaster : BitVec 64
  priority1 : BitVec 8
  clockClass : BitVec 8
  accuracy : BitVec 8
  variance : BitVec 16
  priority2 : BitVec 8
  stepsRemoved : BitVec 16
  sender : BitVec 80
  utcOffset : BitVec 16
  utcValid : Bool
  leap61 : Bool
  leap59 : Bool
  domain : BitVec 7
deriving DecidableEq, Repr

/-- A PTP message that arrives, with the times that its sender put into it, in ns since the epoch, its correction field added (R362):
t1 of a one-step Sync or of the Follow_Up, t4 of a Delay_Resp, t2 and t3 of a Pdelay_Resp with its Follow_Up. -/
inductive PtpMsg
  | announce (a : Announce)
  | sync (domain : BitVec 7) (src : BitVec 80) (seq : BitVec 16) (t1 : Option Int)
  | followUp (domain : BitVec 7) (src : BitVec 80) (seq : BitVec 16) (t1 : Int)
  | delayReq (domain : BitVec 7) (src : BitVec 80) (seq : BitVec 16)
  | delayResp (domain : BitVec 7) (src : BitVec 80) (seq : BitVec 16) (requesting : BitVec 80) (t4 : Int)
  | pdelayReq (domain : BitVec 7) (src : BitVec 80) (seq : BitVec 16)
  | pdelayResp (domain : BitVec 7) (src : BitVec 80) (seq : BitVec 16) (requesting : BitVec 80) (t2 t3 : Int)
  | management
deriving DecidableEq, Repr

/-- A PTP message that the unit sends at its interval (R362); a Sync is two-step. -/
inductive PtpSend | announce | sync | followUp | delayReq | pdelayReq
deriving DecidableEq, Repr

/-- The end of a line cycle of a feeder (R446): its duration between the crossings, interpolated between samples; timed is true when the
cycle was timed at the nominal period. -/
structure CycleMeas where
  periodNs : Nat
  timed : Bool
deriving DecidableEq, Repr

/-- A package file on the card (R522). -/
structure CardFile where
  name : List Byte
  data : List Byte
deriving DecidableEq, Repr

/-- An SD card as the SD host sees it (R521); supported is false for a card or layout that R521 leaves out. -/
structure Card where
  supported : Bool
  speed : BitVec 2
  exfat : Bool
  files : List CardFile
deriving DecidableEq, Repr

/-- The commands of the block, in the order of spec/opcode_table.json. -/
inductive Instr
  /-- POWER_ON (R25) -/
  | powerOn
  /-- RAIL_LOSS (R25) -/
  | railLoss
  /-- RESET_N_PIN (R36) -/
  | resetNPin
  /-- UNDERVOLTAGE_RESET (R38) -/
  | undervoltageReset
  /-- LOCKSTEP_MISMATCH (R36) -/
  | lockstepMismatch
  /-- BOOT_SEQUENCE (R33) -/
  | bootSequence (b : BootInputs)
  /-- SD_POLL (R536) -/
  | sdPoll
  /-- PORT_RESET (R63) -/
  | portReset (p : PortReset)
  /-- TICK_EDGE (R20) -/
  | tickEdge
  /-- COMPUTE_START (R128) -/
  | computeStart
  /-- SEGMENT_START (R246) -/
  | segmentStart (rod : Fin 48) (e : IssueEcc)
  /-- BUNDLE_ISSUE (R163) -/
  | bundleIssue (rod : Fin 48) (e : IssueEcc)
  /-- RESULT_LAND (R174) -/
  | resultLand (rod : Fin 48)
  /-- XST_LAND (R135) -/
  | xstLand (rod : Fin 48)
  /-- WAITF_RETIRE (R138) -/
  | waitfRetire (rod : Fin 48) (cycles ns : Nat)
  /-- TRUNK_GRANT (R149) -/
  | trunkGrant (others : List Nat)
  /-- TRUNK_BURST_DONE (R145) -/
  | trunkBurstDone (requester : Nat) (errs : List DramErr)
  /-- QUOTA_WINDOW (R150) -/
  | quotaWindow
  /-- GRANT_HELD_LONG (R153) -/
  | grantHeldLong
  /-- SEAL_SEND (R336) -/
  | sealSend
  /-- SEAL_OVERFLOW (R340) -/
  | sealOverflow
  /-- DEADLINE (R17) -/
  | deadline
  /-- THROTTLE_ENGAGE (R38) -/
  | throttleEngage (mv : BitVec 12)
  /-- THROTTLE_RECOVER (R38) -/
  | throttleRecover
  /-- PFW_ASSERT (R41) -/
  | pfwAssert
  /-- PFW_DEASSERT (R42) -/
  | pfwDeassert
  /-- PFW_CAPTURE (R460): energy of each feeder's line cycle in progress, in 2^-16 LSB: active, reactive and apparent of feeder f from 3 × f on -/
  | pfwCapture (samples : List Word)
  /-- RAIL_WINDOW_FAULT (R543) -/
  | railWindowFault (rail : Fin 5)
  /-- TEMP_SAMPLE (R547) -/
  | tempSample (temp : BitVec 8)
  /-- RUN (R22) -/
  | run (r : Req)
  /-- STOP (R26) -/
  | stop (r : Req)
  /-- HOLD (R31) -/
  | hold (r : Req)
  /-- STEP (R31) -/
  | step (r : Req)
  /-- FAULT_ACK (R30) -/
  | faultAck (r : Req)
  /-- RESET (R36) -/
  | reset (r : Req)
  /-- JOIN (R25) -/
  | join (r : Req)
  /-- BAR0_BAD_ACCESS (R46): a read or a write -/
  | bar0BadAccess (p : Port) (read : Bool)
  /-- BAR2_WRITE (R55) -/
  | bar2Write (p : Port)
  /-- REGISTER_WRITE (R77) -/
  | registerWrite (p : Port) (ofs : BitVec 20) (v : Dword)
  /-- W1C_WRITE (R5) -/
  | w1cWrite (p : Port) (ofs : BitVec 20) (v : Dword)
  /-- RC_READ (R47) -/
  | rcRead (p : Port) (ofs : BitVec 20)
  /-- ENABLE_WRITE (R75) -/
  | enableWrite (p : Port) (ofs : BitVec 20) (v : Dword)
  /-- COMMIT (R71) -/
  | commit (p : Port) (blk : Fin 20)
  /-- DISCARD (R74) -/
  | discard (p : Port) (blk : Fin 20)
  /-- SEM_READ (R51) -/
  | semRead (p : Port) (k : Fin 64) (tie : Bool)
  /-- SEM_WRITE (R53) -/
  | semWrite (p : Port) (k : Fin 64) (v : Dword)
  /-- TCK_TICK_LO_READ (R23) -/
  | tckTickLoRead (p : Port)
  /-- DOORBELL (R59) -/
  | doorbell (p : Port) (slot : Fin 32) (h : ReqHdr) (payload : List Byte)
  /-- HOST_TRANSFER_END (R62) -/
  | hostTransferEnd (p : Port) (slot : Fin 32) (res : TransferResult)
  /-- GET_IDENTITY (R567) -/
  | getIdentity (r : Req)
  /-- EXPERT_UNLOCK (R65) -/
  | expertUnlock (r : Req)
  /-- EXPERT_LOCK (R66) -/
  | expertLock (r : Req)
  /-- GET_CONFIG (R568) -/
  | getConfig (r : Req)
  /-- SET_CONFIG (R78) -/
  | setConfig (r : Req)
  /-- GET_STAGE (R568) -/
  | getStage (r : Req)
  /-- FORCE_SET (R107) -/
  | forceSet (r : Req)
  /-- FORCE_CLEAR (R107) -/
  | forceClear (r : Req)
  /-- FORCE_CLEAR_ALL (R107) -/
  | forceClearAll (r : Req)
  /-- FORCE_LIST (R570) -/
  | forceList (r : Req)
  /-- LOAD_BEGIN (R234) -/
  | loadBegin (r : Req)
  /-- LOAD_DATA (R235) -/
  | loadData (r : Req)
  /-- LOAD_END (R234) -/
  | loadEnd (r : Req)
  /-- VERIFY (R239) -/
  | verify (r : Req)
  /-- ACTIVATE (R237) -/
  | activate (r : Req)
  /-- SAVE (R236) -/
  | save (r : Req)
  /-- RESTORE (R235) -/
  | restore (r : Req)
  /-- ERASE (R234) -/
  | erase (r : Req)
  /-- BANK_INFO (R234) -/
  | bankInfo (r : Req)
  /-- SAVE_COMPLETE (R236) -/
  | saveComplete (passed : Bool)
  /-- CHG_START (R258) -/
  | chgStart (r : Req)
  /-- CHG_ABORT (R268) -/
  | chgAbort (r : Req)
  /-- MIGRATION_LINE_BUILD (R260) -/
  | migrationLineBuild
  /-- ECHO_RECEIVED (R292) -/
  | echoReceived (link : Fin 24) (frame : RxFrame) (rtt : BitVec 16)
  /-- ECHO_MISSING (R292) -/
  | echoMissing (link : Fin 24)
  /-- LINK_LOCK_LOST (R292) -/
  | linkLockLost (link : Fin 24)
  /-- FIELD_FRAME_TURNBACK (R321) -/
  | fieldFrameTurnback (link : Fin 24) (frame : RxFrame)
  /-- LINK_LOCK_TIMEOUT (R307) -/
  | linkLockTimeout (link : Fin 24)
  /-- ROLL_CALL_RECEIVED (R306) -/
  | rollCallReceived (link : Fin 24) (frame : RxFrame) (rtt : BitVec 16)
  /-- ROLL_CALL_REPEAT (R307) -/
  | rollCallRepeat (link : Fin 24)
  /-- PARLEY_RESPONSE_RECEIVED (R311) -/
  | parleyResponseReceived (link : Fin 24) (frame : RxFrame)
  /-- PARLEY_TIMEOUT (R311) -/
  | parleyTimeout (link : Fin 24)
  /-- NOTICE_RECEIVED (R313) -/
  | noticeReceived (link : Fin 24) (frame : RxFrame)
  /-- LNK_TABLE_SET (R316) -/
  | lnkTableSet (r : Req)
  /-- LNK_TABLE_GET (R316) -/
  | lnkTableGet (r : Req)
  /-- LNK_ROLLCALL (R316) -/
  | lnkRollcall (r : Req)
  /-- LNK_PARLEY (R316) -/
  | lnkParley (r : Req)
  /-- LNK_REARM (R316) -/
  | lnkRearm (r : Req)
  /-- LNK_STATE (R316) -/
  | lnkState (r : Req)
  /-- CARRY_LANE_DOWN (R326) -/
  | carryLaneDown (lane : Fin 8)
  /-- CARRY_LINK_UP (R326) -/
  | carryLinkUp (link : Bool)
  /-- DELTA_RECEIVED (R329) -/
  | deltaReceived (lane : Fin 8) (frame : List Byte)
  /-- SEAL_RECEIVED (R338) -/
  | sealReceived (lane : Fin 8) (frame : List Byte)
  /-- CONTROL_RECEIVED (R339) -/
  | controlReceived (lane : Fin 8) (frame : List Byte)
  /-- HEARTBEAT_SEND (R331) -/
  | heartbeatSend
  /-- HEARTBEAT_RECEIVED (R332) -/
  | heartbeatReceived (lane : Fin 8) (frame : List Byte)
  /-- FAULT_FRAME_RECEIVED (R333) -/
  | faultFrameReceived (lane : Fin 8) (frame : List Byte)
  /-- PARTNER_LOST (R345) -/
  | partnerLost
  /-- NAK_RECEIVED (R330) -/
  | nakReceived (lane : Fin 8) (frame : List Byte)
  /-- HEALTH_SEND (R344) -/
  | healthSend
  /-- HEALTH_RECEIVED (R344) -/
  | healthReceived (lane : Fin 8) (frame : List Byte)
  /-- SELFTEST_ITEM (R343) -/
  | selftestItem (passed : Bool) (corrected : BitVec 16)
  /-- BULK_PLACE (R341) -/
  | bulkPlace
  /-- CRY_SWITCHOVER (R350) -/
  | crySwitchover (r : Req)
  /-- CRY_RESYNC (R356) -/
  | cryResync (r : Req)
  /-- CRY_HEALTH_GET (R356) -/
  | cryHealthGet (r : Req)
  /-- PTP_MESSAGE_RECEIVED (R365) -/
  | ptpMessageReceived (eth : Bool) (m : PtpMsg)
  /-- PTP_MESSAGE_SEND (R362) -/
  | ptpMessageSend (eth : Bool) (k : PtpSend)
  /-- PTP_MASTER_LOST (R366) -/
  | ptpMasterLost
  /-- HOLDOVER_EXPIRY (R366) -/
  | holdoverExpiry
  /-- NTM_NOW_NS_READ (R361) -/
  | ntmNowNsRead (p : Port)
  /-- LAUNCH_TIME (R374): device time has reached a launch time; the first bit of the preamble crosses `late` ns from this instant on -/
  | launchTime (eth : Bool) (late : Fin 9)
  /-- LEAP_SECOND (R378) -/
  | leapSecond
  /-- NTM_SET_TIME (R377) -/
  | ntmSetTime (r : Req)
  /-- NTM_SET_UTC (R377) -/
  | ntmSetUtc (r : Req)
  /-- NTM_LAUNCH (R377) -/
  | ntmLaunch (r : Req)
  /-- NTM_PTP_STATE (R377) -/
  | ntmPtpState (r : Req)
  /-- BEDROCK_RESET (R383) -/
  | bedrockReset
  /-- BACKUP_SAMPLE (R384) -/
  | backupSample (mv : BitVec 12)
  /-- WAKE_INSTANT (R396) -/
  | wakeInstant
  /-- COUNTDOWN_EXPIRY (R397) -/
  | countdownExpiry
  /-- EV_EDGE (R399) -/
  | evEdge (pin : Fin 4) (rising : Bool)
  /-- TRIM_WINDOW_END (R393) -/
  | trimWindowEnd
  /-- FOLLOW_COMPARE (R395) -/
  | followCompare
  /-- RTC_SET_APPLY (R391) -/
  | rtcSetApply
  /-- RTC_SHIFT_APPLY (R391) -/
  | rtcShiftApply
  /-- BRK_CAL_SNAP_READ (R387) -/
  | brkCalSnapRead (p : Port)
  /-- BRK_COUNTDOWN_SET_WRITE (R397) -/
  | brkCountdownSetWrite (p : Port) (v : Dword)
  /-- BRK_SET_TIME (R390) -/
  | brkSetTime (r : Req)
  /-- BRK_SHIFT (R390) -/
  | brkShift (r : Req)
  /-- BRK_PWRON (R403) -/
  | brkPwron (r : Req)
  /-- BRK_GET_TIME (R403) -/
  | brkGetTime (r : Req)
  /-- CAN_FRAME_RECEIVED (R410) -/
  | canFrameReceived (k : Fin 2) (f : CanFrame)
  /-- CAN_RX_TIMEOUT (R412) -/
  | canRxTimeout (k : Fin 2) (obj : Fin 128)
  /-- CAN_TX_DONE (R414) -/
  | canTxDone (k : Fin 2)
  /-- CAN_TX_ERROR (R415) -/
  | canTxError (k : Fin 2) (cause : CanTxErr)
  /-- CAN_RECOVERY_DONE (R417) -/
  | canRecoveryDone (k : Fin 2)
  /-- CAN_TIME_MARK (R420) -/
  | canTimeMark (k : Fin 2) (obj : Fin 128) (busIdle : Bool)
  /-- CAN_TT_SYNC_LOST (R420) -/
  | canTtSyncLost (k : Fin 2)
  /-- CAN_DETECT_DWELL_END (R419) -/
  | canDetectDwellEnd (k : Fin 2) (res : DwellResult)
  /-- CAN_RECOVER (R417) -/
  | canRecover (r : Req)
  /-- CAN_DETECT (R419) -/
  | canDetect (r : Req)
  /-- CAN_HP_READ (R418) -/
  | canHpRead (r : Req)
  /-- LPLUS_GROUP_FAIL (R424) -/
  | lplusGroupFail (g : Fin 4) (mv : BitVec 16)
  /-- LPLUS_GROUP_RESTORE (R424) -/
  | lplusGroupRestore (g : Fin 4) (mv : BitVec 16)
  /-- LOCAL_EDGE (R428) -/
  | localEdge (ch : Fin 32) (rising : Bool)
  /-- WIRE_BREAK (R431) -/
  | wireBreak (ch : Fin 32)
  /-- WIRE_BREAK_CLEAR (R431) -/
  | wireBreakClear (ch : Fin 32) (on : Bool)
  /-- OUTPUT_OVERLOAD (R435) -/
  | outputOverload (ch : Fin 32)
  /-- OVERLOAD_RETRY (R435) -/
  | overloadRetry (ch : Fin 32)
  /-- S0_PULSE (R437) -/
  | s0Pulse (ch : Fin 32) (ms : Nat)
  /-- LCH_OVERLOAD_WRITE (R435) -/
  | lchOverloadWrite (p : Port) (v : Dword)
  /-- LCH_CLEAR (R441) -/
  | lchClear (r : Req)
  /-- LINE_CYCLE_END (R449) -/
  | lineCycleEnd (f : Fin 4) (m : CycleMeas)
  /-- HALF_CYCLE_BOUNDARY (R453) -/
  | halfCycleBoundary (f : Fin 4) (timed : Bool)
  /-- REFERENCE_LOST (R446) -/
  | referenceLost (f : Fin 4)
  /-- RESULT_READY (R451) -/
  | resultReady (f : Fin 4)
  /-- ENERGY_LATCH (R458) -/
  | energyLatch (f : Fin 4)
  /-- METER_CHANNEL_FAIL (R445) -/
  | meterChannelFail (c : Fin 24)
  /-- METER_CHANNEL_RECOVER (R445) -/
  | meterChannelRecover (c : Fin 24)
  /-- MTR_ENERGY_GET (R465) -/
  | mtrEnergyGet (r : Req)
  /-- MTR_ENERGY_PRESET (R462) -/
  | mtrEnergyPreset (r : Req)
  /-- SLATE_OP_START (R470) -/
  | slateOpStart
  /-- SLT_REC_READ (R485) -/
  | sltRecRead (r : Req)
  /-- SLT_REC_WRITE (R485) -/
  | sltRecWrite (r : Req)
  /-- SLT_TALLY_READ (R485) -/
  | sltTallyRead (r : Req)
  /-- SLT_TALLY_ADD (R483) -/
  | sltTallyAdd (r : Req)
  /-- SLT_RAW_READ (R485) -/
  | sltRawRead (r : Req)
  /-- SLT_RAW_WRITE (R485) -/
  | sltRawWrite (r : Req)
  /-- TAIL_COPY (R500) -/
  | tailCopy
  /-- ARCHIVE_SEGMENT_WRITE (R501) -/
  | archiveSegmentWrite
  /-- REC_WIN_STATE_READ (R499) -/
  | recWinStateRead (p : Port)
  /-- REC_WIN_7_READ (R499) -/
  | recWin7Read (p : Port)
  /-- REC_SEEK (R504) -/
  | recSeek (r : Req)
  /-- REC_READ (R504) -/
  | recRead (r : Req)
  /-- REC_TAIL_READ (R504) -/
  | recTailRead (r : Req)
  /-- REC_ARCHIVE_READ (R504) -/
  | recArchiveRead (r : Req)
  /-- REC_ARCHIVE_FLUSH (R501) -/
  | recArchiveFlush (r : Req)
  /-- WDT_SERVICE_WRITE (R509) -/
  | wdtServiceWrite (p : Port) (v : Dword)
  /-- SUPERVISOR_SERVICE (R510) -/
  | supervisorService
  /-- WATCHDOG_EXPIRY (R513) -/
  | watchdogExpiry
  /-- WDT_EVIDENCE_GET (R520) -/
  | wdtEvidenceGet (r : Req)
  /-- WDT_EVIDENCE_CLEAR (R518) -/
  | wdtEvidenceClear (r : Req)
  /-- SD_CARD_DETECT (R528) -/
  | sdCardDetect (card : Option Card)
  /-- FWU_SCAN (R538) -/
  | fwuScan (r : Req)
  /-- FWU_STAGE (R527) -/
  | fwuStage (r : Req)
  /-- FWU_ACTIVATE (R530) -/
  | fwuActivate (r : Req)
  /-- FWU_CONFIRM (R535) -/
  | fwuConfirm (r : Req)
  /-- TRIAL_CONFIRM_TIMEOUT (R535) -/
  | trialConfirmTimeout
  /-- FWU_INFO (R538) -/
  | fwuInfo (r : Req)
  /-- CONSISTENCY_CHECK_END (R72) -/
  | consistencyCheckEnd (blk : Fin 20)
  /-- VERIFIER_END (R236) -/
  | verifierEnd (bank : BankId)
  /-- STAGING_END (R527) -/
  | stagingEnd (res : StagingResult)
  /-- GRANT_PHASE_END (R149) -/
  | grantPhaseEnd
  /-- FIELD_LINK_LOCK_GAINED (R307) -/
  | fieldLinkLockGained (link : Fin 24)
  /-- HIGHER_CLAIM_SEEN (R348) -/
  | higherClaimSeen (link : Fin 24) (claim : BitVec 24)
  /-- SLEW_COMPLETE (R367) -/
  | slewComplete
  /-- BEDROCK_RESET_END (R382) -/
  | bedrockResetEnd
  /-- SAMPLE_INSTANT (R443) -/
  | sampleInstant (samples : List Word)
  /-- CAN_RX_ERROR (R417) -/
  | canRxError (k : Fin 2) (severe : Bool)
  /-- PFW_RECORDS_COMPLETE (R460) -/
  | pfwRecordsComplete
deriving DecidableEq, Repr

end Sys2Proof
end

