-- ==== Sys2Proof/Config.lean ====
section
/-! DEFINITION. What one unit fixes at manufacture, and the free values: constants without a body, so that no proof sees what they are. -/
namespace Sys2Proof.Config

/-- Unit serial number (R10). -/
opaque serial : BitVec 64
/-- Main-die stepping (R50, reset "Die"). -/
opaque stepping : BitVec 8
/-- EUI-64 clockIdentity fixed at manufacture (R363). -/
opaque clockIdentity : BitVec 64
/-- Hash of the public key fused at manufacture (R525). -/
opaque fusedKeyHash : List Byte

/-- Firmware package in slot 0 as shipped, and VERSION of the bedrock controller code as shipped (R523, R532, log 6). -/
opaque factoryPackage : List Byte
opaque bedrockVersion : BitVec 32

/-- The free values of the model, one per value of State.free (log 2). -/
opaque freeBool : Nat → Bool
opaque freeNat : Nat → Nat
opaque freeInt : Nat → Int
opaque freeDword : Nat → Dword
/-- L+ of a group in mV at a time, once the measurement that a command reports is 100 µs old (R424, log 120). -/
opaque lplusMv : Nat → Nat → BitVec 16
/-- Which neighbour CRY_BUDGET.D shows where the period in force gives no whole number (R337, log 12). -/
opaque budgetUp : Nat → Bool

end Sys2Proof.Config
end

