-- ==== Sys2Proof/Machine/Bits.lean ====
section
/-! DEFINITION. Small tools: sparse maps, byte lists, saturating counts, bit fields and the check codes of R279 and R572. -/
namespace Sys2Proof.Machine
open Sys2Proof

/-- The value listed under a key. -/
def smGet {α : Type} (m : SMap α) (k : Nat) : Option α :=
  match m with
  | [] => none
  | (j, v) :: r => if j = k then some v else smGet r k

/-- The value under a key, or a default. -/
def smGetD {α : Type} (m : SMap α) (k : Nat) (d : α) : α := (smGet m k).getD d

/-- The map with a value under a key, keys kept ascending. -/
def smPut {α : Type} (m : SMap α) (k : Nat) (v : α) : SMap α :=
  match m with
  | [] => [(k, v)]
  | (j, w) :: r => if k < j then (k, v) :: (j, w) :: r else if k = j then (k, v) :: r else (j, w) :: smPut r k v

/-- The map without a key. -/
def smDel {α : Type} (m : SMap α) (k : Nat) : SMap α := m.filter (fun e => e.1 ≠ k)

/-- The map with a value under a key, not listed when it equals the default. -/
def smSet {α : Type} [DecidableEq α] (m : SMap α) (d : α) (k : Nat) (v : α) : SMap α :=
  if v = d then smDel m k else smPut m k v

/-- n bytes of a number, least significant first. -/
def leBytes (n v : Nat) : List Byte :=
  match n with
  | 0 => []
  | k + 1 => BitVec.ofNat 8 v :: leBytes k (v / 256)

/-- The number that bytes spell, least significant first. -/
def leNat (bs : List Byte) : Nat :=
  match bs with
  | [] => 0
  | b :: r => b.toNat + 256 * leNat r

/-- n bytes of a list from an offset (fewer at its end). -/
def slice (bs : List Byte) (ofs n : Nat) : List Byte := (bs.drop ofs).take n
/-- The little-endian number of n bytes at an offset. -/
def leAt (bs : List Byte) (ofs n : Nat) : Nat := leNat (slice bs ofs n)
/-- A list of bytes, zero-padded or cut to n bytes. -/
def padTo (n : Nat) (bs : List Byte) : List Byte := (bs ++ List.replicate (n - bs.length) 0#8).take n

/-- Bits lo to lo + n − 1 of a number. -/
def field (v lo n : Nat) : Nat := (v / 2 ^ lo) % 2 ^ n
/-- A bit of a number. -/
def bitOf (v i : Nat) : Bool := v.testBit i
/-- A Bool as 0 or 1. -/
def b2n (b : Bool) : Nat := if b then 1 else 0
/-- A signed value of n bits as a number below 2^n. -/
def toTwos (n : Nat) (i : Int) : Nat := (i % (2 ^ n : Nat)).toNat
/-- The signed value of the low n bits of a number. -/
def ofTwos (n v : Nat) : Int :=
  let m := v % 2 ^ n
  if m < 2 ^ (n - 1) then (m : Int) else (m : Int) - (2 ^ n : Nat)
/-- Rounding a signed value into the range of n bits. -/
def satInt (n : Nat) (i : Int) : Int :=
  let hi : Int := (2 ^ (n - 1) : Nat)
  if i ≥ hi then hi - 1 else if i < -hi then -hi else i

/-- A counter of w bits that saturates (R6, every RC counter). -/
def satAdd {w : Nat} (x : BitVec w) (n : Nat) : BitVec w :=
  if x.toNat + n ≥ 2 ^ w - 1 then BitVec.ofNat w (2 ^ w - 1) else BitVec.ofNat w (x.toNat + n)

/-- A count that saturates at a bound. -/
def satN (bound x : Nat) : Nat := min bound x

/-- One bit of the CRC-16 register (R572). -/
def crc16Bit (r : Nat) : Nat := if r % 2 = 1 then (r / 2) ^^^ 0x8408 else r / 2
def crcSteps (f : Nat → Nat) : Nat → Nat → Nat
  | 0, r => r
  | k + 1, r => crcSteps f k (f r)
/-- The CRC-16 register after one octet (R572). -/
def crc16Octet (r : Nat) (b : Byte) : Nat := crcSteps crc16Bit 8 (r ^^^ b.toNat)
/-- The CRC-16 of R572 over octets. -/
def crc16 (bs : List Byte) : Nat := bs.foldl crc16Octet 0xFFFF

/-- One bit of the CRC-32 register (R279, the IEEE 802.3 polynomial reflected). -/
def crc32Bit (r : Nat) : Nat := if r % 2 = 1 then (r / 2) ^^^ 0xEDB88320 else r / 2
def crc32Octet (r : Nat) (b : Byte) : Nat := crcSteps crc32Bit 8 (r ^^^ b.toNat)
/-- The CRC-32 of R279 over octets. -/
def crc32 (bs : List Byte) : Nat := (bs.foldl crc32Octet 0xFFFFFFFF) ^^^ 0xFFFFFFFF

/-- The octets of "123456789" (the check values of R572). -/
def crcSample : List Byte := [0x31#8, 0x32#8, 0x33#8, 0x34#8, 0x35#8, 0x36#8, 0x37#8, 0x38#8, 0x39#8]

/-- Whether every element before an index and at it satisfies a test. -/
def allBelow (n : Nat) (p : Nat → Bool) : Bool := (List.range n).all p
/-- Ceiling division. -/
def ceilDiv (a b : Nat) : Nat := (a + b - 1) / b
/-- The set bits of a number below n, ascending. -/
def bitsSet (n v : Nat) : List Nat := (List.range n).filter (fun i => v.testBit i)
/-- The number with the given bits set. -/
def ofBits (is : List Nat) : Nat := is.foldl (fun a i => a ||| 2 ^ i) 0
/-- A bit written into a number. -/
def setBitN (v i : Nat) (b : Bool) : Nat := if b then v ||| 2 ^ i else if v.testBit i then v - 2 ^ i else v

end Sys2Proof.Machine
end

