-- ==== Sys2Proof/Machine/RegMap.lean ====
section
/-! DEFINITION. The register maps of blocks 0x01 to 0x13: where each register lies in its block's window, which of its bits have
which access, and the reset value of its STAGED, LIVE and RW bits (R5 to R7, R48, R69, and the table of each chapter). -/
namespace Sys2Proof.Machine
open Sys2Proof

/-- A register, or an array of them: window offset of the first, stride, count, the masks of its STAGED, LIVE, RW, RC and
W1C bits (every other bit is RO, WO or reserved), and the reset value of its STAGED, LIVE and RW bits. -/
structure RegDef where
  ofs : Nat
  stride : Nat
  count : Nat
  staged : Nat
  live : Nat
  rw : Nat
  rc : Nat
  w1c : Nat
  reset : Nat
deriving DecidableEq, Repr

def reg (ofs stride count staged live rw rc w1c reset : Nat) : RegDef := ⟨ofs, stride, count, staged, live, rw, rc, w1c, reset⟩

/-- Block 0x01 (supervisor: no registers of its own): registers beyond the common ones. -/
def regs01 : List RegDef := [
  ]
/-- Block 0x02 (TCK): registers beyond the common ones. -/
def regs02 : List RegDef := [
  reg 0x100 0x4 1 0x3FFF 0x0 0x0 0x0 0x0 0x2004, -- TCK_CONFIG
  reg 0x104 0x4 1 0x0 0x0 0x0 0x0 0x0 0x0, -- TCK_FAULT
  reg 0x108 0x4 1 0x0 0x0 0x0 0x0 0x0 0x0, -- TCK_TICK_LO
  reg 0x10C 0x4 1 0x0 0x0 0x0 0x0 0x0 0x0, -- TCK_TICK_HI
  reg 0x110 0x4 1 0x0 0x0 0x0 0x0 0x0 0x0, -- TCK_PHASE
  reg 0x114 0x4 1 0x0 0x0 0x0 0xFFFFFFFF 0x0 0x0 -- TCK_THROTTLE_CNT
  ]
/-- Block 0x03 (IMG): registers beyond the common ones. -/
def regs03 : List RegDef := [
  reg 0x100 0x4 1 0x1 0x2 0x0 0x0 0x0 0x2, -- IMG_CONFIG
  reg 0x104 0x4 1 0x0 0x0 0x0 0x0 0x0 0x0, -- IMG_POINTS
  reg 0x108 0x4 1 0x0 0x0 0x0 0x0 0x0 0x0, -- IMG_FORCES
  reg 0x10C 0x4 1 0x0 0x0 0x0 0x0 0x0 0x0, -- IMG_CUT_TICK
  reg 0x110 0x4 1 0x0 0x0 0x0 0x0 0x0 0x0, -- IMG_CUT_SUBST
  reg 0x114 0x4 1 0x0 0x0 0x0 0xFFFF 0x0 0x0, -- IMG_ACCESS_ERR
  reg 0x118 0x4 1 0x0 0x0 0x0 0x0 0x0 0x0 -- IMG_ACCESS_LAST
  ]
/-- Block 0x04 (ROD): registers beyond the common ones. -/
def regs04 : List RegDef := [
  reg 0x100 0x4 1 0x0 0x1 0x0 0x0 0x0 0x1, -- ROD_CONFIG
  reg 0x104 0x4 1 0x0 0x0 0x0 0xFFFF 0x0 0x0, -- ROD_ACCESS_ERR
  reg 0x108 0x4 1 0x0 0x0 0x0 0x0 0x0 0x0, -- ROD_ACCESS_SEG
  reg 0x10C 0x4 1 0x0 0x0 0x0 0x0 0x0 0x0, -- ROD_ACCESS_OFS
  reg 0x110 0x4 1 0x0 0x0 0x0 0xFFFF 0x0 0x0, -- ROD_ECC
  reg 0x114 0x4 1 0x0 0x0 0x0 0x3FFFFFFF 0x0 0x0, -- ROD_WAITF_MAX
  reg 0x118 0x4 1 0x0 0x0 0x0 0xFFFF 0x0 0x0 -- ROD_XCH_COLLIDE
  ]
/-- Block 0x05 (LDR): registers beyond the common ones. -/
def regs05 : List RegDef := [
  reg 0x100 0x4 1 0x3 0x0 0x0 0x0 0x0 0x0, -- LDR_CONFIG
  reg 0x104 0x4 1 0x0 0x0 0x0 0x0 0x0 0x0, -- LDR_ADMIT_A
  reg 0x108 0x4 1 0x0 0x0 0x0 0x0 0x0 0x0, -- LDR_ADMIT_B
  reg 0x10C 0x4 1 0x0 0x0 0x0 0x0 0x0 0x0, -- LDR_IDENT_A
  reg 0x110 0x4 1 0x0 0x0 0x0 0x0 0x0 0x0, -- LDR_IDENT_B
  reg 0x114 0x4 1 0x0 0x0 0x0 0x0 0x0 0x0, -- LDR_BOUND
  reg 0x118 0x4 1 0x0 0x0 0x0 0x0 0x0 0x0 -- LDR_FAIL
  ]
/-- Block 0x06 (CHG): registers beyond the common ones. -/
def regs06 : List RegDef := [
  reg 0x100 0x4 1 0x0 0x1 0x0 0x0 0x0 0x0, -- CHG_CONFIG
  reg 0x104 0x4 1 0x0 0x0 0x0 0x0 0x0 0x0, -- CHG_DIRTY
  reg 0x108 0x4 1 0x0 0x0 0x0 0x0 0x0 0x0, -- CHG_POSTPONE
  reg 0x10C 0x4 1 0x0 0x0 0x0 0x0 0x0 0x0, -- CHG_CAPACITY
  reg 0x110 0x4 1 0x0 0x0 0x0 0x0 0x0 0x0 -- CHG_SWAP_TICK
  ]
/-- Block 0x07 (LNK): registers beyond the common ones. -/
def regs07 : List RegDef := [
  reg 0x100 0x4 1 0xFFFFFF 0x0 0x0 0x0 0x0 0x0, -- LNK_CONFIG
  reg 0x200 0x20 24 0xFFFFF 0x300000 0x0 0x0 0x0 0x302050, -- LNK_CFG_k
  reg 0x204 0x20 24 0x0 0x0 0x0 0x0 0x0 0x0, -- LNK_STATE_k
  reg 0x208 0x20 24 0x0 0x0 0x0 0x0 0x0 0x0, -- LNK_RTT_k
  reg 0x20C 0x20 24 0x0 0x0 0x0 0x0 0x0 0x0, -- LNK_FRAME_k
  reg 0x210 0x20 24 0x0 0x0 0x0 0xFFFFFFFF 0x0 0x0, -- LNK_ERR_k
  reg 0x214 0x20 24 0x0 0x0 0x0 0xFFFFFFFF 0x0 0x0 -- LNK_LOSS_k
  ]
/-- Block 0x08 (CRY): registers beyond the common ones. -/
def regs08 : List RegDef := [
  reg 0x100 0x4 1 0xFFFF0003 0x4 0x0 0x0 0x0 0x10000, -- CRY_CONFIG
  reg 0x104 0x4 1 0x0 0x0 0x0 0x0 0x0 0x0, -- CRY_CLAIM
  reg 0x108 0x4 1 0x0 0x0 0x0 0x0 0x0 0x0, -- CRY_APPLIED
  reg 0x10C 0x4 1 0x0 0x0 0x0 0x0 0x0 0x0, -- CRY_DELTA
  reg 0x110 0x4 1 0x0 0x0 0x0 0xFFFFFF 0x0 0x0, -- CRY_DELTA_MAX
  reg 0x114 0x4 1 0x0 0x0 0x0 0x0 0x0 0x0, -- CRY_BUDGET
  reg 0x118 0x4 1 0x0 0x0 0x0 0xFFFFFFFF 0x0 0x0, -- CRY_LINK_ERR
  reg 0x11C 0x4 1 0x0 0x0 0x0 0x0 0x0 0x0, -- CRY_HEALTH
  reg 0x120 0x4 1 0x0 0x0 0x0 0x0 0x0 0x0, -- CRY_SYNC
  reg 0x124 0x4 1 0x0 0x0 0x0 0x0 0x0 0x0 -- CRY_TAKEOVER
  ]
/-- Block 0x09 (NTM): registers beyond the common ones. -/
def regs09 : List RegDef := [
  reg 0x100 0x4 1 0xFFFF1FFF 0x0 0x0 0x0 0x0 0x80800008, -- NTM_CONFIG
  reg 0x104 0x4 1 0xFFFF 0x0 0x0 0x0 0x0 0x3010, -- NTM_INTERVALS
  reg 0x108 0x4 1 0xFFFFFFFF 0x0 0x0 0x0 0x0 0x3C03E8, -- NTM_LIMITS
  reg 0x10C 0x4 1 0x3FFFF 0x0 0x0 0x0 0x0 0x0, -- NTM_EDGE_CFG
  reg 0x110 0x4 1 0xFFFFFFFF 0x0 0x0 0x0 0x0 0x0, -- NTM_PORT_0
  reg 0x114 0x4 1 0xFFFFFFFF 0x0 0x0 0x0 0x0 0x0, -- NTM_PORT_1
  reg 0x120 0x4 1 0x0 0x0 0x0 0x0 0x0 0x0, -- NTM_NOW_NS
  reg 0x124 0x4 1 0x0 0x0 0x0 0x0 0x0 0x0, -- NTM_NOW_SEC_LO
  reg 0x128 0x4 1 0x0 0x0 0x0 0x0 0x0 0x0, -- NTM_NOW_SEC_HI
  reg 0x12C 0x4 1 0x0 0x0 0x0 0x0 0x0 0x0, -- NTM_OFFSET
  reg 0x130 0x4 1 0x0 0x0 0x0 0x0 0x0 0x0, -- NTM_RATE
  reg 0x134 0x4 1 0x0 0x0 0x0 0x0 0x0 0x0, -- NTM_MEAN_DELAY
  reg 0x138 0x4 1 0x0 0x0 0x0 0x0 0x0 0x0, -- NTM_UTC
  reg 0x13C 0x4 1 0x0 0x0 0x0 0x0 0x0 0x0, -- NTM_UTC_SNAP
  reg 0x140 0x4 1 0x0 0x0 0x0 0x0 0x0 0x0, -- NTM_EDGE_TIME
  reg 0x144 0x4 1 0x0 0x0 0x0 0x0 0x0 0x0, -- NTM_EDGE_ERR
  reg 0x148 0x4 1 0x0 0x0 0x0 0xFFFFFF 0x0 0x0, -- NTM_STEPS
  reg 0x14C 0x4 1 0x0 0x0 0x0 0xFFFF 0x0 0x0 -- NTM_LAUNCH_STAT
  ]
/-- Block 0x0A (BRK): registers beyond the common ones. -/
def regs0A : List RegDef := [
  reg 0x100 0x4 1 0xFF 0x0 0x0 0x0 0x0 0x0, -- BRK_CONFIG
  reg 0x104 0x4 1 0xFFFFF 0x0 0x0 0x0 0x0 0x0, -- BRK_TRIM_MANUAL
  reg 0x108 0x4 1 0x1FFFF 0x0 0x0 0x0 0x0 0xE10, -- BRK_TRIM_WINDOW
  reg 0x10C 0x4 1 0x1FFFFFF 0x0 0x0 0x0 0x0 0x0, -- BRK_WAKE
  reg 0x110 0x4 1 0x0 0xFFFFFF 0x0 0x0 0x0 0x0, -- BRK_COUNTDOWN_SET
  reg 0x114 0x4 4 0x1FF 0x0 0x0 0x0 0x0 0x0, -- BRK_EV_CFG0–3
  reg 0x130 0x4 1 0x0 0x0 0x0 0x0 0x0 0x0, -- BRK_CAL_SNAP
  reg 0x134 0x4 1 0x0 0x0 0x0 0x0 0x0 0x0, -- BRK_SNAP_SEC_LO
  reg 0x138 0x4 1 0x0 0x0 0x0 0x0 0x0 0x0, -- BRK_SNAP_SEC_HI
  reg 0x13C 0x4 1 0x0 0x0 0x0 0x0 0x0 0x0, -- BRK_SNAP_DATE
  reg 0x140 0x4 1 0x0 0x0 0x0 0x0 0x0 0x0, -- BRK_SNAP_CLOCK
  reg 0x144 0x4 1 0x0 0x0 0x0 0x0 0x0 0x0, -- BRK_TRIM_NOW
  reg 0x148 0x4 1 0x0 0x0 0x0 0x0 0x0 0x0, -- BRK_CAL_OFS
  reg 0x14C 0x4 1 0x0 0x0 0x0 0x0 0x0 0x0, -- BRK_COUNTDOWN_NOW
  reg 0x150 0x4 1 0x0 0x0 0x0 0x0 0xF03 0x0, -- BRK_EVENTS
  reg 0x154 0x4 1 0x0 0x0 0x0 0x0 0x0 0x0, -- BRK_BACKUP
  reg 0x200 0x4 64 0x0 0x0 0xFFFFFFFF 0x0 0x0 0x0, -- BRK_SCRATCH_0–63
  reg 0x300 0x4 64 0x0 0x0 0x0 0x0 0x0 0x0 -- BRK_WDE_0–63
  ]
/-- Block 0x0B (CAN): registers beyond the common ones. -/
def regs0B : List RegDef := [
  reg 0x100 0x4 1 0x3 0x0 0x0 0x0 0x0 0x0, -- CAN_CONFIG
  reg 0x140 0x40 2 0xFF1F 0x20 0x0 0x0 0x0 0x18, -- CAN_CFG_k
  reg 0x144 0x40 2 0x7FFFFFF 0x0 0x0 0x0 0x0 0x227140, -- CAN_NBT_k
  reg 0x148 0x40 2 0x1FFFFFF 0x0 0x0 0x0 0x0 0x40CDC0, -- CAN_DBT_k
  reg 0x14C 0x40 2 0x1FFFF 0x0 0x0 0x0 0x0 0x0, -- CAN_TT_k
  reg 0x150 0x40 2 0x3FFFFFFF 0x0 0x0 0x0 0x0 0x0, -- CAN_REF_k
  reg 0x154 0x40 2 0x0 0x0 0x0 0x0 0x0 0x0, -- CAN_STATE_k
  reg 0x158 0x40 2 0x0 0x0 0x0 0xFFFFFFFF 0x0 0x0, -- CAN_ERR_k
  reg 0x15C 0x40 2 0x0 0x0 0x0 0xFFFFFFFF 0x0 0x0, -- CAN_CNT_k
  reg 0x400 0x10 128 0xFFFFFFFF 0x0 0x0 0x0 0x0 0x0, -- CAN_OBJ_ID
  reg 0x404 0x10 128 0x7FFFFFFF 0x0 0x0 0x0 0x0 0x0, -- CAN_OBJ_MASK
  reg 0x408 0x10 128 0xFFFFFF 0x0 0x0 0x0 0x0 0x0, -- CAN_OBJ_CTRL
  reg 0x40C 0x10 128 0x1FFFFFF 0x0 0x0 0x0 0x0 0x0, -- CAN_OBJ_TIME
  reg 0xC00 0x10 128 0xFFFFFFFF 0x0 0x0 0x0 0x0 0x0, -- CAN_OBJ_ID
  reg 0xC04 0x10 128 0x7FFFFFFF 0x0 0x0 0x0 0x0 0x0, -- CAN_OBJ_MASK
  reg 0xC08 0x10 128 0xFFFFFF 0x0 0x0 0x0 0x0 0x0, -- CAN_OBJ_CTRL
  reg 0xC0C 0x10 128 0x1FFFFFF 0x0 0x0 0x0 0x0 0x0 -- CAN_OBJ_TIME
  ]
/-- Block 0x0C (LCH): registers beyond the common ones. -/
def regs0C : List RegDef := [
  reg 0x100 0x4 1 0xF 0x10 0x0 0x0 0x0 0x10, -- LCH_CONFIG
  reg 0x104 0x4 1 0x0 0x0 0x0 0x0 0x0 0x0, -- LCH_DIAG
  reg 0x108 0x4 1 0x0 0x0 0x0 0x0 0xFFFFFFFF 0x0, -- LCH_OVERLOAD
  reg 0x10C 0x4 1 0x0 0x0 0x0 0x0 0x0 0x0, -- LCH_WIREBREAK
  reg 0x110 0x4 4 0x0 0x0 0x0 0x0 0x0 0x0, -- LCH_LPLUS_0–3
  reg 0x120 0x4 1 0x0 0x0 0x0 0x7FFFF 0x0 0x0, -- LCH_S0_SHORT
  reg 0x200 0x4 32 0x3FF 0x0 0x0 0x0 0x0 0x0, -- LCH_CH_0–31
  reg 0x300 0x4 8 0x0 0x0 0x0 0x0 0x0 0x0 -- LCH_COUNT_0–7
  ]
/-- Block 0x0D (MTR): registers beyond the common ones. -/
def regs0D : List RegDef := [
  reg 0x100 0x4 1 0x1F 0x0 0x0 0x0 0x0 0x0, -- MTR_CONFIG
  reg 0x104 0x4 1 0x0 0x0 0x0 0x0 0x0 0x0, -- MTR_CH_FAIL
  reg 0x108 0x4 1 0x0 0x0 0x0 0xFFFFFF 0x0 0x0, -- MTR_CLIP
  reg 0x10C 0x4 1 0x0 0x0 0x0 0x0 0x0 0x0, -- MTR_GAIN
  reg 0x200 0x40 4 0x3FFFFFFF 0x0 0x0 0x0 0x0 0xCAA44, -- MTR_FDR_CFG_f
  reg 0x204 0x40 4 0xFFFFFFFF 0x0 0x0 0x0 0x0 0x3F800000, -- MTR_VRATIO_f
  reg 0x208 0x40 4 0xFFFFFFFF 0x0 0x0 0x0 0x0 0x3F800000, -- MTR_IRATIO_f
  reg 0x20C 0x40 4 0xFFFFFF 0x0 0x0 0x0 0x0 0x8FC, -- MTR_UDIN_f
  reg 0x210 0x40 4 0x7FFFFF 0x0 0x0 0x0 0x0 0x11775A, -- MTR_THRESH_f
  reg 0x214 0x40 4 0xFFFFFF 0x0 0x0 0x0 0x0 0x0, -- MTR_PULSE_f
  reg 0x218 0x40 4 0x0 0x0 0x0 0x0 0x0 0x0, -- MTR_FREQ_f
  reg 0x21C 0x40 4 0x0 0x0 0x0 0x0 0x0 0x0, -- MTR_LATCH_f
  reg 0x220 0x40 4 0x0 0x0 0x0 0x0 0x0 0x0, -- MTR_ELSB_f
  reg 0x224 0x40 4 0x0 0x0 0x0 0x0 0x0 0x0, -- MTR_EVSTATE_f
  reg 0x228 0x40 4 0x0 0x0 0x0 0x0 0x0 0x0, -- MTR_RESTORE_f
  reg 0x400 0x4 24 0xFFFFFFF 0x0 0x0 0x0 0x0 0x0 -- MTR_CAL_c
  ]
/-- Block 0x0E (SLT): registers beyond the common ones. -/
def regs0E : List RegDef := [
  reg 0x100 0x4 1 0x0 0x1 0x0 0x0 0x0 0x0, -- SLT_CONFIG
  reg 0x104 0x4 1 0x0 0x0 0x0 0xFFFFFFFF 0x0 0x0, -- SLT_ECC
  reg 0x108 0x4 1 0x0 0x0 0x0 0x0 0x0 0x0, -- SLT_BOOT_SCAN
  reg 0x10C 0x4 1 0x0 0x0 0x0 0x0 0x0 0x0, -- SLT_WRITES
  reg 0x110 0x4 1 0x0 0x0 0x0 0x0 0x0 0x0 -- SLT_LAST_WRITE
  ]
/-- Block 0x0F (REC): registers beyond the common ones. -/
def regs0F : List RegDef := [
  reg 0x100 0x4 1 0x1FFFF 0x0 0x0 0x0 0x0 0x10064, -- REC_CONFIG
  reg 0x104 0x4 1 0x0 0x0 0x0 0x0 0x0 0x0, -- REC_HEAD
  reg 0x108 0x4 1 0x0 0x0 0x0 0x0 0x0 0x0, -- REC_OLDEST
  reg 0x10C 0x4 1 0x0 0x0 0x0 0xFFFFFFFF 0x0 0x0, -- REC_STATS
  reg 0x110 0x4 1 0x0 0x0 0x0 0x0 0x0 0x0, -- REC_TAIL
  reg 0x200 0x4 1 0x0 0x0 0x0 0x0 0x0 0x0, -- REC_CURSOR
  reg 0x204 0x4 1 0x0 0x0 0x0 0x0 0x0 0x0, -- REC_WIN_STATE
  reg 0x208 0x4 8 0x0 0x0 0x0 0x0 0x0 0x0 -- REC_WIN_0–7
  ]
/-- Block 0x10 (WDT): registers beyond the common ones. -/
def regs10 : List RegDef := [
  reg 0x100 0x4 1 0x7FFF 0x8000 0x0 0x0 0x0 0x2710, -- WDT_CONFIG
  reg 0x104 0x4 1 0xFFFFFF 0x0 0x0 0x0 0x0 0x1, -- WDT_OPEN
  reg 0x108 0x4 1 0x0 0x0 0x0 0x0 0x0 0x0, -- WDT_SERVICE
  reg 0x10C 0x4 1 0x0 0x0 0x0 0x0 0x0 0x0, -- WDT_COUNT
  reg 0x110 0x4 1 0x0 0x0 0x0 0x0 0x0 0x0, -- WDT_TALLY_REG
  reg 0x114 0x4 1 0x0 0x0 0x0 0x0 0x0 0x0, -- WDT_TALLY_SET
  reg 0x118 0x4 1 0x0 0x0 0x0 0xFFFFFFFF 0x0 0x0, -- WDT_TALLY_STAT
  reg 0x11C 0x4 1 0x0 0x0 0x0 0x0 0x0 0x0, -- WDT_RESET_CAUSE
  reg 0x120 0x4 1 0x0 0x0 0x0 0xFFFF 0x0 0x0, -- WDT_SVC_STAT
  reg 0x124 0x4 1 0x0 0x0 0x0 0x0 0x0 0x0 -- WDT_LAST_SVC
  ]
/-- Block 0x11 (FWU): registers beyond the common ones. -/
def regs11 : List RegDef := [
  reg 0x100 0x4 1 0xFFF 0x0 0x0 0x0 0x0 0x3C, -- FWU_CONFIG
  reg 0x104 0x4 1 0x0 0x0 0x0 0x0 0x0 0x0, -- FWU_VERSION_RUN
  reg 0x108 0x4 1 0x0 0x0 0x0 0x0 0x0 0x0, -- FWU_VERSION_0
  reg 0x10C 0x4 1 0x0 0x0 0x0 0x0 0x0 0x0, -- FWU_VERSION_1
  reg 0x110 0x4 1 0x0 0x0 0x0 0x0 0x0 0x0, -- FWU_TRIAL
  reg 0x114 0x4 1 0x0 0x0 0x0 0x0 0x0 0x0 -- FWU_SD
  ]
/-- Block 0x12 (TRK): registers beyond the common ones. -/
def regs12 : List RegDef := [
  reg 0x100 0x4 1 0xFFFF1F 0x0 0x0 0x0 0x0 0x204004, -- TRK_CONFIG
  reg 0x104 0x4 1 0x0 0x0 0x0 0x0 0x0 0x0, -- TRK_ROD_SHARE
  reg 0x108 0x4 1 0x0 0x0 0x0 0xFFFFFFFF 0x0 0x0, -- TRK_PREEMPT_CNT
  reg 0x10C 0x4 1 0x0 0x0 0x0 0xFFFFFFFF 0x0 0x0, -- TRK_MASK_CNT
  reg 0x110 0x4 1 0x0 0x0 0x0 0x7FFFFF 0x0 0x0, -- TRK_HELD
  reg 0x114 0x4 1 0x0 0x0 0x0 0xFFFF 0x0 0x0 -- TRK_ECC
  ]
/-- Block 0x13 (PWR): registers beyond the common ones. -/
def regs13 : List RegDef := [
  reg 0x100 0x4 1 0x0 0x0 0x0 0xFFF000 0xE 0x0, -- PWR_MONITOR
  reg 0x104 0x4 1 0x0 0x0 0x0 0xFF00 0x0 0x0 -- PWR_TEMP
  ]

/-- The registers of a block. -/
def regsOf (blk : Nat) : List RegDef :=
  match blk with
  | 0x01 => regs01
  | 0x02 => regs02
  | 0x03 => regs03
  | 0x04 => regs04
  | 0x05 => regs05
  | 0x06 => regs06
  | 0x07 => regs07
  | 0x08 => regs08
  | 0x09 => regs09
  | 0x0A => regs0A
  | 0x0B => regs0B
  | 0x0C => regs0C
  | 0x0D => regs0D
  | 0x0E => regs0E
  | 0x0F => regs0F
  | 0x10 => regs10
  | 0x11 => regs11
  | 0x12 => regs12
  | 0x13 => regs13
  | _ => []

/-- Whether an offset of the window names a register of an array. -/
def RegDef.has (d : RegDef) (ofs : Nat) : Bool :=
  decide (d.ofs ≤ ofs) && (ofs - d.ofs) % d.stride == 0 && decide ((ofs - d.ofs) / d.stride < d.count)

/-- The register at a window offset of a block. -/
def regDef (blk ofs : Nat) : Option RegDef := (regsOf blk).find? (fun d => d.has ofs)

/-- Reset value of the STAGED, LIVE and RW bits of a register (R7); 0 where there is none. -/
def regReset (blk ofs : Nat) : Dword :=
  match regDef blk ofs with
  | some d => BitVec.ofNat 32 d.reset
  | none => 0#32

/-- The mask of the STAGED bits of a register. -/
def stagedMask (blk ofs : Nat) : Dword :=
  match regDef blk ofs with
  | some d => BitVec.ofNat 32 d.staged
  | none => 0#32
/-- The mask of the LIVE bits of a register. -/
def liveMask (blk ofs : Nat) : Dword :=
  match regDef blk ofs with
  | some d => BitVec.ofNat 32 d.live
  | none => 0#32

/-- Every window offset of a register of a block. -/
def regOffsets (blk : Nat) : List Nat := (regsOf blk).flatMap (fun d => (List.range d.count).map (fun i => d.ofs + d.stride * i))

/-- Bits of a dword replaced under a mask. -/
def maskWrite (old v mask : Dword) : Dword := (old &&& ~~~mask) ||| (v &&& mask)

/-- The BAR0 offset of the window of a block (R48). -/
def windowBase (blk : Nat) : Nat := blk * 0x8000

end Sys2Proof.Machine
end

