-- ==== Sys2Proof/Machine/StateBase.lean ====
section
/-! DEFINITION. State of the tick and the modes, the host ports, the configuration machinery, the slate memory and the recorder. -/
namespace Sys2Proof.Machine
open Sys2Proof

/-- The six modes (R24). -/
inductive Mode | dormant | boot | stop | run | hold | shadow
deriving DecidableEq, Repr

/-- A command that has not been answered yet: where its response goes and what it echoes (R57, R58). -/
structure Who where
  port : Port
  slot : Fin 32
  /-- the request it answers: a response to a slot that has been reset meanwhile is discarded (R63) -/
  id : Nat
  code : BitVec 16
  seq : BitVec 32
  notify : Bool
deriving DecidableEq, Repr

/-- A response as it stands in the response area (R58). -/
structure Response where
  code : BitVec 16
  reason : Code
  seq : BitVec 32
  tick : BitVec 64
  data : List Byte
deriving DecidableEq, Repr

/-- A mailbox slot (R56, R59): the bytes of its request area (those beyond the list read 0, log 9), the request in progress
(BUSY), and what the supervisor has written into its response area. -/
structure Slot where
  request : List Byte
  busy : Option Nat
  response : Option Response
deriving DecidableEq, Repr

/-- A PTP message as it leaves, with the times that the unit puts into it (R362, R364). -/
inductive PtpOut
  | announce (a : Announce)
  | sync (seq : BitVec 16)
  | followUp (seq : BitVec 16) (t1 : Int)
  | delayReq (seq : BitVec 16)
  | delayResp (requesting : BitVec 80) (seq : BitVec 16) (t4 : Int)
  | pdelayReq (seq : BitVec 16)
  | pdelayResp (requesting : BitVec 80) (seq : BitVec 16) (t2 : Int)
  | pdelayFollowUp (requesting : BitVec 80) (seq : BitVec 16) (t3 : Int)
deriving DecidableEq, Repr

/-- What leaves the part, newest first. -/
inductive Tx
  /-- MSI-X vector (R54) -/
  | msix (p : Port) (v : Fin 8)
  /-- completion of a register read, and Completer Abort (R46, R47) -/
  | readData (p : Port) (v : Dword)
  | completerAbort (p : Port)
  /-- bus-mastered transfer to host memory, and the start of one from it (R62) -/
  | hostWrite (p : Port) (addr : BitVec 64) (data : List Byte)
  | hostRead (p : Port) (addr : BitVec 64) (len : Nat)
  /-- frame on a field link (R290) -/
  | link (k : Fin 24) (frame : List Byte)
  /-- a broken frame sent on: the octets before the break, then an error block and a terminate block (R276) -/
  | linkCut (k : Fin 24) (octets : List Byte)
  /-- frame on the carry links: lane, or both links (R328, R331) -/
  | carry (lane : Option (Fin 8)) (frame : List Byte)
  /-- CAN data or reference frame that a controller has put on the bus (R413, R420) -/
  | can (k : Fin 2) (id : BitVec 29) (ide fdf brs esi : Bool) (data : List Byte)
  /-- PTP message, and a queued frame, on an Ethernet port (R362, R374) -/
  | ptp (eth udp : Bool) (domain : Nat) (m : PtpOut)
  | eth (eth : Bool) (frame : List Byte)
  /-- PWRON pin (R398) -/
  | pwron (level : Bool)
deriving DecidableEq, Repr

/-- A fault detected in the tick, not yet entered into STOP (R27, R566): its reason, the rod cycle that raised it
(none for a fault that no rod cycle raised) and its parameters. -/
structure PendFault where
  code : Code
  cycle : Option Nat
  rod : Nat
  params : List Nat
  /-- the claim before the fault: a fault of the same cycle that decides instead may keep it (R185) -/
  claim : Option Nat
  /-- the local outputs before the fault, for the same reason -/
  outs : BitVec 32
deriving DecidableEq, Repr

/-- A commanded mode transition that waits for its edge (R28). -/
structure Transition where
  target : Mode
  who : Who
deriving DecidableEq, Repr

/-- Phase of the rods in a tick (R16): before compute start, computing, every rod at its schedule end. -/
inductive Phase | edge | compute | ended
deriving DecidableEq, Repr

/-- The tick, the modes and the throttle (02). -/
structure Tck where
  mode : Mode
  /-- mode BOOT ends in, known after BOOT_SEQUENCE (R35), with its fault reason and parameters -/
  bootEnd : Option (Mode × Code × List Nat)
  /-- BOOT step 1 has failed: the next attempt is a reset of cause 6 (R33) -/
  bootStuck : Bool
  /-- a reset or a loss of power cuts this BOOT in a pointer write; it is the next command (R469, log 128) -/
  bootCut : Bool
  /-- the reset that began this BOOT came from JOIN (R25) -/
  joining : Bool
  cause : BitVec 4
  prevMode : BitVec 3
  tick : BitVec 64
  /-- time of the first tick edge since the reset: energy counts from the first full line cycle after it (R461) -/
  begun : Option Nat
  /-- tick periods since that edge, in ns (R535) -/
  elapsed : Nat
  /-- ns since the last edge, and the length of the running tick (R372) -/
  ofs : Nat
  len : Nat
  /-- TCK_FAULT.REASON; 0 without a fault -/
  fault : Code
  /-- parameters of the fault that TCK_FAULT shows, and the fault that FAULT_ACK cleared last, until RUN is entered: its cause
  may persist (R30, log 85) -/
  faultPs : List Nat
  acked : Option (Code × List Nat)
  pend : Option PendFault
  trans : Option Transition
  /-- a STEP command that waits for its edge, and the one whose tick runs (R31) -/
  stepReq : Option Who
  stepped : Bool
  /-- the tick that runs computes (R24) -/
  computing : Bool
  phase : Phase
  /-- DEADLINE has passed in this tick, and it met its conditions (R17) -/
  deadlineMet : Option Bool
  /-- offset of compute end and of the seal of this tick, in ns; none until then -/
  endOfs : Option Nat
  sealOfs : Option Nat
  lastEnd : BitVec 16
  lastSeal : BitVec 16
  tickHi : Dword
  swapTick : Bool
  /-- rod clock: 0 full, 1 at 3/4, 2 at 1/2, with the highest level this tick has seen (R38) -/
  throttle : BitVec 2
  throttleMax : BitVec 2
  l1Ticks : BitVec 16
  l2Ticks : BitVec 16
deriving DecidableEq, Repr

/-- Supply and temperature (02 R42, 20 R547, R557). -/
structure Pwr where
  pfw : Bool
  pfwSeen : Bool
  l1Seen : Bool
  l2Seen : Bool
  vcoreMin : BitVec 12
  /-- time of the PFW assertion that runs (R41, R460) -/
  pfwAt : Option Nat
  temp : BitVec 8
  tempMax : BitVec 8
  /-- a further 0x1310 is not recorded yet (R547), and the time since which the junction has been below 100 °C -/
  hotHeld : Bool
  /-- the rail that has left its window: STOP stays until a reset (R543) -/
  railHeld : Option Nat
  coolSince : Option Nat
deriving DecidableEq, Repr

/-- State of the recorder window of a port (R499). -/
inductive WinState | valid | empty | lost | pending
deriving DecidableEq, Repr

/-- The bedrock snapshot registers of a port (R387), in the order of their offsets 0x130 to 0x140. -/
structure BrkSnap where
  sub : Dword
  secLo : Dword
  secHi : Dword
  date : Dword
  clock : Dword
deriving DecidableEq, Repr

/-- Per-port state of a host port (R50, R63). -/
structure PortState where
  irqStatus : BitVec 8
  irqEnable : BitVec 8
  edgeDiv : BitVec 8
  /-- tick edges since vector 1 last fired -/
  edgeCnt : Nat
  semTag : BitVec 16
  badAccess : BitVec 8
  deniedWrite : BitVec 8
  badDoorbell : BitVec 8
  done : BitVec 32
  slots : Vector Slot 32
  /-- bit BB: expert access to block BB (R65) -/
  expert : BitVec 20
  /-- bit BB: PFX_CFG_STATE.VIEW of block BB (R69) -/
  view : BitVec 20
  /-- completion data of the last register read -/
  rdata : Dword
  cursor : Nat
  winState : WinState
  winData : List Byte
  /-- the first read of REC_WIN_7 after a VALID latch is still to come (R499) -/
  winFresh : Bool
  snap : BrkSnap
  /-- the port is in D3hot (R44, log 84) -/
  d3hot : Bool
  /-- its PERST pin is low: the reset stays in effect (R551) -/
  perst : Bool
deriving DecidableEq, Repr

/-- Owner of a semaphore: port and tag (R51). -/
structure SemOwner where
  port : Port
  tag : BitVec 16
deriving DecidableEq, Repr

/-- A request that waits in the supervisor's queue (R59); its bytes stand in its slot. -/
structure Queued where
  port : Port
  slot : Fin 32
  id : Nat
deriving DecidableEq, Repr

/-- What a host transfer in progress is for (R62). -/
inductive XferKind
  /-- LOAD_DATA: bank and image offset (R235) -/
  | load (bank : BankId) (ofs : Nat)
  /-- data written to the host: REC_READ, REC_ARCHIVE_READ -/
  | toHost (data : List Byte)
  /-- NTM_LAUNCH frame read from the host (R374): port and launch time -/
  | launch (eth : Bool) (sec : Nat) (ns : Nat)
deriving DecidableEq, Repr

/-- A transfer that a command waits for. -/
structure Xfer where
  who : Who
  addr : BitVec 64
  len : Nat
  kind : XferKind
deriving DecidableEq, Repr

/-- Host ports and the supervisor's queue (03). -/
structure HostSt where
  a : PortState
  b : PortState
  sems : Vector (Option SemOwner) 64
  /-- port that won the last tie of each semaphore's read (R52), none before the first tie -/
  lastTie : Option Port
  queue : List Queued
  nextId : Nat
  xfers : List Xfer
deriving DecidableEq, Repr

/-- The fields of a block's window that are not at their reset value: window offset to dword. -/
abbrev RegFile := SMap Dword

/-- An operation of the slate memory (R470). -/
inductive SltWork
  /-- write of record r (R477) -/
  | record (r : Nat) (payload : List Byte)
  /-- increment of tally counter c (R483) -/
  | tally (c : Nat) (delta : Nat)
  /-- one write of R468 -/
  | raw (addr : Nat) (data : List Byte)
  /-- reads of the host commands (R485) -/
  | readRecord (r : Nat)
  | readTally (first count : Nat)
  | readRaw (addr len : Nat)
  /-- reads of REC_TAIL_READ, as first slot and count, and of FWU_INFO -/
  | readTail (first count : Nat)
  | readInfo
deriving DecidableEq, Repr

/-- A queued slate operation: its priority (R470), the command it answers and the edge tick its answer carries. -/
structure SltOp where
  pri : Nat
  work : SltWork
  who : Option Who
  edge : BitVec 64
deriving DecidableEq, Repr

/-- A slate operation that runs: the words it still writes in write order (address of the word, its 8 bytes), and
its times in ns (R468, R469). -/
structure SltRun where
  op : SltOp
  words : List (Nat × List Byte)
  start : Nat
  finish : Nat
deriving DecidableEq, Repr

/-- A write command that has passed its check and waits for its edge (R487). -/
structure SltWait where
  work : SltWork
  who : Who
  passedAt : Nat
deriving DecidableEq, Repr

/-- Slate memory (16). -/
structure Slt where
  /-- bytes of the 8 MiB; an unlisted byte reads as 0 (log 5) -/
  mem : List Host.Cell
  /-- words with a check-bit error (R471): false single-bit, true uncorrectable -/
  ecc : SMap Bool
  queue : List SltOp
  run : Option SltRun
  /-- a claim write that has entered between two words of `run` (R470) -/
  claimRun : Option SltRun
  waits : List SltWait
  /-- newest valid copy of each record: copy and SEQ (R478) -/
  sel : SMap (Nat × Nat)
  /-- head and value of each tally counter (R483) -/
  heads : SMap (Nat × Nat)
  /-- counters whose saturation has been recorded since the last reset (R483, log 115) -/
  saturated : List Nat
  corrected : BitVec 16
  uncorrectable : BitVec 16
  scanRecords : Nat
  scanInvalid : Nat
  scanConflicts : Nat
  writes : BitVec 32
  lastPage : BitVec 15
deriving DecidableEq, Repr

/-- A record of the recorder (R490 to R492). -/
structure Rec where
  code : Code
  boot : Bool
  fieldOrigin : Bool
  fault : Bool
  repeats : BitVec 8
  sec : Nat
  nsq : Dword
  tickLo : Dword
  params : List Word
  seq : BitVec 16
  /-- data of a variable record (R492) -/
  var : Option (List Byte)
deriving DecidableEq, Repr

/-- A record in the ring: the index of its first slot, its slots, and the time it was entered (ns). -/
structure RingRec where
  index : Nat
  slots : Nat
  entered : Nat
  body : Rec
deriving DecidableEq, Repr

/-- A report made in BOOT (R494). -/
structure BootReport where
  code : Code
  fault : Bool
  params : List Nat
  var : Option (List Byte)
  sec : Nat
  nsq : Dword
deriving DecidableEq, Repr

/-- A segment of the archive (R501). -/
structure ArchSeg where
  tally : Nat
  first : Nat
  crc : Nat
  /-- the slots written, before the padding with empty slots -/
  slots : List (List Byte)
deriving DecidableEq, Repr

/-- The event recorder (17). -/
structure RecSt where
  /-- records held, newest first -/
  ring : List RingRec
  head : Nat
  oldest : Nat
  /-- ring slots (slot index modulo the ring's size) with an uncorrectable DRAM error (R502) -/
  unreadable : List Nat
  /-- reports of the edge that is under way, which are entered together at its end (R493) -/
  batch : Option (List BootReport)
  seq : Nat
  /-- the first edge after BOOT has come -/
  started : Bool
  bootBuf : List BootReport
  bootDropped : Nat
  /-- records dropped in this tick under R493 -/
  tickDropped : Nat
  /-- field-origin records entered, and suppressed, in this window, by code (R496) -/
  entered : SMap Nat
  suppressed : SMap Nat
  statSuppressed : BitVec 16
  statDropped : BitVec 16
  /-- copies that wait for the slate tail, oldest first (R500) -/
  tailQueue : List (List Byte)
  tailSkipped : Nat
  tailNext : BitVec 16
  tailPass : Bool
  tailCopies : Nat
  /-- PFW: the queue is written at priority 2 -/
  tailUrgent : Bool
  /-- archive segments, newest first; the ring index the next segment begins at; flushes that wait -/
  archive : List ArchSeg
  archNext : Nat
  flushes : List Who
deriving DecidableEq, Repr

end Sys2Proof.Machine
end

