-- ==== Sys2Proof/Machine/StateProg.lean ====
section
/-! DEFINITION. State of the image, the program banks, the tasks, the online change, the rods and the trunk. -/
namespace Sys2Proof.Machine
open Sys2Proof

/-! ### Contents of a bank image (R571) -/

/-- SOURCE of a point (R571). -/
inductive Source
  | link (link depth : Nat) (path : List Byte) (word bit : Nat)
  | local (ch item : Nat)
  | can (k obj index : Nat)
  | meter (feeder item phase : Nat)
deriving DecidableEq, Repr

/-- A descriptor of the point table (R88); the point number is the key of the map that holds it. -/
structure Point where
  output : Bool
  word : Bool
  divisor : Nat
  /-- 0 ZERO, 1 HOLD, 2 TABLE -/
  subst : Nat
  substValue : Word
  source : Source
deriving DecidableEq, Repr

/-- A segment descriptor (R129, R130): kind 1 cache-resident instance, 2 DRAM instance, 3 DRAM constant. -/
structure SegDesc where
  kind : Nat
  length : Nat
  owner : Nat
  place : Nat
deriving DecidableEq, Repr

/-- A task (R243); errMask is the mask of the error task, triggers are identifiers in descriptor form (R251). -/
structure Task where
  id : Nat
  kind : Nat
  priority : Nat
  tally : Nat
  period : Nat
  phase : Nat
  rodSet : Nat
  errMask : Nat
  triggers : List Nat
deriving DecidableEq, Repr

/-- A segment of a rod's schedule (R245). -/
structure SchedSeg where
  task : Nat
  entry : Nat
  start : Nat
deriving DecidableEq, Repr

/-- A move of the migration map (R256): kind 0 COPY, 1 INIT, 2 SEXT48, 3 CVT_S. -/
structure Move where
  kind : Nat
  src : Nat
  dst : Nat
  n : Nat
deriving DecidableEq, Repr

/-- A segment record of the migration map: the source segment is 0 for none. -/
structure MigSeg where
  seg : Nat
  source : Nat
  moves : List Move
deriving DecidableEq, Repr

/-- A bank image, parsed. -/
structure Bank where
  id : Nat
  base : Nat
  /-- syllables of each rod with a code section -/
  code : SMap (List Nat)
  /-- CONST_LIMIT and words of each rod with a constant region -/
  consts : SMap (Nat × List Word)
  points : SMap Point
  segs : SMap SegDesc
  tasks : List Task
  scheds : SMap (List SchedSeg)
  /-- initial instance data: segment, first word, words -/
  init : List (Nat × Nat × List Word)
  mig : List MigSeg
deriving DecidableEq, Repr

/-! ### The image (04) -/

/-- An input point: what its source has delivered for the next cut, and the cut (R90). -/
structure InPt where
  /-- receiving copy: the value delivered for the next cut -/
  recv : Option Word
  cut : Word
  substituted : Bool
  /-- last value held with quality GOOD (R99) -/
  good : Word
  /-- the source has delivered under the table in force (R120), from the tick on that the Nat gives -/
  fresh : Bool
  since : Nat
deriving DecidableEq, Repr

/-- An output point (R90, R100, R103, R115). -/
structure OutPt where
  work : Word
  launch : Word
  /-- value as launched most recently, if ever launched (R115) -/
  sent : Word
  everSent : Bool
  /-- unforced value of the last launch in RUN (HOLD_OUT 0) -/
  runVal : Word
  /-- value launched last in RUN or HOLD (R100) -/
  liveVal : Word
  /-- first edge that may launch it (R118) -/
  since : Nat
deriving DecidableEq, Repr

/-- A force of the force stratum (R101, R105): mask, value, and the CLASS and DIRECTION of its point. -/
structure Force where
  mask : Word
  value : Word
  word : Bool
  output : Bool
deriving DecidableEq, Repr

/-- What a force command does at its edge (R106). -/
inductive ForceWork
  | set (entries : List (Nat × Nat × Nat))
  | clear (refs : List Nat)
  | clearAll
deriving DecidableEq, Repr

/-- A force command: its check runs until passedAt is known (R107). -/
structure ForceOp where
  work : ForceWork
  who : Who
  passedAt : Option Nat
deriving DecidableEq, Repr

/-- An image store of the running tick: rod cycle, rod, L slot, point, value (R189, R211). -/
structure IStore where
  cycle : Nat
  rod : Nat
  lslot : Nat
  point : Nat
  value : Word
deriving DecidableEq, Repr

/-- A host view (R115): tick, point entries, bit-row values and bit-row quality. -/
structure View where
  tick : BitVec 64
  entries : SMap Dword
deriving DecidableEq, Repr

/-- The image (04). -/
structure Img where
  ins : SMap InPt
  outs : SMap OutPt
  forces : SMap Force
  forceOps : List ForceOp
  stores : List IStore
  /-- the first RUN after BOOT has begun (R109) -/
  ranOnce : Bool
  errCount : BitVec 16
  lastRef : Word
  lastRod : BitVec 6
  lastKind : BitVec 2
  /-- 0x0320 has been recorded in this tick (R112) -/
  errNoted : Bool
  cutTick : Dword
  cutSubst : BitVec 24
  view : Option View
  /-- view of the edge, in force from offset 2 µs -/
  nextView : Option View
deriving DecidableEq, Repr

/-! ### Banks, tasks and online change (08) -/

/-- State of a bank (08); in force is a separate field of the loader. -/
inductive BankPhase | empty | loading | loaded | admitted
deriving DecidableEq, Repr

/-- A range written by LOAD_DATA, newest first in its list; data none when the LOAD_DATA failed (R235). -/
structure Chunk where
  ofs : Nat
  len : Nat
  data : Option (List Byte)
deriving DecidableEq, Repr

/-- A program bank (R231). -/
structure BankSt where
  phase : BankPhase
  length : Nat
  chunks : List Chunk
  image : List Byte
  prog : Option Bank
  /-- admission: tick period and rod share (R242) -/
  period : Nat
  share : Nat
  /-- LDR_BOUND: worst-case end in units of 0.25 µs, and its rod (R240) -/
  bound : Nat × Nat
  /-- words of the instance segments that differ from 0, by segment × 2^24 + offset -/
  data : SMap Word
  /-- stored copy in store flash (R236, R238): its image, none when empty or invalid -/
  stored : Option (List Byte)
deriving DecidableEq, Repr

/-- A verification in progress (R236). -/
structure Verify where
  bank : BankId
  who : Option Who
deriving DecidableEq, Repr

/-- A SAVE in progress (R236), by a command or after an online change (R269). -/
structure Save where
  bank : BankId
  who : Option Who
  image : List Byte
deriving DecidableEq, Repr

/-- An ACTIVATE that waits for its edge (R237). -/
structure Activate where
  bank : BankId
  who : Who
  accepted : Nat
deriving DecidableEq, Repr

/-- Loader and verifier (08). -/
structure Ldr where
  a : BankSt
  b : BankSt
  inForce : Option BankId
  verify : List Verify
  saves : List Save
  activate : Option Activate
  failRod : BitVec 6
  failAddr : BitVec 15
  failIndex : BitVec 4
deriving DecidableEq, Repr

/-- A task released in the tick: its TASK_ID, the count of its triggers and the first of them (R246, R252). -/
structure Release where
  task : Nat
  count : Nat
  first : Nat
deriving DecidableEq, Repr

/-- Triggers and releases (08). -/
structure TaskSt where
  /-- trigger identifiers latched and not yet released, oldest first -/
  latched : List Nat
  released : List Release
deriving DecidableEq, Repr

/-- Stage of an online change (R260, R264). -/
inductive ChgStage | idle | first | converging | ordered
deriving DecidableEq, Repr

/-- Online change (08). A line is keyed by new segment × 2^24 + its first word. -/
structure Chg where
  stage : ChgStage
  target : BankId
  who : Option Who
  /-- lines of the first pass still to build, and lines marked dirty, oldest first -/
  toBuild : List Nat
  dirty : List Nat
  constUnits : Nat
  dirtyUnits : Nat
  postponed : Nat
  /-- swap edge, while a swap is ordered -/
  swapAt : Option Nat
  swapTick : Dword
deriving DecidableEq, Repr

/-! ### Rods and trunk (05 to 07) -/

/-- A register that a result can reach (R126). -/
inductive Dest
  | g (n : Nat) | p (n : Nat) | lc (n : Nat) | seg (n : Nat)
deriving DecidableEq, Repr

/-- A result in flight (R174): due cycle, slot number, cycle of issue, and whether the divider delivers it (R178). -/
structure Flight where
  dest : Dest
  value : Nat
  due : Nat
  slot : Nat
  issued : Nat
  div : Bool
deriving DecidableEq, Repr

/-- State of a burst of a fetch-queue operation (R145, R149). -/
inductive BurstSt | pending | granted | service | done
deriving DecidableEq, Repr

/-- An operation that a queue slot holds (R138 to R140, R213). -/
structure FqOp where
  store : Bool
  /-- the bank in force when it was issued -/
  bank : Option BankId
  seg : Nat
  base : Nat
  loc : Nat
  len : Nat
  /-- order of issue within the rod, never used twice -/
  order : Nat
  /-- latched source words of a trunk store, or words fetched so far -/
  data : List Word
  bursts : List BurstSt
  /-- an operation with an access error is complete at once; zeroFill: its WAITF writes zeros (R213) -/
  failed : Bool
  zeroFill : Bool
deriving DecidableEq, Repr

/-- What a rod is doing in the tick. -/
inductive RodRun
  /-- waiting for the START of its next segment -/
  | waiting
  | running
  /-- stalled at a WAITF on a queue slot since the instant given, in ns -/
  | stalled (slot : Nat) (since : Nat)
  /-- at its schedule end -/
  | done
deriving DecidableEq, Repr

/-- One rod (05). -/
structure Rod where
  g : Vector Word 64
  p : BitVec 32
  lc : Vector Word 2
  seg : Vector Word 8
  run : RodRun
  /-- rod cycle of the next issue, from compute start -/
  cycle : Nat
  pos : Nat
  task : Nat
  pc : Nat
  /-- a control transfer in its delay bundles: bundles still to issue, and the target, if it is taken (R179) -/
  delay : Nat
  target : Option Nat
  /-- the hidden count: repetitions still to issue (R222) -/
  rept : Nat
  /-- bundles to come that may hold no C syllable (rule 0x08) -/
  noC : Nat
  /-- the bundle at pc is one that a REPTR of 0 skips, and it has no extent (R182) -/
  skipBad : Bool
  flight : List Flight
  divAt : Option Nat
  stack : List (Nat × Word)
  fq : Vector (Option FqOp) 16
  fqOrder : Nat
  /-- LOCAL words written in this tick, scratch and exchange (R133) -/
  loc : SMap Word
  /-- exchange words reached by stores: cycle of the last one, stores that reached it in that cycle, and whether an
  exchange store was among them (R136) -/
  landed : SMap (Nat × Nat × Bool)
  /-- cache-resident stores not yet readable: cycle from which they are, key, value (R137) -/
  cstores : List (Nat × Nat × Word)
  late : Bool
  signals : Nat
  clampNoted : Bool
deriving DecidableEq, Repr

/-- An exchange store in flight (R135, R136). -/
structure XStore where
  due : Nat
  src : Nat
  dst : Nat
  ofs : Nat
  value : Word
deriving DecidableEq, Repr

/-- The 48 rods (05). -/
structure Rods where
  rods : Vector Rod 48
  xst : List XStore
  errCount : BitVec 16
  lastSeg : BitVec 24
  lastRod : BitVec 6
  lastOfs : BitVec 24
  lastKind : BitVec 3
  errNoted : Bool
  reuseNoted : Bool
  eccCorrected : BitVec 16
  waitfNs : BitVec 24
  waitfRod : BitVec 6
  collide : BitVec 16
deriving DecidableEq, Repr

/-- The use of the grant stage by one burst (R149): requester, first grant of the burst (ns), and for a rod the
order number of the operation and the index of the burst; floor marks a class-0 grant under R151. -/
structure Grant where
  who : Nat
  first : Nat
  op : Nat
  burst : Nat
  floor : Bool
  /-- GRANT_HELD_LONG has named it -/
  named : Bool
deriving DecidableEq, Repr

/-- The trunk (05). -/
structure Trk where
  grant : Option Grant
  /-- a preempted burst that has not been granted again, by requester (R153) -/
  preempted : SMap Grant
  /-- bursts in service: requester, order number of the operation, index -/
  service : List (Nat × Nat × Nat)
  /-- grants in this quota window by requester (R150) -/
  counts : SMap Nat
  lastOf : Vector Nat 4
  linkMaskedNow : Bool
  carryMaskedNow : Bool
  heldLong : Bool
  heldWho : BitVec 7
  rodRestarts : BitVec 16
  otherRestarts : BitVec 16
  linkMasked : BitVec 16
  carryMasked : BitVec 16
  heldMax : BitVec 16
  heldMaxWho : BitVec 7
  eccCorrected : BitVec 16
deriving DecidableEq, Repr

end Sys2Proof.Machine
end

