-- ==== Sys2Proof/Machine/StateNet.lean ====
section
/-! DEFINITION. State of device and network time, the field links and the pair. -/
namespace Sys2Proof.Machine
open Sys2Proof

/-! ### Device time and PTP (11) -/

/-- A frame in a launch queue (R374), or its command still reading it from the host. -/
structure Launch where
  sec : Nat
  ns : Nat
  frame : List Byte
  who : Who
deriving DecidableEq, Repr

/-- A PTP message that the unit has to send: one of its own, or the answer to a request that it stamped. -/
inductive PtpJob
  | own (k : PtpSend) | delayResp (requesting : BitVec 80) (seq : BitVec 16) (t4 : Int) | pdelayResp (requesting : BitVec 80) (seq : BitVec 16) (t2 : Int)
deriving DecidableEq, Repr

/-- A foreign master of a port: its last Announce, the instants of that one and of the one before it (R362, log 125). -/
structure Foreign where
  ann : Announce
  at' : Nat
  prev : Option Nat
deriving DecidableEq, Repr

/-- A PTP port (R362, R376): portState, the foreign masters, the best one that is qualified, and t1, t2 of the last Sync. -/
structure PtpPort where
  st : Nat
  foreign : List Foreign
  best : Option Announce
  /-- end of PRE_MASTER (log 125) -/
  preAt : Nat
  /-- mean path or link delay of the port (R365) -/
  delay : Int
  /-- instant of the last Sync accepted, or of the choice of the master -/
  syncAt : Nat
  /-- instant of the last Announce, or of the start of the port -/
  heardAt : Nat
  sync : Option (Int × Int)
  /-- receive stamp and sequence number of a two-step Sync whose Follow_Up has not come -/
  syncIn : Option (Int × BitVec 16)
  /-- transmit stamps and sequence numbers of the unit's last Sync and of its last request -/
  syncOut : Option (Int × BitVec 16)
  reqOut : Option (Int × BitVec 16)
  syncSeq : BitVec 16
  reqSeq : BitVec 16
  /-- until then the line carries a frame that has started (R374) -/
  busyUntil : Nat
  /-- messages that wait until a timed frame has left (R374) -/
  held : List PtpJob
deriving DecidableEq, Repr

/-- A step of device time that is ordered for the next edge (R367): a difference in ns, or an absolute time. -/
inductive StepOrder
  | by (ns : Int) (servo : Bool)
  | to (sec ns : Nat)
deriving DecidableEq, Repr

/-- Device time (11). -/
structure Ntm where
  sec : Nat
  ns : Nat
  quality : BitVec 2
  /-- rate correction in 1/1024 ppb, and the part of a ns it has gathered -/
  rate : Int
  rateAcc : Int
  /-- ns still to be slewed, and the ns since the last slewed one (R367) -/
  slew : Int
  slewAcc : Nat
  /-- NTM_STATUS.SLEWING -/
  slewing : Bool
  step : Option StepOrder
  stepWho : List Who
  p0 : PtpPort
  p1 : PtpPort
  /-- port in the SLAVE state: none, E0 (false) or E1 (true) -/
  slave : Option Bool
  grandmaster : BitVec 64
  parent : BitVec 80
  stepsRemoved : BitVec 16
  /-- consecutive offsets within LOCK_NS (R366) -/
  goodRun : Nat
  offset : Int
  /-- delay of the slave port as last measured -/
  meanDelay : Int
  /-- instant at which HOLDOVER began (R366) -/
  holdAt : Nat
  utc : BitVec 20
  utcSnap : BitVec 20
  nowSecLo : Dword
  nowSecHi : Dword
  nowNs : Dword
  edgeTime : Dword
  edgeErr : Int
  inPhase : Bool
  stepsFwd : BitVec 8
  stepsBack : BitVec 8
  mgmt : BitVec 8
  droppedE0 : BitVec 8
  droppedE1 : BitVec 8
  queueE0 : List Launch
  queueE1 : List Launch
deriving DecidableEq, Repr

/-! ### Field links (09) -/

/-- An entry of a station table (R315). -/
structure Station where
  path : List Byte
  group : Bool
  phase : Nat
  hold : Nat
  outWords : List Nat
  inWords : List Nat
  turnMax : Nat
deriving DecidableEq, Repr

/-- What the part knows of a station of the table: lost, FAILSAFE reported, CLAIM_LOW reported, last STATUS,
valid rounds in a row, failed or late rounds in a row. -/
structure StLive where
  lost : Bool
  failsafe : Bool
  claimLow : Bool
  status : Byte
  goodRun : Nat
  badRun : Nat
  /-- the part's SET_MAP of this entry answered with PSTATUS 0; the part's last SET_MAP refused or unanswered (R311) -/
  mapped : Bool
  mapFailed : Bool
deriving DecidableEq, Repr

/-- Step of the bring-up of a link (R307). -/
inductive LinkPhase
  | off
  /-- step 1 -/
  | lock
  /-- lock gained, waiting for the claim (step 2) -/
  | waitClaim
  /-- runs of ROLL CALL that are left to send -/
  | roll (left : Nat)
  /-- SET_MAP to the stations at the paths that are left -/
  | setMap (left : List (List Byte))
  | cyclic
  | failed
deriving DecidableEq, Repr

/-- Why a PARLEY request is sent. -/
inductive ParleyWhy
  | bringup | remap | rearm | host (who : Who) | hostRearm (who : Who)
deriving DecidableEq, Repr

/-- A PARLEY request, waiting or outstanding (R309, R311). -/
structure Parley where
  why : ParleyWhy
  path : List Byte
  op : Nat
  index : Nat
  len : Nat
  data : List Byte
  tag : Nat
deriving DecidableEq, Repr

/-- What the SUMMON of an edge was laid out by: the table and the duration of a block in force at its launch, and the hop order (R20, R289). -/
structure RoundLay where
  edge : Nat
  table : List Station
  unit : Nat
  hops : List Nat
deriving DecidableEq, Repr

/-- One field link. -/
structure Link where
  table : List Station
  live : List StLive
  phase : LinkPhase
  /-- block lock -/
  lock : Bool
  /-- addresses of the top-level stations in hop order (R289) -/
  order : List Byte
  /-- addresses that the last ROLL CALL that found them found twice (R308) -/
  dups : List Byte
  /-- entries of the last ROLL CALL run of the bring-up that came back -/
  roll : List (List Byte)
  rollWho : List Who
  rollPending : Bool
  rollSent : Bool
  queue : List Parley
  out : Option Parley
  /-- ticks since the outstanding request left -/
  outAge : Nat
  nextTag : Nat
  /-- a SUMMON has left in this tick; its ECHO has been judged -/
  summoned : Bool
  echoed : Bool
  /-- the last two rounds, the newest first -/
  laid : List RoundLay
  rttLast : BitVec 16
  rttRoll : BitVec 16
  frameF : BitVec 16
  echoEnd : BitVec 16
  errFrame : BitVec 8
  errSeg : BitVec 8
  errLate : BitVec 8
  errHcrc : BitVec 8
  lossLost : BitVec 16
  lossUndelivered : BitVec 16
deriving DecidableEq, Repr

/-! ### The pair (10) -/

/-- A CONTROL record on the standby that waits for its apply edge (R339). -/
structure Control where
  apply : Dword
  code : BitVec 16
  data : List Byte
deriving DecidableEq, Repr

/-- A SEAL as received (R336). -/
structure Seal where
  tick : BitVec 64
  records : Nat
  dcrc : Nat
  mode : Nat
  flags : Nat
  bank : Nat
  firstSeq : Nat
  seq : Nat
deriving DecidableEq, Repr

/-- A planned switchover on the active unit (R350): ordered tick e − 2 once sent, confirmed, postponements. -/
structure Switchover where
  who : Who
  orderedAt : Option Nat
  confirmed : Bool
  postponed : Nat
deriving DecidableEq, Repr

/-- A tracked write (R143) with the place that orders it (R335). -/
inductive Tracked
  | output (point : Nat) (value : Nat)
  | row (row : Nat) (value : Nat)
  | cache (seg ofs value : Nat)
  | trunk (seg ofs : Nat) (words : List Word)
deriving DecidableEq, Repr
structure TrackRec where
  cycle : Nat
  rod : Nat
  lslot : Nat
  what : Tracked
deriving DecidableEq, Repr

/-- The claim and the pair (10). -/
structure Cry where
  /-- the claim held -/
  claim : Option Nat
  /-- claim last raised or seen, as stored in slate (R355) -/
  stored : BitVec 24
  seenPartner : Nat
  seenField : Nat
  /-- the bank that was in force before the last swap edge at a standby: deltas of ticks before that edge go to it (R267) -/
  swapOld : Option BankId
  /-- readiness just before the carry link went down that left both down (R345, R349, log 132) -/
  readyBefore : BitVec 2
  exhausted : Bool
  lanes : BitVec 8
  /-- the partner has not been lost; its last HEARTBEAT -/
  partner : Bool
  pRole : BitVec 8
  pMode : BitVec 8
  pReady : BitVec 8
  pApplied : Dword
  /-- TICK of the last HEARTBEAT, and the carry latency in ns (R332) -/
  pTick : Dword
  latency : Nat
  /-- bits of the tick number that the partner's last frame carried, for the standby's edges -/
  adoptTick : Option (BitVec 64)
  /-- sender: next SEQ, frames kept for NAK, newest first -/
  nextSeq : Nat
  kept : List (Nat × List Byte)
  /-- tracked writes of the running tick, newest first, and the records sent of it (as numbers below 2^64, newest first) -/
  tracked : List TrackRec
  records : List Nat
  firstSeq : Option Nat
  sealTick : Option (BitVec 64)
  overflow : Bool
  /-- the transmit queue has been full in this tick; octets that wait in it, and the instant of that count (R337, R340 case 1) -/
  queueFull : Bool
  txLevel : Nat
  txAt : Nat
  swapSeal : Bool
  applied : Dword
  deltaLast : BitVec 24
  deltaMax : BitVec 24
  crcC0 : BitVec 8
  crcC1 : BitVec 8
  retrans : BitVec 8
  down : BitVec 8
  /-- receiver: frames held by SEQ, next SEQ expected, seals that wait, controls that wait -/
  rxFrames : SMap (List Byte)
  rxNext : Option Nat
  rxSeals : List Seal
  controls : List Control
  ctlParts : List Byte
  /-- lines of a swap that the standby still builds after its edge (R267) -/
  catchUp : List Nat
  /-- octets of each resync area received so far, octets of all areas, and the area being received (R341) -/
  rxAreas : SMap (List Byte)
  rxTotal : Nat
  rxArea : Option Nat
  /-- last applied SEAL's mode and flags -/
  sealMode : Nat
  swOrder : Option (BitVec 64)
  causes : BitVec 16
  readiness : BitVec 2
  /-- self-test: item that runs, ns of the last pass of each item, rotations, corrections since the last record -/
  item : Nat
  passed : SMap Nat
  rotations : Nat
  corrections : BitVec 16
  /-- frames discarded on C0 and C1 and frames resent since the last health record (R344) -/
  sinceC0 : Nat
  sinceC1 : Nat
  sinceRe : Nat
  health : List Byte
  healthTick : BitVec 64
  syncing : Bool
  syncProgress : BitVec 7
  syncVolume : BitVec 24
  /-- BULK areas left to place: area and next octet; octets placed -/
  bulk : List (Nat × Nat)
  bulkDone : Nat
  switchover : Option Switchover
  /-- takeover or switchover to enter at the next edge -/
  takeover : Option Bool
  takeoverTick : Dword
  /-- half the PROBE round trip is the sender's; common-cause STOP from the partner -/
  partnerStop : Option Code
deriving DecidableEq, Repr

end Sys2Proof.Machine
end

