-- ==== Sys2Proof/Machine/StateIo.lean ====
section
/-! DEFINITION. State of the bedrock domain, the CAN FD controllers, the local channels, metering, the watchdog and firmware update. -/
namespace Sys2Proof.Machine
open Sys2Proof

/-! ### Bedrock domain (12) -/

/-- A set or shift of the RTC count (R391). -/
inductive BrkOp
  | set (sec sub : Nat)
  | shift (counts : Int)
deriving DecidableEq, Repr

/-- An EV stamp held in DORMANT (R399). -/
structure EvStamp where
  pin : Nat
  rising : Bool
  sec : Nat
  sub : Nat
deriving DecidableEq, Repr

/-- The bedrock domain (12). -/
structure Brk where
  /-- held in reset since VBRK fell (R382) -/
  inReset : Bool
  sec : Nat
  sub : Nat
  /-- part of an oscillator period that has passed, in 1/32,768 ns, below 10^9 -/
  phase : Nat
  /-- trim accumulator (R386) -/
  acc : Int
  trim : Int
  trimSrc : BitVec 2
  /-- trim computed by the supervisor, for the next count (R393) -/
  trimNext : Option (Int × BitVec 2)
  timeLost : Bool
  resetSeen : Bool
  backupLow : Bool
  backupMv : BitVec 12
  calOfs : BitVec 16
  /-- countdown: running, and counts left (R397) -/
  cdRun : Bool
  cd : Nat
  /-- BRK_COUNTDOWN_SET written and not yet loaded -/
  cdWritten : Bool
  wakeSeen : Bool
  cdSeen : Bool
  pwron : Bool
  evOvf : BitVec 4
  /-- pins whose running overflow has been recorded: one lasts until the supervisor has taken the pin's stamps (R399, log 118) -/
  ovfNoted : BitVec 4
  /-- the count up to which wake instants are done with: the last one that fired, the value of a set, the count at which the period
  applied (R396) -/
  wakeDone : Nat
  /-- events of DORMANT that BOOT step 5 still has to record: code, parameters (R398) -/
  held : List (Nat × List Nat)
  stamps : List EvStamp
  /-- set or shift handed over at its apply edge, and whether no reset has come since: SET_PENDING and SHIFT_PENDING show it (R7) -/
  handed : Option BrkOp
  handedShown : Bool
  /-- BRK_PWRON commands that wait for the edge (R403) -/
  pwronOps : List (Bool × Who)
  /-- trim window: reference at its start (device time in ns, mains cycles) and whether the reference held (R393) -/
  winTime : Int
  winCycles : Nat
  /-- trimmed counts since the window began -/
  winCounts : Nat
  winOk : Bool
  /-- a comparison that the first edge after NTM_SET_TIME makes (R395) -/
  followDue : Bool
  /-- watchdog evidence block, 256 bytes (R401) -/
  evidence : List Byte
  /-- VERSION of the controller code that runs (R532) -/
  codeVersion : BitVec 32
deriving DecidableEq, Repr

/-! ### CAN FD (13) -/

/-- A frame queued or in transmission; object 128 is the reference message (R413, R420). -/
structure CanTxF where
  obj : Nat
  id : BitVec 29
  ide : Bool
  fdf : Bool
  brs : Bool
  oneShot : Bool
  data : List Byte
deriving DecidableEq, Repr

/-- An entry of an HP buffer (R418). -/
structure CanHp where
  sec : Nat
  nsq : Dword
  frame : CanFrame
deriving DecidableEq, Repr

/-- What a controller keeps of a message object. -/
structure CanObj where
  /-- receiving copy for the next cut (R411) -/
  recv : Option (List Byte)
  /-- tick of the last frame taken, or of the edge at which the object came into force (R412) -/
  seen : Nat
  failed : Bool
  /-- data of the last frame queued (R413) -/
  last : Option (List Byte)
  /-- consecutive collisions (R416) -/
  hits : Nat
  hp : List CanHp
deriving DecidableEq, Repr

/-- Bit-rate detection: place in the list of nominal rates, or the nominal rate found and the place in the list of
data rates (R419). -/
structure CanDet where
  who : Who
  dwell : Nat
  nominal : Option Nat
  index : Nat
deriving DecidableEq, Repr

/-- A controller (13). -/
structure CanCtl where
  txErr : Nat
  rxErr : Nat
  passive : Bool
  busOff : Bool
  recovering : Bool
  /-- frames not started, in the order of arbitration; frame in transmission (R414) -/
  queue : List CanTxF
  cur : Option CanTxF
  objs : SMap CanObj
  det : Option CanDet
  ttSync : Bool
  /-- 0x0B50 has been recorded and no reference message has come since -/
  ttLost : Bool
  cycle : Nat
  lastRef : Nat
  errBit : BitVec 8
  errSfc : BitVec 8
  errAck : BitVec 8
  errCollide : BitVec 8
  unmatched : BitVec 8
  dlc : BitVec 8
  replaced : BitVec 8
  overwrite : BitVec 8
deriving DecidableEq, Repr

/-! ### Local channels (14) -/

/-- The local channels (14). -/
structure Lch where
  groupFail : BitVec 4
  /-- L+ of each group as last reported, and when (R424) -/
  mv : Vector (BitVec 16) 4
  mvAt : Vector Nat 4
  /-- filtered levels, and levels accepted ON since the last edge (R427) -/
  level : BitVec 32
  caught : BitVec 32
  breaks : BitVec 32
  /-- overload latches, and clears that wait for the edge (R435) -/
  overload : BitVec 32
  clearBits : BitVec 32
  clearWho : List Who
  /-- time of the last overload of each output, by its leader (R435) -/
  overAt : Vector Nat 32
  /-- outputs switched on -/
  outs : BitVec 32
  count : Vector (BitVec 24) 8
  shortCnt : BitVec 16
  shortCh : BitVec 3
  /-- time of the last 0x0C34 -/
  shortAt : Option Nat
deriving DecidableEq, Repr

/-! ### Metering (15) -/

/-- A voltage event that lasts: time of its first boundary, phases, extreme half-cycle value in mV (R454). -/
structure VEvent where
  began : Nat
  mask : Nat
  depth : Nat
deriving DecidableEq, Repr

/-- A latched set (R458): five accumulators, five wrap counts, sequence number. -/
structure Latched where
  acc : List Nat
  wraps : List Nat
  seq : Nat
deriving DecidableEq, Repr

/-- Samples of half a line cycle: their number, and the sum of the squares of each voltage (R450). -/
structure HalfSum where
  n : Nat
  sq : List Nat
deriving DecidableEq, Repr

/-- A feeder (15). -/
structure Feeder where
  /-- corrected samples of the line cycle in progress, newest first: time and six channels; the instant it began (R442, R449) -/
  wave : List (Nat × List Int)
  cycStart : Nat
  /-- voltages of the half cycle in progress, and of the one before it (R450) -/
  half : HalfSum
  halfPrev : Option HalfSum
  /-- accumulators in units of 2^-16 LSB, below 2^64 (R456) -/
  acc : Vector Nat 5
  wraps : Vector Nat 5
  /-- pulse register: count when WH last changed, and import energy since (R463) -/
  pulseBase : Nat
  pulseAcc : Nat
  seq : Nat
  /-- line cycles since the last latch -/
  cyc : Nat
  lost : Bool
  /-- consecutive cycles near nominal while the reference is lost -/
  good : Nat
  mhz : Nat
  freqValid : Bool
  /-- mains cycle count (R448) -/
  cycles : Nat
  /-- results not ready yet, and results for the next cut, by item × 4 + phase (R451) -/
  pend : SMap Word
  recv : SMap Word
  latchPend : Option Latched
  latchRecv : Option Latched
  /-- last set that entered a cut, and that cut -/
  latchCut : Option (Latched × BitVec 64)
  sag : Option VEvent
  swell : Option VEvent
  intr : Option VEvent
  /-- kinds of events whose trigger waits for the result (R454) -/
  trig : List Nat
  lastMs : BitVec 16
  clip : Bool
  restored : BitVec 2
deriving DecidableEq, Repr

/-- Metering (15). -/
structure Mtr where
  feeders : Vector Feeder 4
  chFail : BitVec 24
  clip : BitVec 24
  /-- gain codes of the 12 current channels -/
  gain : Vector Nat 12
  /-- consecutive line cycles below 20 % of the next higher gain, and channels that left that range in this cycle (R444) -/
  low : Vector Nat 12
  high : BitVec 12
  /-- the capture of R460 has been taken since PFW asserted -/
  captured : Bool
  /-- MTR_ELSB of each feeder, computed from the ratios in force in BOOT and at every change of block 0x0D (R464) -/
  elsb : Vector Dword 4
deriving DecidableEq, Repr

/-! ### Watchdog (18) -/

/-- A TALLY: its tick, rod cycle, rod and bit (R227). -/
structure CheckIn where
  tick : Nat
  cycle : Nat
  rod : Nat
  bit : Nat
deriving DecidableEq, Repr
/-- The watchdog (18). -/
structure Wdt where
  /-- time at which the count was 0, in ns -/
  since : Nat
  locked : Bool
  /-- the change that is pending set LOCKED (R508) -/
  first : Bool
  reg : BitVec 32
  set : BitVec 32
  double : BitVec 16
  unreg : BitVec 16
  refused : BitVec 16
  serviced : Bool
  svcTick : BitVec 64
  svcSec : Nat
  svcNsq : Dword
  /-- the check-in that has set each bit (R227) -/
  seen : SMap CheckIn
  /-- the tick's first double check-in, until compute ends (R512) -/
  twice : Option CheckIn
  /-- WDT_EVIDENCE_CLEAR that waits for its edge -/
  clear : List Who
deriving DecidableEq, Repr

/-! ### Firmware update (19) -/

/-- Stored settings of a firmware slot (19 "Settings and fallback"): format, registers by block, station tables. -/
structure Settings where
  format : Nat
  regs : SMap RegFile
  tables : SMap (List Station)
deriving DecidableEq, Repr

/-- A firmware slot; `fails`: the last BOOT found that it does not verify (R531, R537). -/
structure FwSlot where
  valid : Bool
  fails : Bool
  package : List Byte
  settings : Option Settings
deriving DecidableEq, Repr

/-- Staging in progress (R527, R536): the command, the slot being written and the package. -/
structure Staging where
  who : Option Who
  slot : Nat
  package : List Byte
deriving DecidableEq, Repr

/-- Firmware update (19). -/
structure Fwu where
  card : Option Card
  slot0 : FwSlot
  slot1 : FwSlot
  /-- running slot; none while no firmware runs -/
  running : Option Nat
  trial : Bool
  staging : Option Staging
  /-- last fallback reason that R533 recorded -/
  lastFallback : BitVec 16
  /-- the unit stays in BOOT without a verifiable slot (R34) -/
  noSlot : Bool
deriving DecidableEq, Repr

end Sys2Proof.Machine
end

