-- ==== Sys2Proof/Machine/State.lean ====
section
/-! DEFINITION. The state of the block: every piece of state the spec names, as plain data, and the state after a power-on reset. -/
namespace Sys2Proof.Machine
open Sys2Proof

/-- Why the model stops with a fault: never. A fault of the part is its mode STOP, a next state (R27). Nobody raises one; safe. -/
inductive Fault
deriving DecidableEq, Repr

/-- Why the model refuses a command. -/
inductive Refusal
  /-- A row of the table that has no meaning yet, by its mnemonic; raised by exec only. Safe: the run stops. -/
  | notModelled (mnemonic : String)
deriving DecidableEq, Repr

/-- What a change of configuration that is checked as one carries beside the register copy (R71, R78, R316). -/
inductive CfgWork
  /-- COMMIT, or a change of ENABLE (R71, R75) -/
  | commit
  /-- SET_CONFIG with the registers whose RW bits it writes: offset, mask, value (R78) -/
  | setConfig (who : Who) (rw : List (Nat × Dword × Dword))
  /-- LNK_TABLE_SET (R316) -/
  | linkTable (who : Who) (link : Nat) (table : List Station)
  /-- BRK_SET_TIME, BRK_SHIFT (R390) -/
  | brkOp (who : Who) (op : BrkOp)
  /-- MTR_ENERGY_PRESET: feeder, accumulator or 0xFF, value, wrap count (R462) -/
  | preset (who : Who) (f acc value wraps : Nat)
deriving DecidableEq, Repr

/-- A consistency check that runs (R71): the check copy, and what was asked of the stage copy meanwhile (R66, R74). -/
structure Check where
  copy : RegFile
  work : CfgWork
  discard : Bool
deriving DecidableEq, Repr

/-- A pending change (R71, R72). -/
structure PendCfg where
  copy : RegFile
  work : CfgWork
  passedAt : Nat
deriving DecidableEq, Repr

/-- Configuration of one block (R69 to R77): registers at window offset, listed where they differ from reset. -/
structure BlkCfg where
  inForce : RegFile
  stage : RegFile
  /-- LIVE fields as last written (R77) -/
  written : RegFile
  check : Option Check
  pend : Option PendCfg
  reason : Code
  lastApply : BitVec 16
deriving DecidableEq, Repr

/-- The state of the block. -/
structure State where
  /-- commands that wait, first in first out -/
  pending : List Instr
  /-- what has left the part, newest first -/
  tx : List Tx
  /-- the model's own index of the next free value (log 2) -/
  free : Nat
  /-- ns since State.reset (log 1) -/
  now : Nat
  tck : Tck
  pwr : Pwr
  host : HostSt
  cfg : Vector BlkCfg 20
  slt : Slt
  recd : RecSt
  img : Img
  ldr : Ldr
  tasks : TaskSt
  chg : Chg
  rods : Rods
  trk : Trk
  ntm : Ntm
  lnk : Vector Link 24
  cry : Cry
  brk : Brk
  can : Vector CanCtl 2
  lch : Lch
  mtr : Mtr
  wdt : Wdt
  fwu : Fwu
deriving DecidableEq, Repr

/-! ### The state right after a power-on reset (R36, cause 1) -/

def Tck.reset : Tck where
  mode := .boot
  bootEnd := none
  bootStuck := false
  bootCut := false
  joining := false
  cause := 1#4
  prevMode := 0#3
  tick := 0#64
  begun := none
  elapsed := 0
  ofs := 0
  len := 250000
  fault := 0#16
  faultPs := []
  acked := none
  pend := none
  trans := none
  stepReq := none
  stepped := false
  computing := false
  phase := .edge
  deadlineMet := none
  endOfs := none
  sealOfs := none
  lastEnd := 0#16
  lastSeal := 0#16
  tickHi := 0#32
  swapTick := false
  throttle := 0#2
  throttleMax := 0#2
  l1Ticks := 0#16
  l2Ticks := 0#16

def Pwr.reset : Pwr where
  pfw := false
  pfwSeen := false
  l1Seen := false
  l2Seen := false
  vcoreMin := 0xFFF#12
  pfwAt := none
  temp := 0#8
  tempMax := 0x80#8
  hotHeld := false
  railHeld := none
  coolSince := none

def Slot.reset : Slot := { request := [], busy := none, response := none }

def BrkSnap.reset : BrkSnap := { sub := 0#32, secLo := 0#32, secHi := 0#32, date := 0#32, clock := 0#32 }

def PortState.reset : PortState where
  irqStatus := 0#8
  irqEnable := 0#8
  edgeDiv := 0#8
  edgeCnt := 0
  semTag := 0#16
  badAccess := 0#8
  deniedWrite := 0#8
  badDoorbell := 0#8
  done := 0#32
  slots := Vector.replicate 32 Slot.reset
  expert := 0#20
  view := 0#20
  rdata := 0#32
  cursor := 0
  winState := .empty
  winData := []
  winFresh := false
  snap := BrkSnap.reset
  d3hot := false
  perst := false

def HostSt.reset : HostSt where
  a := PortState.reset
  b := PortState.reset
  sems := Vector.replicate 64 none
  lastTie := none
  queue := []
  nextId := 1
  xfers := []

def BlkCfg.reset : BlkCfg where
  inForce := []
  stage := []
  written := []
  check := none
  pend := none
  reason := 0#16
  lastApply := 0#16

def Slt.reset : Slt where
  mem := []
  ecc := []
  queue := []
  run := none
  claimRun := none
  waits := []
  sel := []
  heads := []
  saturated := []
  corrected := 0#16
  uncorrectable := 0#16
  scanRecords := 0
  scanInvalid := 0
  scanConflicts := 0
  writes := 0#32
  lastPage := 0#15

def RecSt.reset : RecSt where
  ring := []
  head := 0
  oldest := 0
  unreadable := []
  batch := none
  seq := 0
  started := false
  bootBuf := []
  bootDropped := 0
  tickDropped := 0
  entered := []
  suppressed := []
  statSuppressed := 0#16
  statDropped := 0#16
  tailQueue := []
  tailSkipped := 0
  tailNext := 0#16
  tailPass := false
  tailCopies := 0
  tailUrgent := false
  archive := []
  archNext := 0
  flushes := []

def Img.reset : Img where
  ins := []
  outs := []
  forces := []
  forceOps := []
  stores := []
  ranOnce := false
  errCount := 0#16
  lastRef := 0#24
  lastRod := 0#6
  lastKind := 0#2
  errNoted := false
  cutTick := 0#32
  cutSubst := 0#24
  view := none
  nextView := none

def BankSt.reset : BankSt where
  phase := .empty
  length := 0
  chunks := []
  image := []
  prog := none
  period := 0
  share := 0
  bound := (0, 0)
  data := []
  stored := none

def Ldr.reset : Ldr where
  a := BankSt.reset
  b := BankSt.reset
  inForce := none
  verify := []
  saves := []
  activate := none
  failRod := 0#6
  failAddr := 0#15
  failIndex := 0#4

def TaskSt.reset : TaskSt := { latched := [], released := [] }

def Chg.reset : Chg where
  stage := .idle
  target := .a
  who := none
  toBuild := []
  dirty := []
  constUnits := 0
  dirtyUnits := 0
  postponed := 0
  swapAt := none
  swapTick := 0#32

def Rod.reset : Rod where
  g := Vector.replicate 64 0#24
  p := 0#32
  lc := Vector.replicate 2 0#24
  seg := Vector.replicate 8 0#24
  run := .done
  cycle := 0
  pos := 0
  task := 0
  pc := 0
  delay := 0
  target := none
  rept := 0
  noC := 0
  skipBad := false
  flight := []
  divAt := none
  stack := []
  fq := Vector.replicate 16 none
  fqOrder := 0
  loc := []
  landed := []
  cstores := []
  late := false
  signals := 0
  clampNoted := false

def Rods.reset : Rods where
  rods := Vector.replicate 48 Rod.reset
  xst := []
  errCount := 0#16
  lastSeg := 0#24
  lastRod := 0#6
  lastOfs := 0#24
  lastKind := 0#3
  errNoted := false
  reuseNoted := false
  eccCorrected := 0#16
  waitfNs := 0#24
  waitfRod := 0#6
  collide := 0#16

def Trk.reset : Trk where
  grant := none
  preempted := []
  service := []
  counts := []
  lastOf := Vector.replicate 4 0
  linkMaskedNow := false
  carryMaskedNow := false
  heldLong := false
  heldWho := 0#7
  rodRestarts := 0#16
  otherRestarts := 0#16
  linkMasked := 0#16
  carryMasked := 0#16
  heldMax := 0#16
  heldMaxWho := 0#7
  eccCorrected := 0#16

def PtpPort.reset : PtpPort where
  st := 0
  foreign := []
  best := none
  preAt := 0
  delay := 0
  syncAt := 0
  heardAt := 0
  sync := none
  syncIn := none
  syncOut := none
  reqOut := none
  syncSeq := 0#16
  reqSeq := 0#16
  busyUntil := 0
  held := []

def Ntm.reset : Ntm where
  sec := 0
  ns := 0
  quality := 3#2
  rate := 0
  rateAcc := 0
  slew := 0
  slewAcc := 0
  slewing := false
  step := none
  stepWho := []
  p0 := PtpPort.reset
  p1 := PtpPort.reset
  slave := none
  grandmaster := 0#64
  parent := 0#80
  stepsRemoved := 0#16
  goodRun := 0
  offset := 0
  meanDelay := 0
  holdAt := 0
  utc := 0#20
  utcSnap := 0#20
  nowSecLo := 0#32
  nowSecHi := 0#32
  nowNs := 0xC0000000#32
  edgeTime := 0xC0000000#32
  edgeErr := 0
  inPhase := false
  stepsFwd := 0#8
  stepsBack := 0#8
  mgmt := 0#8
  droppedE0 := 0#8
  droppedE1 := 0#8
  queueE0 := []
  queueE1 := []

def Link.reset : Link where
  table := []
  live := []
  phase := .off
  lock := false
  order := []
  dups := []
  roll := []
  rollWho := []
  rollPending := false
  rollSent := false
  queue := []
  out := none
  outAge := 0
  nextTag := 0
  summoned := false
  echoed := false
  laid := []
  rttLast := 0#16
  rttRoll := 0#16
  frameF := 0#16
  echoEnd := 0#16
  errFrame := 0#8
  errSeg := 0#8
  errLate := 0#8
  errHcrc := 0#8
  lossLost := 0#16
  lossUndelivered := 0#16

def Cry.reset : Cry where
  claim := none
  stored := 0#24
  seenPartner := 0
  seenField := 0
  swapOld := none
  readyBefore := 3#2
  exhausted := false
  lanes := 0#8
  partner := false
  pRole := 3#8
  pMode := 0#8
  pReady := 3#8
  pApplied := 0#32
  pTick := 0#32
  latency := 0
  adoptTick := none
  nextSeq := 0
  kept := []
  tracked := []
  records := []
  firstSeq := none
  sealTick := none
  overflow := false
  queueFull := false
  txLevel := 0
  txAt := 0
  swapSeal := false
  applied := 0#32
  deltaLast := 0#24
  deltaMax := 0#24
  crcC0 := 0#8
  crcC1 := 0#8
  retrans := 0#8
  down := 0#8
  rxFrames := []
  rxNext := none
  rxSeals := []
  controls := []
  ctlParts := []
  catchUp := []
  rxAreas := []
  rxTotal := 0
  rxArea := none
  sealMode := 0
  swOrder := none
  causes := 0#16
  readiness := 3#2
  item := 0
  passed := []
  rotations := 0
  corrections := 0#16
  sinceC0 := 0
  sinceC1 := 0
  sinceRe := 0
  health := []
  healthTick := 0#64
  syncing := false
  syncProgress := 0#7
  syncVolume := 0#24
  bulk := []
  bulkDone := 0
  switchover := none
  takeover := none
  takeoverTick := 0#32
  partnerStop := none

def Brk.reset : Brk where
  inReset := false
  sec := 946684800
  sub := 0
  phase := 0
  acc := 0
  trim := 0
  trimSrc := 0#2
  trimNext := none
  timeLost := true
  resetSeen := true
  backupLow := false
  backupMv := 0#12
  calOfs := 0#16
  cdRun := false
  cd := 0
  cdWritten := false
  wakeSeen := false
  cdSeen := false
  pwron := false
  evOvf := 0#4
  ovfNoted := 0#4
  wakeDone := 946684800 * 32768
  held := []
  stamps := []
  handed := none
  handedShown := false
  pwronOps := []
  winTime := 0
  winCycles := 0
  winCounts := 0
  winOk := false
  followDue := false
  evidence := List.replicate 256 0#8
  codeVersion := Config.bedrockVersion

def CanObj.reset : CanObj := { recv := none, seen := 0, failed := false, last := none, hits := 0, hp := [] }

def CanCtl.reset : CanCtl where
  txErr := 0
  rxErr := 0
  passive := false
  busOff := false
  recovering := false
  queue := []
  cur := none
  objs := []
  det := none
  ttSync := false
  ttLost := false
  cycle := 0
  lastRef := 0
  errBit := 0#8
  errSfc := 0#8
  errAck := 0#8
  errCollide := 0#8
  unmatched := 0#8
  dlc := 0#8
  replaced := 0#8
  overwrite := 0#8

def Lch.reset : Lch where
  groupFail := 0#4
  mv := Vector.replicate 4 0#16
  level := 0#32
  caught := 0#32
  breaks := 0#32
  overload := 0#32
  clearBits := 0#32
  clearWho := []
  overAt := Vector.replicate 32 0
  mvAt := Vector.replicate 4 0
  outs := 0#32
  count := Vector.replicate 8 0#24
  shortCnt := 0#16
  shortCh := 0#3
  shortAt := none

def HalfSum.reset : HalfSum := { n := 0, sq := [0, 0, 0] }
def Feeder.reset : Feeder where
  wave := []
  cycStart := 0
  half := HalfSum.reset
  halfPrev := none
  acc := Vector.replicate 5 0
  wraps := Vector.replicate 5 0
  pulseBase := 0
  pulseAcc := 0
  seq := 0
  cyc := 0
  lost := false
  good := 0
  mhz := 0
  freqValid := false
  cycles := 0
  pend := []
  recv := []
  latchPend := none
  latchRecv := none
  latchCut := none
  sag := none
  swell := none
  intr := none
  trig := []
  lastMs := 0#16
  clip := false
  restored := 0#2

def Mtr.reset : Mtr where
  feeders := Vector.replicate 4 Feeder.reset
  chFail := 0#24
  clip := 0#24
  gain := Vector.replicate 12 0
  low := Vector.replicate 12 0
  high := 0#12
  captured := false
  elsb := Vector.replicate 4 0#32

def Wdt.reset : Wdt where
  since := 0
  locked := false
  first := false
  reg := 0#32
  set := 0#32
  double := 0#16
  unreg := 0#16
  refused := 0#16
  serviced := false
  svcTick := 0#64
  svcSec := 0
  svcNsq := 0#32
  seen := []
  twice := none
  clear := []

/-- Firmware as shipped: slot 0 holds the factory package, slot 1 nothing (log 6). -/
def Fwu.reset : Fwu where
  card := none
  slot0 := { valid := true, fails := false, package := Config.factoryPackage, settings := none }
  slot1 := { valid := false, fails := false, package := [], settings := none }
  running := none
  trial := false
  staging := none
  lastFallback := 0#16
  noSlot := false

/-- The block right after a power-on reset: mode BOOT, cause 1, every register at its reset value, the queue empty. -/
def State.reset : State where
  pending := []
  tx := []
  free := 0
  now := 0
  tck := Tck.reset
  pwr := Pwr.reset
  host := HostSt.reset
  cfg := Vector.replicate 20 BlkCfg.reset
  slt := Slt.reset
  recd := RecSt.reset
  img := Img.reset
  ldr := Ldr.reset
  tasks := TaskSt.reset
  chg := Chg.reset
  rods := Rods.reset
  trk := Trk.reset
  ntm := Ntm.reset
  lnk := Vector.replicate 24 Link.reset
  cry := Cry.reset
  brk := Brk.reset
  can := Vector.replicate 2 CanCtl.reset
  lch := Lch.reset
  mtr := Mtr.reset
  wdt := Wdt.reset
  fwu := Fwu.reset

end Sys2Proof.Machine
end

