-- ==== Sys2Proof/Machine/Ops.lean ====
section
/-! DEFINITION. The operations that every family shares: ports and responses, configuration values, records, faults, triggers, slate requests, carry frames and free values. -/
namespace Sys2Proof.Machine
open Sys2Proof

/-! ### Access to parts of the state -/

/-- Per-port state. -/
def portSt (s : State) (p : Port) : PortState :=
  match p with
  | .a => s.host.a
  | .b => s.host.b
def setPort (s : State) (p : Port) (f : PortState → PortState) : State :=
  match p with
  | .a => { s with host.a := f s.host.a }
  | .b => { s with host.b := f s.host.b }
def portNo (p : Port) : Nat := match p with | .a => 0 | .b => 1
def otherPort (p : Port) : Port := match p with | .a => .b | .b => .a
/-- What leaves the part. -/
def emit (s : State) (x : Tx) : State := { s with tx := x :: s.tx }
/-- Configuration of a block. -/
def blkCfg (s : State) (b : Nat) : BlkCfg := s.cfg.toArray.getD b BlkCfg.reset
def setBlk (s : State) (b : Nat) (f : BlkCfg → BlkCfg) : State := { s with cfg := s.cfg.setIfInBounds b (f (blkCfg s b)) }
/-- A register of a copy: as listed, else its reset value. -/
def fileReg (f : RegFile) (b ofs : Nat) : Dword := (smGet f ofs).getD (regReset b ofs)
/-- A register of a copy written, not listed when at its reset value. -/
def fileSet (f : RegFile) (b ofs : Nat) (v : Dword) : RegFile := smSet f (regReset b ofs) ofs v
/-- Bits of a register of a copy, as a number. -/
def fileField (f : RegFile) (b ofs lo n : Nat) : Nat := field (fileReg f b ofs).toNat lo n
/-- Bits of the in-force value of a register (R70, R77). -/
def cfgField (s : State) (b ofs lo n : Nat) : Nat := fileField (blkCfg s b).inForce b ofs lo n
def cfgBit (s : State) (b ofs i : Nat) : Bool := cfgField s b ofs i 1 == 1
/-- A rod, and a rod written. -/
def rodAt (s : State) (n : Nat) : Rod := s.rods.rods.toArray.getD n Rod.reset
def setRod (s : State) (n : Nat) (r : Rod) : State := { s with rods.rods := s.rods.rods.setIfInBounds n r }
/-- A field link. -/
def linkAt (s : State) (k : Nat) : Link := s.lnk.toArray.getD k Link.reset
def setLink (s : State) (k : Nat) (f : Link → Link) : State := { s with lnk := s.lnk.setIfInBounds k (f (linkAt s k)) }
/-- A bank. -/
def bankSt (s : State) (b : BankId) : BankSt := match b with | .a => s.ldr.a | .b => s.ldr.b
def setBank (s : State) (b : BankId) (f : BankSt → BankSt) : State :=
  match b with
  | .a => { s with ldr.a := f s.ldr.a }
  | .b => { s with ldr.b := f s.ldr.b }
def bankNo (b : BankId) : Nat := match b with | .a => 0 | .b => 1
def bankOfNo (n : Nat) : BankId := if n = 0 then .a else .b
/-- The bank in force, parsed. -/
def bankInForce (s : State) : Option Bank :=
  match s.ldr.inForce with
  | some b => (bankSt s b).prog
  | none => none
/-- The point table in force; empty without a bank in force (R87). -/
def pointTable (s : State) : SMap Point :=
  match bankInForce s with
  | some b => b.points
  | none => []

/-! ### Modes and period -/

/-- Encoding of TCK_STATUS.MODE; 0 in DORMANT, which no read ever sees (R24). -/
def modeNo (m : Mode) : Nat :=
  match m with
  | .dormant => 0 | .boot => 1 | .stop => 2 | .run => 3 | .hold => 4 | .shadow => 5
/-- TCK_CONFIG.PERIOD in force (R15). -/
def tickPeriod (s : State) : Nat := cfgField s 0x02 0x100 0 9
/-- Tick period in ns (R15). -/
def periodNs (s : State) : Nat := 62500 * tickPeriod s
/-- Whether supervisor, links and outputs run: not DORMANT and not BOOT. -/
def ticking (s : State) : Bool := s.tck.mode != .dormant && s.tck.mode != .boot
/-- The unit is half of a pair (CRY_CONFIG.PAIR). -/
def isPair (s : State) : Bool := cfgBit s 0x08 0x100 0
def domainOf (s : State) : Nat := cfgField s 0x08 0x100 16 16
def positionOf (s : State) : Nat := cfgField s 0x08 0x100 1 1
def holdsClaim (s : State) : Bool := s.cry.claim.isSome
/-- The partner has not been lost and is in SHADOW. -/
def partnerShadow (s : State) : Bool := s.cry.partner && s.cry.pMode.toNat == 5
/-- CRY_STATUS.ROLE (R355). -/
def roleNo (s : State) : Nat :=
  match s.tck.mode with
  | .boot => 0
  | .shadow => 2
  | _ => if holdsClaim s then (if partnerShadow s then 1 else 0) else 3
/-- READINESS of a standby as HEARTBEAT gives it: READY and DEGRADED may take over (R345, R347). -/
def partnerAble (s : State) : Bool := s.cry.partner && (s.cry.pReady == 0#8 || s.cry.pReady == 2#8)

/-! ### Free values -/
def freeBool (s : State) : Bool × State := (Config.freeBool s.free, { s with free := s.free + 1 })
def freeNat (s : State) : Nat × State := (Config.freeNat s.free, { s with free := s.free + 1 })
def freeInt (s : State) : Int × State := (Config.freeInt s.free, { s with free := s.free + 1 })

/-! ### Interrupts (R54) -/

/-- Set a bit of SUP_IRQ_STATUS; the message leaves when the bit goes from 0 to 1 while enabled. A port that PERST holds in reset keeps 0. -/
def raiseVector (s : State) (p : Port) (v : Fin 8) : State :=
  let q := portSt s p
  if q.irqStatus.getLsbD v.val || q.perst then s
  else
    let s1 := setPort s p (fun q => { q with irqStatus := q.irqStatus ||| (1#8 <<< v.val) })
    if q.irqEnable.getLsbD v.val then emit s1 (.msix p v) else s1
def raiseBoth (s : State) (v : Fin 8) : State := raiseVector (raiseVector s .a v) .b v
/-- Vector 3 of each port whose cursor differs from REC_HEAD (R54, R499). -/
def raiseCursor (s : State) (p : Port) : State := if (portSt s p).cursor ≠ s.recd.head then raiseVector s p 3 else s

/-! ### Records (R490 to R497) -/

/-- A time stamp of one word: ns in [29:0], quality in [31:30] (R359). -/
def packNs (ns : Nat) (q : BitVec 2) : Dword := BitVec.ofNat 32 (ns % 2 ^ 30 + 2 ^ 30 * q.toNat)
def stampNow (s : State) : Dword := packNs s.ntm.ns s.ntm.quality

/-- Field-origin codes (R495). -/
def isFieldOrigin (c : Nat) : Bool :=
  (0x0730 ≤ c && c ≤ 0x0741) || c == 0x0A30 || c == 0x0A31 || (0x0B20 ≤ c && c ≤ 0x0B51) ||
  (0x0C20 ≤ c && c ≤ 0x0C34) || (0x0D10 ≤ c && c ≤ 0x0D44)
/-- Codes that never fold (R497). -/
def neverFolds (c : Nat) : Bool := c == 0x0460 || c == 0x0920 || c == 0x0921 || (0x0F01 ≤ c && c ≤ 0x0F15)

/-- Four 24-bit parameters. -/
def params4 (ps : List Nat) : List Word := (List.range 4).map (fun i => BitVec.ofNat 24 (ps.getD i 0))

/-- Slots of a record: 1, or ceil((24 + LENGTH) / 32) for a variable one (R492). -/
def recSlots (v : Option (List Byte)) : Nat := match v with | none => 1 | some d => (24 + d.length + 31) / 32
/-- FLAGS (R491), without PASS. -/
def recFlags (r : Rec) : Nat := b2n r.boot + 2 * b2n r.fieldOrigin + 4 * b2n r.fault + 128 * b2n r.var.isSome
/-- The bytes of a record, 32 for each slot (R490, R492). -/
def recBytes (r : Rec) : List Byte :=
  match r.var with
  | none =>
    leBytes 2 r.code.toNat ++ leBytes 1 (recFlags r) ++ leBytes 1 r.repeats.toNat ++ leBytes 6 r.sec ++
    leBytes 4 r.nsq.toNat ++ leBytes 4 r.tickLo.toNat ++ r.params.flatMap (fun w => leBytes 3 w.toNat) ++ leBytes 2 r.seq.toNat
  | some d =>
    padTo (32 * recSlots r.var)
      (leBytes 2 r.code.toNat ++ leBytes 1 (recFlags r) ++ leBytes 1 (recSlots r.var) ++ leBytes 4 r.tickLo.toNat ++
       leBytes 2 r.seq.toNat ++ leBytes 2 d.length ++ leBytes 4 r.nsq.toNat ++ leBytes 6 r.sec ++ leBytes 2 0 ++ d)

/-- Ring capacity in slots (17). -/
def ringSlots : Nat := 4194304
/-- Queue a closed record for the tail (R500); a full queue skips it. -/
def tailPush (q : RecSt) (r : Rec) : RecSt :=
  if q.tailQueue.length ≥ 4096 then { q with tailSkipped := q.tailSkipped + 1 }
  else { q with tailQueue := q.tailQueue ++ [(recBytes r).take 32] }
/-- Drop whole records at the oldest end (R498); the list is newest first. -/
def evict (q : RecSt) : RecSt :=
  if q.head - q.oldest ≤ ringSlots then q
  else
    let keep := q.ring.filter (fun e => q.head - e.index ≤ ringSlots)
    { q with ring := keep, oldest := match keep.getLast? with | some e => e.index | none => q.head }

/-- Enter a record into the ring (R493, R498, R500). -/
def ringEnter (q : RecSt) (now : Nat) (r : Rec) : RecSt :=
  if q.seq ≥ 65536 then { q with tickDropped := q.tickDropped + 1, statDropped := satAdd q.statDropped 1 }
  else
    let q1 := match q.ring with
      | e :: _ => if e.body.repeats = 255#8 then q else tailPush q e.body
      | [] => q
    let r := { r with seq := BitVec.ofNat 16 q.seq }
    let n := recSlots r.var
    let mine := (List.range n).map (fun i => (q1.head + i) % ringSlots)
    evict { q1 with ring := { index := q1.head, slots := n, entered := now, body := r } :: q1.ring, head := q1.head + n
                    seq := q.seq + 1, unreadable := q1.unreadable.filter (fun x => !mine.contains x) }

/-- Fold a repeated internal event into the newest record (R497); none when it does not fold. -/
def tryFold (q : RecSt) (code : Code) (ps : List Word) : Option RecSt :=
  match q.ring with
  | e :: older =>
    if e.body.code = code ∧ e.body.params = ps ∧ e.body.var = none ∧ !e.body.fault ∧ e.body.repeats.toNat < 255 ∧
       !isFieldOrigin code.toNat ∧ !neverFolds code.toNat then
      let b := { e.body with repeats := e.body.repeats + 1#8 }
      let q1 := { q with ring := { e with body := b } :: older }
      some (if b.repeats = 255#8 then tailPush q1 b else q1)
    else none
  | [] => none

/-- Enter a report, or count it suppressed, or fold it (R496, R497). -/
def enterReport (s : State) (code : Code) (fault boot : Bool) (ps : List Nat) (v : Option (List Byte)) (sec : Nat) (nsq : Dword) : State :=
  let c := code.toNat
  let q := s.recd
  let limit := cfgField s 0x0F 0x100 0 16
  let fo := isFieldOrigin c && !fault
  if fo ∧ limit ≠ 0 ∧ smGetD q.entered c 0 ≥ limit then
    { s with recd := { q with suppressed := smPut q.suppressed c (smGetD q.suppressed c 0 + 1)
                              statSuppressed := satAdd q.statSuppressed 1 } }
  else
    let q := if fo then { q with entered := smPut q.entered c (smGetD q.entered c 0 + 1) } else q
    let params := params4 ps
    match (if fault || v.isSome then none else tryFold q code params) with
    | some q' => { s with recd := q' }
    | none =>
      let r : Rec := { code := code, boot := boot, fieldOrigin := isFieldOrigin c, fault := fault, repeats := 0#8, sec := sec
                       nsq := nsq, tickLo := BitVec.ofNat 32 s.tck.tick.toNat, params := params, seq := 0#16, var := v }
      let s1 := { s with recd := ringEnter q s.now r }
      raiseCursor (raiseCursor s1 .a) .b

/-- A report, variable or not: into the batch of an edge that is under way (R493), into the boot buffer before the first edge after
BOOT (R494), else entered. -/
def reportVar (s : State) (code : Code) (fault : Bool) (ps : List Nat) (v : Option (List Byte)) : State :=
  if s.tck.mode = .dormant then s
  else
    let b : BootReport := { code := code, fault := fault, params := ps, var := v, sec := s.ntm.sec, nsq := stampNow s }
    match s.recd.batch with
    | some l => { s with recd.batch := some (l ++ [b]) }
    | none =>
      if s.recd.started then enterReport s code fault false ps v s.ntm.sec (stampNow s)
      else if s.recd.bootBuf.length ≥ 4096 then
        { s with recd.bootDropped := s.recd.bootDropped + 1, recd.statDropped := satAdd s.recd.statDropped 1 }
      else { s with recd.bootBuf := s.recd.bootBuf ++ [b] }
def report (s : State) (code : Code) (fault : Bool) (ps : List Nat) : State := reportVar s code fault ps none
/-- Reports of one instant, in the order in which the recorder enters them: by block ID, in report order within a block (R493). -/
def byBlock (l : List BootReport) : List BootReport := (List.range 256).flatMap (fun b => l.filter (fun e => e.code.toNat / 256 == b))
/-- The reports of an edge begin, and are entered at its end (R493, log 130). -/
def batchStart (s : State) : State := { s with recd.batch := some [] }
def batchEnd (s : State) : State :=
  (byBlock (s.recd.batch.getD [])).foldl (fun s b => enterReport s b.code b.fault false b.params b.var b.sec b.nsq) { s with recd.batch := none }
/-- Record an event. -/
def record (s : State) (code : Nat) (ps : List Nat) : State := report s (BitVec.ofNat 16 code) false ps

/-- The index that the ring slot at a position holds now, if it holds one. -/
def ringIndexAt (q : RecSt) (pos : Nat) : Option Nat :=
  if q.head = 0 then none
  else
    let i := q.head - 1 - (q.head - 1 + ringSlots - pos % ringSlots) % ringSlots
    if i % ringSlots = pos % ringSlots ∧ q.oldest ≤ i then some i else none

/-! ### Slate requests (R470) -/
/-- Queue a slate operation of the part. -/
def slateAsk (s : State) (pri : Nat) (w : SltWork) : State :=
  { s with slt.queue := s.slt.queue ++ [{ pri := pri, work := w, who := none, edge := 0#64 }] }
/-- Count an event in a tally counter of the part (R484). -/
def tallyUp (s : State) (c : Nat) : State := slateAsk s 4 (.tally c 1)

/-! ### Responses (R58, R59) -/

/-- Answer a command; a response to a slot that has been reset meanwhile is discarded (R63). -/
def respondAt (s : State) (w : Who) (reason : Nat) (tick : BitVec 64) (data : List Byte) : State :=
  let q := portSt s w.port
  let slot := q.slots.get w.slot
  if slot.busy = some w.id then
    let r : Response := { code := w.code, reason := BitVec.ofNat 16 reason, seq := w.seq, tick := tick, data := data.take 65504 }
    let s1 := setPort s w.port (fun q =>
      { q with slots := q.slots.set w.slot { slot with busy := none, response := some r }
               done := q.done ||| (1#32 <<< w.slot.val) })
    if w.notify then raiseVector s1 w.port 0 else s1
  else s
/-- Answer a command that has no edge: with the tick number of the moment. -/
def respond (s : State) (w : Who) (reason : Nat) (data : List Byte) : State := respondAt s w reason s.tck.tick data
/-- Answer at the edge of the running tick. -/
def respondOpt (s : State) (w : Option Who) (reason : Nat) (tick : BitVec 64) (data : List Byte) : State :=
  match w with
  | some w => respondAt s w reason tick data
  | none => s

/-! ### The supervisor's queue (R56, R57, R59, R61) -/

/-- The 32 bytes of a request header, and the header that a request area begins with. -/
def hdrBytes (h : ReqHdr) : List Byte :=
  leBytes 2 h.code.toNat ++ leBytes 2 h.flags.toNat ++ leBytes 4 h.seq.toNat ++ leBytes 4 h.length.toNat ++ leBytes 4 h.reserved12.toNat ++
  leBytes 8 h.hostAddr.toNat ++ leBytes 4 h.hostLen.toNat ++ leBytes 4 h.reserved28.toNat
def hdrOf (area : List Byte) : ReqHdr :=
  { code := BitVec.ofNat 16 (leAt area 0 2), flags := BitVec.ofNat 16 (leAt area 2 2), seq := BitVec.ofNat 32 (leAt area 4 4)
    length := BitVec.ofNat 32 (leAt area 8 4), reserved12 := BitVec.ofNat 32 (leAt area 12 4), hostAddr := BitVec.ofNat 64 (leAt area 16 8)
    hostLen := BitVec.ofNat 32 (leAt area 24 4), reserved28 := BitVec.ofNat 32 (leAt area 28 4) }
/-- A request area of 64 KiB that holds a header and what follows it. -/
def areaOf (h : ReqHdr) (payload : List Byte) : List Byte := (hdrBytes h ++ payload).take 65536
/-- The header of the request that a row of the table names. -/
def reqHdr (r : Req) (code : Nat) : ReqHdr :=
  { code := BitVec.ofNat 16 code, flags := BitVec.ofNat 16 (b2n r.notify), seq := r.seq, length := BitVec.ofNat 32 r.payload.length
    reserved12 := 0#32, hostAddr := r.hostAddr, hostLen := r.hostLen, reserved28 := 0#32 }
/-- The request that an area spells: LENGTH bytes of payload follow the header. -/
def reqOfArea (p : Port) (slot : Fin 32) (area : List Byte) : Req :=
  let h := hdrOf area
  { port := p, slot := slot, notify := h.flags.getLsbD 0, seq := h.seq, hostAddr := h.hostAddr, hostLen := h.hostLen
    payload := padTo h.length.toNat (slice area 32 h.length.toNat) }
def requestArea (s : State) (p : Port) (slot : Fin 32) : List Byte := ((portSt s p).slots.get slot).request
/-- The command codes of the part (R64 and the command table of each chapter). -/
def commandCodes : List Nat :=
  [0x0101, 0x0102, 0x0103, 0x0104, 0x0105, 0x0106, 0x0201, 0x0202, 0x0203, 0x0204, 0x0205, 0x0206, 0x0207, 0x0301, 0x0302, 0x0303, 0x0304] ++
  [0x0501, 0x0502, 0x0503, 0x0504, 0x0505, 0x0506, 0x0507, 0x0508, 0x0509, 0x0601, 0x0602, 0x0701, 0x0702, 0x0703, 0x0704, 0x0705, 0x0706] ++
  [0x0801, 0x0802, 0x0803, 0x0901, 0x0902, 0x0903, 0x0904, 0x0A01, 0x0A02, 0x0A03, 0x0A04, 0x0B01, 0x0B02, 0x0B03, 0x0C01, 0x0D01, 0x0D02] ++
  [0x0E01, 0x0E02, 0x0E03, 0x0E04, 0x0E05, 0x0E06, 0x0F01, 0x0F02, 0x0F03, 0x0F04, 0x0F05, 0x1001, 0x1002, 0x1101, 0x1102, 0x1103, 0x1104, 0x1105]
/-- A reserved field of a request header is nonzero, or LENGTH is too large (R61). -/
def headerWrong (h : ReqHdr) : Bool :=
  decide (h.flags.toNat ≥ 2) || h.reserved12 != 0#32 || h.reserved28 != 0#32 || decide (h.length.toNat > 65504)
/-- The reason that a request fails with before its command is looked at; with a wrong header and an unknown CODE both, 0x0102 (DEDUCED, log 117). -/
def badRequest (h : ReqHdr) : Option Nat :=
  if headerWrong h then some 0x0102 else if !commandCodes.contains h.code.toNat then some 0x0101 else none
def whoOf (e : Queued) (h : ReqHdr) : Who := { port := e.port, slot := e.slot, id := e.id, code := h.code, seq := h.seq, notify := h.flags.getLsbD 0 }
/-- The supervisor examines what waits, in order, up to the first request that it can start. -/
def examine (s : State) : List Queued → State
  | [] => { s with host.queue := [] }
  | e :: rest =>
    let h := hdrOf (requestArea s e.port e.slot)
    match badRequest h with
    | some c => examine (respond s (whoOf e h) c []) rest
    | none => { s with host.queue := e :: rest }
/-- A doorbell: the request in the slot's area joins the queue, or it is refused and counted where the slot is busy. -/
def ringDoor (s : State) (p : Port) (slot : Fin 32) : State :=
  let sl := (portSt s p).slots.get slot
  if sl.busy.isSome then setPort s p (fun q => { q with badDoorbell := satAdd q.badDoorbell 1 })
  else
    let id := s.host.nextId
    let s1 := setPort { s with host.nextId := id + 1 } p (fun q => { q with slots := q.slots.set slot { sl with busy := some id } })
    examine s1 (s1.host.queue ++ [{ port := p, slot := slot, id := id }])
/-- The host's write of a request area (log 9); one whose request is in progress stays as it is. -/
def writeArea (s : State) (p : Port) (slot : Fin 32) (area : List Byte) : State :=
  setPort s p (fun q => if (q.slots.get slot).busy.isSome then q else { q with slots := q.slots.set slot { q.slots.get slot with request := area } })
/-- A row of a mailbox command whose slot is free stands for the host's write of the request and its doorbell too; in D3hot a port takes neither. -/
def offer (s : State) (r : Req) (code : Nat) : State :=
  if ((portSt s r.port).slots.get r.slot).busy.isSome ∨ (portSt s r.port).d3hot ∨ (portSt s r.port).perst then s
  else ringDoor (writeArea s r.port r.slot (areaOf (reqHdr r code) r.payload)) r.port r.slot
/-- The supervisor starts the request at the front of its queue, if it is that of the row: the request as its area spells it. -/
def takeFront (s : State) (r : Req) (code : Nat) : Option (Req × Who × State) :=
  match s.host.queue with
  | e :: rest =>
    let area := requestArea s e.port e.slot
    if e.port = r.port ∧ e.slot = r.slot ∧ (hdrOf area).code.toNat = code then
      some (reqOfArea e.port e.slot area, whoOf e (hdrOf area), { s with host.queue := rest })
    else none
  | [] => none
/-- The request that a row of a mailbox command starts, who is answered, and the state it starts in. -/
def startCmd (s : State) (r : Req) (code : Nat) : Option (Req × Who × State) := takeFront (offer s r code) r code

/-! ### What BAR4 shows (R56, R58) -/

/-- The bytes of a response: header, then the result. -/
def responseBytes (r : Response) : List Byte :=
  leBytes 2 r.code.toNat ++ leBytes 2 r.reason.toNat ++ leBytes 4 r.seq.toNat ++ leBytes 4 r.data.length ++ leBytes 4 0 ++
  leBytes 8 r.tick.toNat ++ leBytes 8 0 ++ r.data
/-- A byte of BAR4: 128 KiB a slot, the request area below the response area; what nothing has written reads 0 (log 9). -/
def bar4Byte (s : State) (p : Port) (ofs : BitVec 22) : Byte :=
  let sl := (portSt s p).slots.get (Fin.ofNat 32 (ofs.toNat / 0x20000))
  let o := ofs.toNat % 0x20000
  if o < 0x10000 then (sl.request[o]?).getD 0#8
  else match sl.response with
    | some x => ((responseBytes x)[o - 0x10000]?).getD 0#8
    | none => 0#8

/-- BAR2 and BAR4 answer, from the end of BOOT step 5 on (R24, R33); BOOT_SEQUENCE runs every step. -/
def mailboxUp (s : State) : Bool := s.tck.mode != .dormant && (s.tck.mode != .boot || s.tck.bootEnd.isSome)
/-- A command in BOOT and SHADOW (R68), and one in BOOT only. -/
def inBootOrShadow (s : State) : Bool := s.tck.mode == .boot || s.tck.mode == .shadow || s.tck.mode == .dormant
def inBoot (s : State) : Bool := s.tck.mode == .boot || s.tck.mode == .dormant

/-! ### Configuration machinery: what is under way (R73, R80) -/
def blkBusy (s : State) (b : Nat) : Bool := (blkCfg s b).check.isSome || (blkCfg s b).pend.isSome
def anyBlkBusy (s : State) : Bool := (List.range 20).any (blkBusy s)
/-- TCK_STATUS.PENDING: a mode transition, a STEP, or a switchover waits for its edge (R28, R350). -/
def transPending (s : State) : Bool := s.tck.trans.isSome || s.tck.stepReq.isSome || s.cry.switchover.isSome
/-- A port holds expert access to a block (R65). -/
def expertHeld (s : State) (p : Port) (b : Nat) : Bool := (portSt s p).expert.getLsbD b

/-! ### Carry frames (R327) -/
/-- The claim as the sender knows it. -/
def claimKnown (s : State) : Nat := match s.cry.claim with | some c => c | none => s.cry.stored.toNat
/-- A carry frame: header, payload of whole blocks, trailer when there is payload. -/
def carryFrame (s : State) (type seq : Nat) (payload : List Byte) : List Byte :=
  let body := padTo (8 * ceilDiv payload.length 8) payload
  let h := leBytes 1 type ++ leBytes 1 (body.length / 8) ++ leBytes 4 seq ++ leBytes 4 s.tck.tick.toNat ++ leBytes 3 (claimKnown s)
  let hdr := h ++ leBytes 2 (crc16 h)
  if body.isEmpty then hdr else hdr ++ body ++ leBytes 4 (crc32 (hdr ++ body)) ++ leBytes 4 0
/-- Send an unsequenced frame on every lane that is up. -/
def carrySend (s : State) (type : Nat) (payload : List Byte) : State :=
  if s.cry.lanes = 0#8 then s else emit s (.carry none (carryFrame s type 0 payload))
/-- Send a sequenced frame (R329); the last 65,536 are kept (R330); the first of the tick gives FIRST_SEQ (R336). -/
def carrySendSeq (s : State) (type : Nat) (payload : List Byte) : State :=
  let n := s.cry.nextSeq
  let f := carryFrame s type n payload
  let s1 := { s with cry.nextSeq := (n + 1) % 2 ^ 32, cry.kept := ((n, f) :: s.cry.kept).take 65536, cry.firstSeq := some (s.cry.firstSeq.getD n) }
  if s.cry.lanes = 0#8 then s1 else emit s1 (.carry none f)
/-- Bits [31:0] of the last tick whose seal was sent. -/
def lastSealed (s : State) : Nat := s.cry.applied.toNat
/-- A CAN controller. -/
def canAt (s : State) (k : Nat) : CanCtl := s.can.toArray.getD k CanCtl.reset
def setCan (s : State) (k : Nat) (f : CanCtl → CanCtl) : State := { s with can := s.can.setIfInBounds k (f (canAt s k)) }
/-- The frame at the head of the queue may already be in transmission: the bus decides, which is not observed (log 22). -/
def maybeStart (s : State) (k : Nat) : State :=
  let c := canAt s k
  match c.cur, c.queue with
  | none, f :: rest =>
    let b := freeBool s
    if b.1 then setCan b.2 k (fun c => { c with cur := some f, queue := rest }) else b.2
  | _, _ => s
/-- The claim is released: a unit that does not hold it drives no local output (R322), and a CAN controller only completes a frame that
it has started (R408). -/
def releaseClaim (s : State) : State := { maybeStart (maybeStart s 0) 1 with cry.claim := none, lch.outs := 0#32 }
/-- FAULT of an active unit with a standby (R334), and the release of the claim that goes with it (R347). -/
def pairFault (s : State) (reason kind : Nat) : State :=
  if holdsClaim s && s.cry.partner && s.cry.lanes ≠ 0#8 then
    let s1 := carrySend s 0x46 (leBytes 2 reason ++ leBytes 1 kind ++ leBytes 1 0 ++ leBytes 4 (lastSealed s))
    if kind ≠ 1 && partnerShadow s && partnerAble s then releaseClaim s1 else s1
  else s

/-- One CONTROL record to the standby (R339): apply tick, command code, data, in parts of at most 1,016 octets. -/
def controlParts (apply code : Nat) : Nat → Nat → List Byte → List (List Byte)
  | 0, _, _ => []
  | fuel + 1, part, data =>
    let here := data.take 1016
    let rest := data.drop 1016
    let head := leBytes 4 apply ++ leBytes 2 code ++ leBytes 1 part ++ leBytes 1 (b2n rest.isEmpty)
    if rest.isEmpty then [head ++ here] else (head ++ here) :: controlParts apply code fuel (part + 1) rest
/-- The active unit carries a change to a partner in SHADOW (R339); a command's data begin with their length (log 33). -/
def sendControl (s : State) (apply : Nat) (code : Nat) (data : List Byte) : State :=
  let data := if code = 0 then data else leBytes 4 data.length ++ data
  if holdsClaim s && partnerShadow s then
    (controlParts (apply % 2 ^ 32) code (data.length / 1016 + 1) 0 data).foldl (fun s p => carrySendSeq s 0x43 p) s
  else s
/-- The tick number of the next edge. -/
def nextEdge (s : State) : Nat := s.tck.tick.toNat + 1

/-- Tick number of the first edge at least 2 µs after an instant (R72). -/
def dueTick (s : State) (t : Nat) : Nat := s.tck.tick.toNat + (if t + s.tck.ofs + 2000 ≤ s.now + s.tck.len then 1 else 2)
/-- Tick number of the first edge at least 2 µs on. -/
def applyTick (s : State) : Nat := dueTick s s.now

/-! ### Faults (R27, R185, R566) -/

def isProgramFault (c : Nat) : Bool := c == 0x0450 || c == 0x0451 || c == 0x0452
/-- Of two faults of one rod cycle the one that decides: a program fault, then the lower block ID, code and rod. -/
def cycleWins (new old : PendFault) : Bool :=
  let pn := isProgramFault new.code.toNat
  let po := isProgramFault old.code.toNat
  if pn != po then pn
  else if new.code ≠ old.code then decide (new.code.toNat < old.code.toNat)
  else decide (new.rod < old.rod)
/-- Whether a fault replaces the one already detected in the tick. Where one of them is no rod's, whether both fall into one cycle, and which
is detected first where a rod is concerned, is free (log 134). -/
def faultWins (s : State) (new old : PendFault) : Bool × State :=
  match new.cycle, old.cycle with
  | some a, some b => (if a = b then cycleWins new old else decide (a < b), s)
  | none, none => let f := freeBool s; (f.1 && cycleWins new old, f.2)
  | _, _ => let f := freeNat s; ((match f.1 % 3 with | 0 => false | 1 => cycleWins new old | _ => true), f.2)
/-- KIND of the FAULT frame of a reason (R334, R349). -/
def faultKind (c : Nat) : Nat := if isProgramFault c then 1 else if c == 0x1301 then 2 else 0
/-- The claim and the local outputs as they were before the fault that decides so far. -/
def claimBefore (s : State) : Option Nat × BitVec 32 := match s.tck.pend with | some f => (f.claim, f.outs) | none => (s.cry.claim, s.lch.outs)
/-- A fault that decides is signalled to the partner: with the claim of before, where it takes the place of another kind (R185). -/
def signalFault (s : State) (f : PendFault) : State :=
  let known := match s.tck.pend with | some old => faultKind old.code.toNat == faultKind f.code.toNat | none => false
  let s1 := { s with tck.pend := some f }
  if known then s1 else pairFault { s1 with cry.claim := f.claim, lch.outs := f.outs } f.code.toNat (faultKind f.code.toNat)
/-- Detect a fault: record it, keep the one that decides, signal it to the partner. The part enters STOP at the next edge; a part in BOOT
at its first one (R35, log 96). -/
def raiseFault (s : State) (code : Nat) (cycle : Option Nat) (rod : Nat) (ps : List Nat) : State :=
  if s.tck.mode = .dormant then s
  else
    let f : PendFault := { code := BitVec.ofNat 16 code, cycle := cycle, rod := rod, params := ps, claim := (claimBefore s).1, outs := (claimBefore s).2 }
    let s1 := report s f.code true ps
    let w := match s1.tck.pend with | none => (true, s1) | some old => faultWins s1 f old
    if w.1 then signalFault w.2 f else w.2

/-! ### Triggers (R249 to R252) -/

/-- Whether a trigger of a task descriptor names a latched identifier (R251). -/
def trigMatches (desc ident : Nat) : Bool :=
  let k := field desc 20 4
  if k ≠ field ident 20 4 then false
  else
    match k with
    | 1 => field desc 8 5 == field ident 8 5 && (field desc 0 8 == 0 || field desc 0 8 == field ident 0 8)
    | 2 => field desc 0 6 == field ident 0 6 && (bitOf desc 7 || bitOf desc 6 == bitOf ident 6)
    | 3 => field desc 8 1 == field ident 8 1 && field desc 0 3 == field ident 0 3
    | 4 => field desc 4 2 == field ident 4 2 && (field desc 0 2 == 3 || field desc 0 2 == field ident 0 2)
    | _ => false
/-- Whether a task is released by an identifier: an event task by its triggers, the error task by its mask. -/
def taskTakes (t : Task) (ident : Nat) : Bool :=
  match t.kind with
  | 1 => t.triggers.any (fun d => trigMatches d ident)
  | 2 => field ident 20 4 ≥ 8 && t.errMask.testBit (field ident 20 4 - 8)
  | _ => false
/-- Latch a trigger that a task of the bank in force lists. -/
def latchTrigger (s : State) (ident : Nat) : State :=
  match bankInForce s with
  | some b => if b.tasks.any (fun t => taskTakes t ident) then { s with tasks.latched := s.tasks.latched ++ [ident] } else s
  | none => s
/-- Error kind 1, source failed, with its source number. -/
def latchSource (s : State) (n : Nat) : State := latchTrigger s (0x900000 + n % 256)

/-! ### Time in the tick -/
/-- Offset of compute start of the running tick (R16). -/
def computeStartNs (s : State) : Nat := if s.tck.swapTick then 22000 else 2000
/-- Offset of the deadline (R16). -/
def deadlineNs (s : State) : Nat := periodNs s - 2000

end Sys2Proof.Machine
end

