-- ==== Sys2Proof/Machine/Mailbox.lean ====
section
/-! DEFINITION. What every mailbox command shares: start, payload, refusals in order, host transfers; and the doorbell (R56 to R62, R68). -/
namespace Sys2Proof.Machine
open Sys2Proof

/-- The supervisor goes on with what waits behind a command that it has started or answered. -/
def serveQueue (s : State) : State := examine s s.host.queue
/-- A mailbox command: what its row starts, where the mailboxes answer. The next request is examined after it (R59). -/
def command (s : State) (r : Req) (code : Nat) (f : Req → Who → State → State) : State :=
  if !mailboxUp s then s
  else match startCmd s r code with
    | some x => serveQueue (f x.1 x.2.1 x.2.2)
    | none => offer s r code
/-- The sender of a command that the carry link brings: its answers go nowhere (R339). Slot identifiers start at 1. -/
def noWho : Who := { port := .a, slot := 0, id := 0, code := 0#16, seq := 0#32, notify := false }
/-- n bytes of a payload at an offset as a number; bytes beyond the payload read 0 (log 11). -/
def pay (r : Req) (ofs n : Nat) : Nat := leAt r.payload ofs n
/-- The first reason whose case holds. -/
def firstReason : List (Bool × Nat) → Option Nat
  | [] => none
  | (b, c) :: rest => if b then some c else firstReason rest
/-- Refuse a command with the first reason that applies, else go on. -/
def refuseOr (s : State) (w : Who) (cases : List (Bool × Nat)) (ok : State → State) : State :=
  match firstReason cases with
  | some c => respond s w c []
  | none => ok s
/-- Codes that follow one another. -/
def codeRun (first n : Nat) : List Nat := (List.range n).map (fun i => first + i)
/-- The reasons that the tables of a block list; codes left out of a table are never returned (R559, R562). -/
def reasonsOf (block : Nat) : List Nat :=
  match block with
  | 0x01 => codeRun 0x0101 9
  | 0x02 => codeRun 0x0201 8 ++ [0x020B]
  | 0x03 => codeRun 0x0301 6 ++ [0x0311]
  | 0x05 => codeRun 0x0510 22 ++ codeRun 0x0527 8
  | 0x06 => codeRun 0x0601 14
  | 0x07 => codeRun 0x0701 4 ++ [0x0710, 0x0711] ++ codeRun 0x0713 5
  | 0x08 => codeRun 0x0801 5 ++ codeRun 0x0808 3
  | 0x09 => codeRun 0x0901 6
  | 0x0A => codeRun 0x0A01 8
  | 0x0B => codeRun 0x0B01 9
  | 0x0C => codeRun 0x0C01 4
  | 0x0D => codeRun 0x0D01 7
  | 0x0E => codeRun 0x0E01 6
  | 0x0F => codeRun 0x0F01 3
  | 0x10 => codeRun 0x1001 5
  | _ => codeRun 0x1101 7 ++ codeRun 0x1109 6
/-- A failure for which the spec states no reason: a free one of those that the command's block lists (R4, R559, log 11). -/
def respondFree (s : State) (w : Who) : State :=
  let n := freeNat s
  let codes := reasonsOf (w.code.toNat / 256)
  respond n.2 w (codes.getD (n.1 % codes.length) 0x1101) []
/-- The payload that a command's table gives it, where no reason is named for another: its length, and the bytes that are zero. -/
def payloadShape (code : Nat) : Option (Nat × List Nat) :=
  match code with
  | 0x0601 | 0x0B01 | 0x0D01 | 0x1103 => some (4, [1, 2, 3])
  | 0x0902 => some (4, [3])
  | 0x0903 => some (12, [1])
  | 0x0B02 => some (4, [1])
  | 0x0B03 | 0x0F04 => some (4, [2, 3])
  | 0x0C01 | 0x0F03 => some (4, [])
  | 0x0F02 => some (8, [])
  | 0x0602 | 0x0801 | 0x0802 | 0x0803 | 0x0904 | 0x0A04 | 0x0F05 | 0x1001 | 0x1101 | 0x1104 | 0x1105 => some (0, [])
  | _ => none
/-- A payload of another shape than its command's. -/
def misshapen (code : Nat) (d : List Byte) : Bool :=
  match payloadShape code with
  | some x => d.length != x.1 || x.2.any (fun i => leAt d i 1 != 0)
  | none => false
/-- Refuse a command as above, then for the shape of its payload, for which no table names a reason (log 11). -/
def refuseShape (s : State) (w : Who) (d : List Byte) (cases : List (Bool × Nat)) (ok : State → State) : State :=
  refuseOr s w cases (fun s => if misshapen w.code.toNat d then respondFree s w else ok s)
/-- A command that the standby or BOOT turns away; one that the carry link brings is not (R68, R339). -/
def notHere (s : State) (carried : Bool) : Bool := inBootOrShadow s && !carried
/-- A floor or a floor plus one, where the spec states no rounding of a / b (log 12). -/
def roundFree (s : State) (a b : Nat) : Nat × State :=
  if b = 0 ∨ a % b = 0 then (a / b, s)
  else let f := freeBool s; (a / b + b2n f.1, f.2)
def roundFreeInt (s : State) (a : Int) (b : Nat) : Int × State :=
  if b = 0 ∨ a % b = 0 then (a / (b : Int), s)
  else let f := freeBool s; (a / (b : Int) + (b2n f.1 : Int), f.2)

/-- A register read completes with its data (R47). -/
def readDone (s : State) (p : Port) (v : Dword) : State := emit (setPort s p (fun q => { q with rdata := v })) (.readData p v)
/-- An access of a port: none is answered in DORMANT, or by a port in D3hot or in reset by PERST (R44, R551). -/
def access (s : State) (p : Port) (f : State → State) : State := if s.tck.mode = .dormant ∨ (portSt s p).d3hot ∨ (portSt s p).perst then s else f s

/-- Start a transfer to or from the host's memory; the command waits for its end (R62). -/
def startXfer (s : State) (w : Who) (r : Req) (kind : XferKind) : State :=
  let x : Xfer := { who := w, addr := r.hostAddr, len := r.hostLen.toNat, kind := kind }
  let s1 := { s with host.xfers := s.host.xfers ++ [x] }
  match kind with
  | .toHost d => emit s1 (.hostWrite w.port r.hostAddr d)
  | _ => emit s1 (.hostRead w.port r.hostAddr r.hostLen.toNat)

/-- DOORBELL: the host's write of a request, and its write of the slot number (R59, R61). -/
def doorbell (s : State) (p : Port) (slot : Fin 32) (h : ReqHdr) (payload : List Byte) : State :=
  if !mailboxUp s || (portSt s p).d3hot || (portSt s p).perst then s else ringDoor (writeArea s p slot (areaOf h payload)) p slot

def execDoorbell (p : Port) (slot : Fin 32) (h : ReqHdr) (payload : List Byte) (s : State) : Host.Outcome State Fault Refusal :=
  .next (doorbell s p slot h payload)

end Sys2Proof.Machine
end

