-- ==== Sys2Proof/Machine/Float.lean ====
section
/-! DEFINITION. IEEE 754 binary32 and binary64 as class M computes them (R199 to R205). -/
namespace Sys2Proof.Machine
open Sys2Proof

/-- Exponent and fraction widths of a format. -/
structure FFmt where
  eb : Nat
  mb : Nat
deriving DecidableEq, Repr
def f32 : FFmt := ⟨8, 23⟩
def f64 : FFmt := ⟨11, 52⟩

/-- A decoded operand: NaN, infinity, or (−1)^s × m × 2^e. -/
inductive FP
  | nan
  | inf (s : Bool)
  | fin (s : Bool) (m : Nat) (e : Int)
deriving DecidableEq, Repr

/-- Exponent of the lowest bit of a subnormal. -/
def FFmt.qmin (f : FFmt) : Int := 2 - (2 ^ (f.eb - 1) : Nat) - f.mb
/-- Highest exponent of the lowest bit of a finite value. -/
def FFmt.qmax (f : FFmt) : Int := f.qmin + (2 ^ f.eb : Nat) - 3
def FFmt.signBit (f : FFmt) (s : Bool) : Nat := if s then 2 ^ (f.eb + f.mb) else 0
/-- The canonical quiet NaN (R201). -/
def FFmt.qnan (f : FFmt) : Nat := (2 ^ f.eb - 1) * 2 ^ f.mb + 2 ^ (f.mb - 1)
def FFmt.infinity (f : FFmt) (s : Bool) : Nat := f.signBit s + (2 ^ f.eb - 1) * 2 ^ f.mb
def FFmt.maxFinite (f : FFmt) (s : Bool) : Nat := f.signBit s + (2 ^ f.eb - 1) * 2 ^ f.mb - 1

/-- Decode a bit pattern. -/
def fdecode (f : FFmt) (b : Nat) : FP :=
  let s := bitOf b (f.eb + f.mb)
  let e := field b f.mb f.eb
  let m := field b 0 f.mb
  if e = 2 ^ f.eb - 1 then (if m = 0 then .inf s else .nan)
  else if e = 0 then .fin s m f.qmin
  else .fin s (m + 2 ^ f.mb) (f.qmin + (e : Int) - 1)

/-- Whether rounding goes away from zero (modes of FR: 0 nearest even, 1 toward zero, 2 toward −∞, 3 toward +∞). -/
def roundUp (mode : Nat) (s odd : Bool) (rem half : Nat) (sticky : Bool) : Bool :=
  match mode with
  | 0 => decide (rem > half) || (decide (rem = half) && decide (half > 0) && (sticky || odd))
  | 1 => false
  | 2 => s && (decide (rem > 0) || sticky)
  | _ => !s && (decide (rem > 0) || sticky)

/-- Result of an overflow (R200). -/
def foverflow (f : FFmt) (mode : Nat) (s : Bool) : Nat :=
  match mode with
  | 0 => f.infinity s
  | 1 => f.maxFinite s
  | 2 => if s then f.infinity s else f.maxFinite s
  | _ => if s then f.maxFinite s else f.infinity s

/-- Correctly rounded (−1)^s × (m + something below 1 when sticky) × 2^e, m > 0. -/
def fround (f : FFmt) (mode : Nat) (s : Bool) (m : Nat) (e : Int) (sticky : Bool) : Nat :=
  let p := f.mb + 1
  let q0 : Int := e + (m.log2 + 1 : Nat) - p
  let q := if q0 < f.qmin then f.qmin else q0
  let r : Nat × Nat × Nat :=
    if q ≤ e then (m * 2 ^ (e - q).toNat, 0, 0)
    else
      let d := (q - e).toNat
      (m / 2 ^ d, m % 2 ^ d, 2 ^ (d - 1))
  let m1 := if roundUp mode s (r.1 % 2 == 1) r.2.1 r.2.2 sticky then r.1 + 1 else r.1
  let mq : Nat × Int := if m1 = 2 ^ p then (2 ^ (p - 1), q + 1) else (m1, q)
  if mq.2 > f.qmax then foverflow f mode s
  else if mq.1 < 2 ^ f.mb then f.signBit s + mq.1
  else f.signBit s + (mq.2 - f.qmin + 1).toNat * 2 ^ f.mb + (mq.1 - 2 ^ f.mb)

/-- A signed zero. -/
def fzero (f : FFmt) (s : Bool) : Nat := f.signBit s
/-- Rounded value of m × 2^e, zero included. -/
def fpack (f : FFmt) (mode : Nat) (s : Bool) (m : Nat) (e : Int) (sticky : Bool) : Nat :=
  if m = 0 then fzero f s else fround f mode s m e sticky

/-- A signed integer significand at a lower exponent. -/
def scaled (s : Bool) (m : Nat) (e lo : Int) : Int :=
  let v : Int := (m * 2 ^ (e - lo).toNat : Nat)
  if s then -v else v

/-- Addition of decoded operands. -/
def faddFP (f : FFmt) (mode : Nat) (a b : FP) : Nat :=
  match a, b with
  | .nan, _ => f.qnan
  | _, .nan => f.qnan
  | .inf s, .inf t => if s = t then f.infinity s else f.qnan
  | .inf s, .fin .. => f.infinity s
  | .fin .., .inf t => f.infinity t
  | .fin s m e, .fin t n d =>
    let lo := if e < d then e else d
    let v := scaled s m e lo + scaled t n d lo
    if v = 0 then
      if m = 0 ∧ n = 0 ∧ s = t then fzero f s
      else fzero f (mode == 2)
    else fround f mode (decide (v < 0)) v.natAbs lo false

/-- Sign flip. -/
def fnegFP (a : FP) : FP :=
  match a with
  | .nan => .nan
  | .inf s => .inf (!s)
  | .fin s m e => .fin (!s) m e

def fadd (f : FFmt) (mode a b : Nat) : Nat := faddFP f mode (fdecode f a) (fdecode f b)
def fsub (f : FFmt) (mode a b : Nat) : Nat := faddFP f mode (fdecode f a) (fnegFP (fdecode f b))

def fmul (f : FFmt) (mode a b : Nat) : Nat :=
  match fdecode f a, fdecode f b with
  | .nan, _ => f.qnan
  | _, .nan => f.qnan
  | .inf s, .inf t => f.infinity (s != t)
  | .inf s, .fin t n _ => if n = 0 then f.qnan else f.infinity (s != t)
  | .fin s m _, .inf t => if m = 0 then f.qnan else f.infinity (s != t)
  | .fin s m e, .fin t n d => fpack f mode (s != t) (m * n) (e + d) false

/-- Bits of quotient computed below the dividend: enough for every rounding. -/
def divBits : Nat := 128

def fdiv (f : FFmt) (mode a b : Nat) : Nat :=
  match fdecode f a, fdecode f b with
  | .nan, _ => f.qnan
  | _, .nan => f.qnan
  | .inf _, .inf _ => f.qnan
  | .inf s, .fin t _ _ => f.infinity (s != t)
  | .fin s _ _, .inf t => fzero f (s != t)
  | .fin s m e, .fin t n d =>
    if n = 0 then (if m = 0 then f.qnan else f.infinity (s != t))
    else if m = 0 then fzero f (s != t)
    else fround f mode (s != t) (m * 2 ^ divBits / n) (e - d - divBits) (decide (m * 2 ^ divBits % n ≠ 0))

/-- Integer square root, bit by bit from bit k − 1 down. -/
def isqrt (n : Nat) : Nat → Nat → Nat
  | 0, r => r
  | k + 1, r => let r' := r + 2 ^ k; if r' * r' ≤ n then isqrt n k r' else isqrt n k r

def fsqrt (f : FFmt) (mode a : Nat) : Nat :=
  match fdecode f a with
  | .nan => f.qnan
  | .inf s => if s then f.qnan else f.infinity false
  | .fin s m e =>
    if m = 0 then fzero f s
    else if s then f.qnan
    else
      let n := (if e % 2 = 0 then m else 2 * m) * 2 ^ 128
      let e2 := (if e % 2 = 0 then e else e - 1) / 2
      let r := isqrt n (n.log2 / 2 + 1) 0
      fround f mode false r (e2 - 64) (decide (r * r ≠ n))

/-- Order of two decoded operands that are no NaN, −0 equal to +0: −1, 0 or 1. -/
def fcmpFP (a b : FP) : Int :=
  match a, b with
  | .inf s, .inf t => if s = t then 0 else if s then -1 else 1
  | .inf s, _ => if s then -1 else 1
  | _, .inf t => if t then 1 else -1
  | .fin s m e, .fin t n d =>
    let lo := if e < d then e else d
    let v := scaled s m e lo - scaled t n d lo
    if v = 0 then 0 else if v < 0 then -1 else 1
  | _, _ => 0

/-- Minimum or maximum (R202): −0 below +0, a NaN gives way to the other operand. -/
def fminmax (f : FFmt) (isMax : Bool) (a b : Nat) : Nat :=
  match fdecode f a, fdecode f b with
  | .nan, .nan => f.qnan
  | .nan, _ => b
  | _, .nan => a
  | x, y =>
    let c := fcmpFP x y
    let aLess : Bool := if c = 0 then bitOf a (f.eb + f.mb) && !bitOf b (f.eb + f.mb) else decide (c < 0)
    if aLess != isMax then a else b

/-- Compare conditions of R203: 0 EQ, 1 LT, 2 LE, 3 UN. -/
def fcompare (f : FFmt) (k a b : Nat) : Bool :=
  match fdecode f a, fdecode f b with
  | .nan, _ => k == 3
  | _, .nan => k == 3
  | x, y =>
    let c := fcmpFP x y
    match k with
    | 0 => c == 0
    | 1 => decide (c < 0)
    | 2 => decide (c ≤ 0)
    | _ => false

/-- A signed integer to a floating-point format. -/
def cvtFromInt (f : FFmt) (mode : Nat) (i : Int) : Nat := fpack f mode (decide (i < 0)) i.natAbs 0 false

/-- A floating-point value to a signed integer of w bits (R204). -/
def cvtToInt (f : FFmt) (mode w a : Nat) : Int :=
  match fdecode f a with
  | .nan => 0
  | .inf s => if s then -(2 ^ (w - 1) : Nat) else (2 ^ (w - 1) : Nat) - 1
  | .fin s m e =>
    let n : Nat :=
      if e ≥ 0 then m * 2 ^ e.toNat
      else
        let d := (-e).toNat
        let q := m / 2 ^ d
        if roundUp mode s (q % 2 == 1) (m % 2 ^ d) (2 ^ (d - 1)) false then q + 1 else q
    satInt w (if s then -(n : Int) else n)

/-- One format to another (CVT.D.S, CVT.S.D). -/
def cvtFF (src dst : FFmt) (mode a : Nat) : Nat :=
  match fdecode src a with
  | .nan => dst.qnan
  | .inf s => dst.infinity s
  | .fin s m e => fpack dst mode s m e false

end Sys2Proof.Machine
end

