-- ==== Sys2Proof/Machine/Migration.lean ====
section
/-! DEFINITION. Instance data and the migration map of an online change: lines, costs, the dirty map, building a line (R256 to R261). -/
namespace Sys2Proof.Machine
open Sys2Proof

/-- Key of a word of an instance segment. -/
def wordKey (seg ofs : Nat) : Nat := seg * 2 ^ 24 + ofs
/-- Initial instance data of a bank (R571 TYPE 0x0007); words that no run covers are 0. -/
def initialData (b : Bank) : SMap Word :=
  b.init.foldl (fun m run =>
    (run.2.2.foldl (fun (acc : SMap Word × Nat) w => (smSet acc.1 0#24 (wordKey run.1 acc.2) w, acc.2 + 1)) (m, run.2.1)).1) []

/-- The bank in force, its data. -/
def dataOf (s : State) (b : BankId) : SMap Word := (bankSt s b).data
/-- A word of an instance segment of a bank as the memory holds it. -/
def instWord (s : State) (b : BankId) (key : Nat) : Word := smGetD (dataOf s b) key 0#24
/-- A trunk store that has bursts which no memory controller has taken. -/
def storeWaits (o : FqOp) : Bool := o.store && !o.failed && o.bursts.any (fun b => b == .pending || b == .granted)
/-- The word that a rod's newest trunk store still under way writes to an address, with the order of the store. -/
def storeUnderWay (r : Rod) (key : Nat) : Option (Nat × Word) :=
  r.fq.toList.foldl (fun (acc : Option (Nat × Word)) o =>
    match o with
    | none => acc
    | some o =>
      let lo := wordKey o.seg o.base
      let newer := match acc with | some a => decide (a.1 < o.order) | none => true
      if storeWaits o && decide (lo ≤ key) && decide (key < lo + o.len) && newer then
        some (o.order, o.data.getD (key - lo) 0#24)
      else acc) none
/-- A word as the background migration reads it: the rods' stores that have not arrived yet included (R141, R261). -/
def instWordNew (s : State) (b : BankId) (key : Nat) : Word :=
  let newest := s.rods.rods.toList.foldl (fun (acc : Option Word) r =>
    let cached := r.cstores.reverse.foldl (fun acc e => if e.2.1 = key then some e.2.2 else acc) acc
    match storeUnderWay r key with | some x => some x.2 | none => cached) none
  newest.getD (instWord s b key)
def putInst (s : State) (b : BankId) (key : Nat) (v : Word) : State :=
  setBank s b (fun q => { q with data := smSet q.data 0#24 key v })

/-- Words a move writes. -/
def moveLen (m : Move) : Nat := if m.kind ≥ 2 then 2 * m.n else m.n
/-- Cost of a move per line (R256). -/
def moveCost (m : Move) : Nat := if m.kind ≥ 2 then 4 else 1
/-- Cost of a line: the highest among the moves that write it. -/
def lineCost (b : Bank) (key : Nat) : Nat :=
  let seg := key / 2 ^ 24
  let lo := key % 2 ^ 24
  match b.mig.find? (fun g => g.seg = seg) with
  | some g => g.moves.foldl (fun c m => if m.dst < lo + 64 ∧ lo < m.dst + moveLen m then max c (moveCost m) else c) 0
  | none => 0
/-- The lines of every instance segment of a bank. -/
def allLines (b : Bank) : List Nat :=
  b.segs.flatMap (fun e => if e.2.kind = 3 then [] else (List.range (ceilDiv e.2.length 64)).map (fun i => wordKey e.1 (64 * i)))
/-- The new lines whose moves read a word of the old bank (R261). -/
def linesReading (b : Bank) (seg ofs : Nat) : List Nat :=
  b.mig.flatMap (fun g =>
    if g.source ≠ seg ∨ seg = 0 then []
    else g.moves.flatMap (fun m =>
      if m.kind = 1 ∨ ofs < m.src ∨ m.src + m.n ≤ ofs then []
      else
        let i := ofs - m.src
        let w := if m.kind ≥ 2 then m.dst + 2 * i else m.dst + i
        let l := wordKey g.seg (w / 64 * 64)
        let l2 := wordKey g.seg ((if m.kind ≥ 2 then w + 1 else w) / 64 * 64)
        if l = l2 then [l] else [l, l2]))
/-- The target bank while a change is in progress. -/
def chgBank (s : State) : Option Bank := if s.chg.stage = .idle then none else (bankSt s s.chg.target).prog
/-- A tracked write of the old program marks lines in the dirty map (R261). -/
def markDirty (s : State) (seg ofs n : Nat) : State :=
  match chgBank s with
  | none => s
  | some b =>
    (List.range n).foldl (fun s i =>
      (linesReading b seg (ofs + i)).foldl (fun s l =>
        if s.chg.dirty.contains l then s else { s with chg.dirty := s.chg.dirty ++ [l] }) s) s

/-- Value that the map gives a word of a new segment (R256). -/
def migWord (s : State) (old : BankId) (b : Bank) (init : SMap Word) (seg w : Nat) : Word :=
  let dflt := smGetD init (wordKey seg w) 0#24
  match b.mig.find? (fun g => g.seg = seg) with
  | none => dflt
  | some g =>
    match g.moves.find? (fun m => m.dst ≤ w ∧ w < m.dst + moveLen m) with
    | none => dflt
    | some m =>
      let i := w - m.dst
      match m.kind with
      | 0 => instWordNew s old (wordKey g.source (m.src + i))
      | 1 => BitVec.ofNat 24 m.src
      | 2 =>
        let v := instWordNew s old (wordKey g.source (m.src + i / 2))
        if i % 2 = 0 then v else if v.msb then 0xFFFFFF#24 else 0#24
      | _ =>
        let v := instWordNew s old (wordKey g.source (m.src + i / 2))
        let f := cvtFromInt f32 0 v.toInt
        if i % 2 = 0 then BitVec.ofNat 24 f else BitVec.ofNat 24 (f / 2 ^ 24)
/-- The words of a line of bank `new`, whose program is b, from the data of bank `old`. -/
def lineInto (s : State) (new old : BankId) (b : Bank) (key : Nat) : State :=
  let seg := key / 2 ^ 24
  let lo := key % 2 ^ 24
  let len := match smGet b.segs seg with | some d => d.length | none => 0
  let init := initialData b
  ((List.range 64).filter (fun i => lo + i < len)).foldl (fun t i => putInst t new (wordKey seg (lo + i)) (migWord s old b init seg (lo + i))) s
/-- Build or rebuild a line of the new bank from the old data (R260). -/
def buildLine (s : State) (key : Nat) : State :=
  match chgBank s, s.ldr.inForce with
  | some b, some old =>
    let t := lineInto s s.chg.target old b key
    { t with chg.dirty := t.chg.dirty.filter (fun l => l ≠ key) }
  | _, _ => s
/-- A line that a standby builds after its swap edge, from the data of the bank that was in force before (R267). -/
def catchUpLine (s : State) (key : Nat) : State :=
  let t := match s.ldr.inForce with
    | some b => (match (bankSt s b).prog with | some p => lineInto s b (match b with | .a => .b | .b => .a) p key | none => s)
    | none => s
  { t with cry.catchUp := t.cry.catchUp.filter (fun l => l ≠ key) }
/-- Dirty-unit count (R261). -/
def dirtyUnits (s : State) : Nat :=
  match chgBank s with
  | some b => s.chg.dirty.foldl (fun a l => a + lineCost b l) 0
  | none => 0
/-- Constant region of a rod. -/
def constOf (b : Bank) (rod : Nat) : Nat × List Word := smGetD b.consts rod (0, [])
/-- Lines of a rod's new constant region that differ from the old one (R259). -/
def constDiff (old new : Bank) (rod : Nat) : Nat :=
  let o := constOf old rod
  let n := constOf new rod
  ((List.range (n.1 / 64)).filter (fun i =>
    decide (o.1 < 64 * i + 64) || ((o.2.drop (64 * i)).take 64 != (n.2.drop (64 * i)).take 64))).length
def constUnits (old new : Bank) : Nat := (List.range 48).foldl (fun a r => a + constDiff old new r) 0
/-- Words of cache-resident segments of a rod. -/
def cacheWords (b : Bank) (rod : Nat) : Nat :=
  b.segs.foldl (fun a e => if e.2.kind = 1 ∧ e.2.owner = rod then a + e.2.length else a) 0

end Sys2Proof.Machine
end

