-- ==== Sys2Proof/Machine/Operands.lean ====
section
/-! DEFINITION. Jaldoward syllables and bundles: fields, formats, opcode maps, operand forms and the checks of R162 in the order of R569. -/
namespace Sys2Proof.Machine
open Sys2Proof

/-- The formats of R167; a load and a store form where the format has both. -/
inductive Fmt
  | r | r1 | i | s | f | t | tp | pl | pg | pp | se | c | ci | sg | sp | spi | lg | fr | fc
  | lmLoad | lmStore | smLoad | smStore | im | is | fq | bd | db | cf | n | rp | rr | ls | lsi | wq | ty | sn
deriving DecidableEq, Repr

/-- Mark of a register operand: a register, a pair, a triple (R168). -/
inductive Mark | one | pair | triple
deriving DecidableEq, Repr

/-- A row of an opcode map: format, marks of d, s1 and s2, 48-bit immediate, operands that must be zero, distance. -/
structure OpRow where
  cls : Nat
  op : Nat
  fmt : Fmt
  d : Mark
  s1 : Mark
  s2 : Mark
  w48 : Bool
  src1Zero : Bool
  src2Zero : Bool
  dist : Nat
deriving DecidableEq, Repr

/-- A row whose operands are single registers. -/
def row (cls op : Nat) (fmt : Fmt) (dist : Nat) : OpRow := ⟨cls, op, fmt, .one, .one, .one, false, false, false, dist⟩
/-- A row with marked operands. -/
def rowM (cls op : Nat) (fmt : Fmt) (d s1 s2 : Mark) (dist : Nat) : OpRow := ⟨cls, op, fmt, d, s1, s2, false, false, false, dist⟩
/-- A row of format FR with one source (SRC2 0). -/
def rowF1 (op : Nat) (d s1 : Mark) (dist : Nat) : OpRow := ⟨2, op, .fr, d, s1, .one, false, false, true, dist⟩

/-- Class B (06 opcode map). -/
def rowsB : List OpRow := [
  row 0 0x01 .n 0, row 0 0x02 .r 1, row 0 0x03 .r 1, row 0 0x04 .r 1, row 0 0x05 .r 1, row 0 0x06 .r 1,
  row 0 0x07 .r 1, row 0 0x08 .r1 1, row 0 0x10 .i 1, row 0 0x11 .i 1, row 0 0x12 .i 1, row 0 0x18 .r 1,
  row 0 0x19 .r 1, row 0 0x1A .r 1, row 0 0x1B .r 1, row 0 0x1C .s 1, row 0 0x1D .s 1, row 0 0x1E .s 1,
  row 0 0x1F .s 1, row 0 0x20 .f 1, row 0 0x21 .f 1, row 0 0x22 .f 1, row 0 0x28 .t 1, row 0 0x29 .t 1,
  row 0 0x2A .tp 2, row 0 0x30 .pl 2, row 0 0x31 .pl 2, row 0 0x32 .pl 2, row 0 0x38 .r1 1, row 0 0x39 .r1 1,
  row 0 0x3A .pg 1, row 0 0x3B .pp 2]

/-- Class A. -/
def rowsA : List OpRow := [
  row 1 0x01 .r 1, row 1 0x02 .r 1, row 1 0x03 .i 1, { row 1 0x04 .i 1 with src1Zero := true }, row 1 0x05 .r 1,
  row 1 0x06 .r 1, row 1 0x07 .r 1, row 1 0x08 .r 1, row 1 0x09 .r 1, row 1 0x0A .r 1, row 1 0x0B .r1 1,
  row 1 0x0C .se 1, rowM 1 0x10 .r .pair .pair .pair 1, rowM 1 0x11 .r .pair .pair .pair 1,
  { rowM 1 0x12 .i .pair .pair .one 1 with w48 := true },
  { rowM 1 0x13 .i .pair .one .one 1 with w48 := true, src1Zero := true },
  row 1 0x18 .c 2, row 1 0x19 .c 2, row 1 0x1A .c 2, row 1 0x1B .c 2, row 1 0x1C .c 2, row 1 0x1D .c 2,
  row 1 0x20 .ci 2, row 1 0x21 .ci 2, row 1 0x22 .ci 2, row 1 0x23 .ci 2, row 1 0x24 .ci 2, row 1 0x25 .ci 2,
  row 1 0x26 .ci 2, row 1 0x27 .ci 2, rowM 1 0x28 .c .one .pair .pair 2, rowM 1 0x29 .c .one .pair .pair 2,
  rowM 1 0x2A .c .one .pair .pair 2, row 1 0x30 .sg 1, row 1 0x31 .sp 1, row 1 0x32 .spi 1, row 1 0x38 .lg 1]

/-- Class M. -/
def rowsM : List OpRow := [
  row 2 0x01 .r 3, row 2 0x02 .r 3, row 2 0x03 .r 3, rowM 2 0x04 .r .pair .one .one 3, rowM 2 0x05 .r .pair .one .one 3,
  row 2 0x08 .r 16, row 2 0x09 .r 16, row 2 0x0A .r 16, row 2 0x0B .r 16,
  rowM 2 0x10 .fr .pair .pair .pair 4, rowM 2 0x11 .fr .pair .pair .pair 4, rowM 2 0x12 .fr .pair .pair .pair 4,
  rowM 2 0x13 .fr .pair .pair .pair 4, rowM 2 0x14 .fr .pair .pair .pair 4, rowM 2 0x18 .fr .pair .pair .pair 16,
  rowF1 0x19 .pair .pair 16,
  rowM 2 0x1C .fc .one .pair .pair 2, rowM 2 0x1D .fc .one .pair .pair 2, rowM 2 0x1E .fc .one .pair .pair 2,
  rowM 2 0x1F .fc .one .pair .pair 2,
  rowM 2 0x20 .fr .triple .triple .triple 4, rowM 2 0x21 .fr .triple .triple .triple 4,
  rowM 2 0x22 .fr .triple .triple .triple 4, rowM 2 0x23 .fr .triple .triple .triple 4,
  rowM 2 0x24 .fr .triple .triple .triple 4, rowM 2 0x28 .fr .triple .triple .triple 16,
  rowF1 0x29 .triple .triple 16,
  rowM 2 0x2C .fc .one .triple .triple 2, rowM 2 0x2D .fc .one .triple .triple 2,
  rowM 2 0x2E .fc .one .triple .triple 2, rowM 2 0x2F .fc .one .triple .triple 2,
  rowF1 0x30 .pair .one 4, rowF1 0x31 .one .pair 4, rowF1 0x32 .pair .pair 4, rowF1 0x33 .pair .pair 4,
  rowF1 0x34 .triple .one 4, rowF1 0x35 .one .triple 4, rowF1 0x36 .triple .pair 4, rowF1 0x37 .pair .triple 4,
  rowF1 0x38 .triple .pair 4, rowF1 0x39 .pair .triple 4]

/-- Class L. -/
def rowsL : List OpRow := [
  row 3 0x01 .lmLoad 3, row 3 0x02 .lmStore 0, row 3 0x03 .smLoad 8, row 3 0x04 .smStore 0, row 3 0x05 .smStore 0,
  row 3 0x08 .im 8, row 3 0x09 .im 8, row 3 0x0A .is 0, row 3 0x0B .is 0, row 3 0x10 .fq 0, row 3 0x11 .fq 0]

/-- Class C. -/
def rowsC : List OpRow := [
  row 4 0x01 .bd 0, row 4 0x02 .db 1, row 4 0x03 .cf 3, row 4 0x04 .n 3, row 4 0x08 .rp 0, row 4 0x09 .rr 0,
  row 4 0x0A .ls 1, row 4 0x0B .lsi 1, row 4 0x10 .wq 0, row 4 0x11 .ty 0, row 4 0x12 .sn 0, row 4 0x1F .n 0]

/-- The map of a class. -/
def rowsOf (cls : Nat) : List OpRow :=
  match cls with
  | 0 => rowsB | 1 => rowsA | 2 => rowsM | 3 => rowsL | 4 => rowsC | _ => []
/-- The opcode that a class and opcode field name, if the map lists it. -/
def opRow (cls op : Nat) : Option OpRow := (rowsOf cls).find? (fun r => r.op = op)

/-! Fields of a syllable (R158). -/
def sStop (x : Nat) : Bool := bitOf x 47
def sCls (x : Nat) : Nat := field x 44 3
def sOp (x : Nat) : Nat := field x 36 8
def sDest (x : Nat) : Nat := field x 30 6
def sSrc1 (x : Nat) : Nat := field x 24 6
def sSrc2 (x : Nat) : Nat := field x 18 6
def sPred (x : Nat) : Nat := field x 13 5
def sSense (x : Nat) : Bool := bitOf x 12
def sImm (x : Nat) : Nat := field x 0 12
/-- Payload of an X syllable. -/
def sPay (x : Nat) : Nat := field x 0 44

/-- Whether every field that the format marks 0 is zero (R167, rule 0x03). -/
def reservedOk (r : OpRow) (x : Nat) : Bool :=
  let d := sDest x; let a := sSrc1 x; let b := sSrc2 x; let m := sImm x
  (!r.src1Zero || a == 0) && (!r.src2Zero || b == 0) &&
  match r.fmt with
  | .r => m == 0
  | .r1 => b == 0 && m == 0
  | .i => b == 0
  | .s => b == 0 && field m 5 7 == 0
  | .f => b == 0 && field m 0 2 == 0
  | .t => b == 0 && field m 0 7 == 0
  | .tp => d < 32 && b == 0 && field m 0 7 == 0
  | .pl => d < 32 && a < 32 && b < 32 && field m 0 10 == 0
  | .pg => a == 0 && b == 0 && m == 0
  | .pp => d == 0 && b == 0 && m == 0
  | .se => field m 0 7 == 0
  | .c | .fc => d < 32 && field m 0 7 == 0
  | .ci => d < 32 && b == 0
  | .sg => a == 0 && b == 0 && field m 0 9 == 0
  | .sp => d == 0 && b == 0 && field m 0 9 == 0
  | .spi => d == 0 && a == 0 && b == 0
  | .lg => a == 0 && b == 0 && field m 0 11 == 0
  | .fr => field m 0 10 == 0
  | .lmLoad => b == 0 && field m 9 3 == 0
  | .lmStore => d == 0 && field m 9 3 == 0
  | .smLoad => b == 0
  | .smStore => d == 0
  | .im => b == 0
  | .is => d == 0 && field m 7 5 == 0
  | .fq => d < 16
  | .bd => d == 0 && a == 0 && b == 0
  | .db => d < 2 && a == 0 && b == 0
  | .cf => d == 0 && b == 0
  | .n => d == 0 && a == 0 && b == 0 && m == 0
  | .rp => d == 0 && a == 0 && b == 0
  | .rr => d == 0 && b == 0 && m == 0
  | .ls => d < 2 && b == 0 && m == 0
  | .lsi => d < 2 && a == 0 && b == 0
  | .wq => d == 0 && a == 0 && b == 0 && field m 4 8 == 0
  | .ty => d == 0 && a == 0 && b == 0 && field m 5 7 == 0
  | .sn => d == 0 && b == 0

/-- Whether a register number is allowed for its mark (R168). -/
def markOk (k : Mark) (n : Nat) : Bool :=
  match k with
  | .one => true
  | .pair => n % 2 == 0
  | .triple => n % 3 == 0 && 3 ≤ n && n ≤ 60

/-- Whether every field holds an allowed value (R168, R190, rule 0x04). -/
def valuesOk (r : OpRow) (x : Nat) : Bool :=
  let m := sImm x
  markOk r.d (sDest x) && markOk r.s1 (sSrc1 x) && markOk r.s2 (sSrc2 x) &&
  match r.fmt with
  | .s => field m 0 5 ≤ 23
  | .f => field m 7 5 ≤ 23 && field m 7 5 + field m 2 5 + 1 ≤ 24
  | .t | .tp => field m 7 5 ≤ 23
  | .c | .fc => sDest x == 0 || sDest x != field m 7 5
  | _ => true

/-- How many payload bits the X of a format uses, from bit 0; none when the format takes no X (R167, R169). -/
def xBits (r : OpRow) : Option Nat :=
  match r.fmt with
  | .i | .ci => if r.w48 then some 36 else some 12
  | .lsi => some 12
  | .spi | .lmLoad | .lmStore | .smLoad | .smStore => some 15
  | .im | .is => some 17
  | .fq => some 32
  | .bd | .db | .cf => some 12
  | _ => none

/-- Limit of primary syllables of a class in a bundle (rule 0x05). -/
def clsLimit (cls : Nat) : Nat :=
  match cls with
  | 0 | 1 | 3 => 2
  | _ => 1
/-- First slot number of a class (R123). -/
def clsSlot (cls : Nat) : Nat :=
  match cls with
  | 0 => 0 | 1 => 2 | 2 => 4 | 3 => 5 | _ => 7

/-- Whether a row is a control transfer. -/
def isTransfer (r : OpRow) : Bool := r.cls == 4 && (r.op == 1 || r.op == 2 || r.op == 3 || r.op == 4)
/-- Whether a row is REPT or REPTR. -/
def isRept (r : OpRow) : Bool := r.cls == 4 && (r.op == 8 || r.op == 9)
/-- Whether a row is WAITF. -/
def isWaitf (r : OpRow) : Bool := r.cls == 4 && r.op == 0x10

/-- A primary syllable of a bundle: index, opcode row, syllable, slot number and X payload. -/
structure Prim where
  idx : Nat
  row : OpRow
  w : Nat
  slot : Nat
  x : Option Nat
deriving DecidableEq, Repr

/-- How the check of a bundle ends: its syllables and its length, or the rule and index that fail first. -/
inductive Checked
  | ok (ps : List Prim) (len : Nat)
  | bad (rule idx : Nat)
deriving DecidableEq, Repr

/-- An FQ syllable that lacks its QX, among the primaries so far (newest first). -/
def fqMissing (ps : List Prim) : Option Nat :=
  match ps with
  | p :: _ => if p.row.fmt = .fq ∧ p.x = none then some p.idx else none
  | [] => none

/-- Whether the bundle that the syllables begin with holds a REPT or REPTR. -/
def holdsRept : Nat → List Nat → Bool
  | 0, _ => false
  | _ + 1, [] => false
  | fuel + 1, x :: rest => (sCls x == 4 && (sOp x == 8 || sOp x == 9)) || (!sStop x && holdsRept fuel rest)

/-- Steps 3 to 8 of R569 for a primary syllable, in a bundle that holds a REPT or REPTR or none: the rule that fails. -/
def primFail (ps : List Prim) (noC rept : Bool) (x : Nat) : Option Nat :=
  match opRow (sCls x) (sOp x) with
  | none => some 1
  | some r =>
    if !reservedOk r x then some 3
    else if !valuesOk r x then some 4
    else if (ps.filter (fun p => p.row.cls = r.cls)).length ≥ clsLimit r.cls then some 5
    else if (noC && r.cls == 4) || (rept && ps.length == 1) then some 8
    else none

/-- The checks of R162 but rule 0x09, in the order of R569. `code` are the syllables below the code length from the
bundle's address on; ps are the primaries found so far, newest first. A syllable that is not X, of a reserved class too, is
primary: a QX missing before it goes first. The place at the code length is no syllable of the bundle: an FQ directly before it without QX and
without STOP gets 0x07 there, not 0x06, which R569 leaves open (log 141). -/
def checkFrom (noC rept : Bool) : Nat → List Nat → Nat → List Prim → Checked
  | 0, _, idx, _ => .bad 7 (idx - 1)
  | _ + 1, [], idx, _ => .bad 7 idx
  | fuel + 1, x :: rest, idx, ps =>
    let cls := sCls x
    let next (ps' : List Prim) : Checked :=
      if sStop x then
        match fqMissing ps' with
        | some j => .bad 6 j
        | none => .ok ps'.reverse (idx + 1)
      else if idx = 15 then .bad 7 15
      else checkFrom noC rept fuel rest (idx + 1) ps'
    if cls = 5 then
      match ps with
      | [] => .bad 6 idx
      | p :: older =>
        match xBits p.row with
        | none => .bad 6 idx
        | some n =>
          if p.x ≠ none then .bad 6 idx
          else if sPay x ≥ 2 ^ n then .bad 3 idx
          else next ({ p with x := some (sPay x) } :: older)
    else
      match fqMissing ps with
      | some j => .bad 6 j
      | none =>
        match if cls ≥ 6 then some 2 else primFail ps noC rept x with
        | some rule => .bad rule idx
        | none =>
          match opRow cls (sOp x) with
          | none => .bad 1 idx
          | some r =>
            let k := (ps.filter (fun p => p.row.cls = cls)).length
            next (⟨idx, r, x, clsSlot cls + k, none⟩ :: ps)

/-- Check and decode the bundle at an address of a rod's code (R182). -/
def checkBundle (code : List Nat) (addr : Nat) (noC : Bool) : Checked :=
  checkFrom noC (holdsRept 16 (code.drop addr)) 16 (code.drop addr) 0 []

/-- Length of a bundle from its STOP bits alone, or the index where R182 finds no STOP. -/
def extentFrom : Nat → List Nat → Nat → Nat × Bool
  | 0, _, idx => (idx - 1, false)
  | _ + 1, [], idx => (idx, false)
  | fuel + 1, x :: rest, idx =>
    if sStop x then (idx + 1, true) else if idx = 15 then (15, false) else extentFrom fuel rest (idx + 1)
/-- Extent of the bundle that REPTR with N = 0 skips (R182, R223). -/
def bundleExtent (code : List Nat) (addr : Nat) : Nat × Bool := extentFrom 16 (code.drop addr) 0

/-! Extended fields (R169, R170). -/
/-- Immediate of formats I and CI, as a number of the operation's width. -/
def immOf (p : Prim) : Nat :=
  let w := if p.row.w48 then 48 else 24
  match p.x with
  | some x => (sImm p.w + 2 ^ 12 * x) % 2 ^ w
  | none => toTwos w (ofTwos 12 (sImm p.w))
/-- imm12 of LSI, unsigned. -/
def immU (p : Prim) : Nat := (sImm p.w + 2 ^ 12 * p.x.getD 0) % 2 ^ 24
/-- disp9 of LM, SM and imm9 of SPI, unsigned. -/
def disp9 (p : Prim) : Nat := field (sImm p.w) 0 9 + 2 ^ 9 * p.x.getD 0
/-- disp7 of IM and IS, unsigned. -/
def disp7 (p : Prim) : Nat := field (sImm p.w) 0 7 + 2 ^ 7 * p.x.getD 0
/-- Displacement of a control transfer, signed, in syllables. -/
def branchDisp (p : Prim) : Int :=
  match p.x with
  | some x => ofTwos 24 (sImm p.w + 2 ^ 12 * x)
  | none => ofTwos 12 (sImm p.w)
/-- Segment register number k of SG, SP, SPI, SM and FQ. -/
def segNo (p : Prim) : Nat := field (sImm p.w) 9 3
/-- Length in words and LOCAL-side displacement of FQ (R169, R212). -/
def fqLen (p : Prim) : Nat := field (p.x.getD 0) 0 8 + 1
def fqLocDisp (p : Prim) : Nat := field (p.x.getD 0) 8 24

end Sys2Proof.Machine
end

