-- ==== Sys2Proof/Machine/Parse.lean ====
section
/-! DEFINITION. The bank image: header, directory and section contents as R232, R233 and R571 lay them out, read from bytes. -/
namespace Sys2Proof.Machine
open Sys2Proof

/-- A rejection: reason, and rod, address and index where they apply (R239). -/
structure Reject where
  code : Nat
  rod : Nat
  addr : Nat
  idx : Nat
deriving DecidableEq, Repr
def rejected (code : Nat) : Reject := ⟨code, 63, 0, 0⟩
def rejectedRod (code rod : Nat) : Reject := ⟨code, rod, 0, 0⟩
/-- The rejection when a check fails. -/
def failIf (bad : Bool) (r : Reject) : Option Reject := if bad then some r else none
/-- The first rejection of a list. -/
def firstReject : List (Option Reject) → Option Reject
  | [] => none
  | some r :: _ => some r
  | none :: rest => firstReject rest

/-- A directory entry. -/
structure Sec where
  type : Nat
  rod : Nat
  zero : Nat
  ofs : Nat
  len : Nat
  crc : Nat
deriving DecidableEq, Repr

def secCount (img : List Byte) : Nat := leAt img 20 2
def directory (img : List Byte) : List Sec :=
  (List.range (secCount img)).map (fun i =>
    let o := 32 + 16 * i
    ⟨leAt img o 2, leAt img (o + 2) 1, leAt img (o + 3) 1, leAt img (o + 4) 4, leAt img (o + 8) 4, leAt img (o + 12) 4⟩)
def secBytes (img : List Byte) (d : Sec) : List Byte := slice img d.ofs d.len
/-- Contents of the first section of a type (and rod). -/
def section1 (img : List Byte) (type : Nat) : List Byte :=
  match (directory img).find? (fun d => d.type = type) with | some d => secBytes img d | none => []
def rodSection (img : List Byte) (type rod : Nat) : Option (List Byte) :=
  match (directory img).find? (fun d => d.type = type ∧ d.rod = rod) with | some d => some (secBytes img d) | none => none
def bankId (img : List Byte) : Nat := leAt img 12 4
def baseId (img : List Byte) : Nat := leAt img 16 4

/-- The image with its CRC field zero. -/
def crcFieldZero (img : List Byte) : List Byte := img.take 28 ++ List.replicate 4 0#8 ++ img.drop 32
/-- Whether a section type belongs to a rod. -/
def perRod (type : Nat) : Bool := type == 1 || type == 2 || type == 6
def overlap (a b : Sec) : Bool := decide (a.ofs < b.ofs + b.len) && decide (b.ofs < a.ofs + a.len)
/-- Whether any two elements in different places of a list are in a relation. -/
def anyPair {α : Type} (p : α → α → Bool) : List α → Bool
  | [] => false
  | x :: r => r.any (p x) || anyPair p r

/-- The CRC of the header over the image and that of every section pass. -/
def crcsPass (img : List Byte) : Bool :=
  leAt img 28 4 == crc32 (crcFieldZero img) && (directory img).all (fun d => decide (d.ofs + d.len ≤ img.length) && d.crc == crc32 (secBytes img d))

/-- Header, directory and sections (R232, R233): true when one of them is bad, reason 0x0527. -/
def headerBad (img : List Byte) : Bool :=
  let dir := directory img
  let n := secCount img
  decide (img.length < 48) || leAt img 0 4 != 0x51564B42 || leAt img 4 2 != 0x4824 || leAt img 6 2 != 1 ||
  leAt img 8 4 != img.length || bankId img == 0 || n == 0 || decide (n > 512) || leAt img 22 6 != 0 ||
  decide (32 + 16 * n > img.length) || leAt img 28 4 != crc32 (crcFieldZero img) ||
  dir.any (fun d => d.type == 0 || decide (d.type > 8) || d.zero != 0 ||
    (if perRod d.type then decide (d.rod > 47) else d.rod != 0xFF) ||
    decide (d.ofs + d.len > img.length) || d.crc != crc32 (secBytes img d)) ||
  anyPair overlap dir || anyPair (fun a b => a.type == b.type && a.rod == b.rod) dir ||
  [3, 4, 5, 7].any (fun t => !dir.any (fun d => d.type == t)) ||
  (dir.any (fun d => d.type == 8) != (baseId img != 0))

/-! ### Words and entries -/

/-- n native words of 3 bytes (R571). -/
def wordsAt (bs : List Byte) (n : Nat) : List Word :=
  match n with
  | 0 => []
  | k + 1 => BitVec.ofNat 24 (leAt bs 0 3) :: wordsAt (bs.drop 3) k
/-- Syllables of 6 bytes (R159). -/
def syllables : Nat → List Byte → List Nat
  | 0, _ => []
  | k + 1, bs => leAt bs 0 6 :: syllables k (bs.drop 6)
/-- n entries of a fixed size from an offset. -/
def entries (bs : List Byte) (ofs size n : Nat) : List (List Byte) :=
  match n with
  | 0 => []
  | k + 1 => slice bs ofs size :: entries bs (ofs + size) size k
/-- Whether bytes from an offset are zero. -/
def zeroAt (bs : List Byte) (ofs n : Nat) : Bool := leAt bs ofs n == 0

/-- Code of a rod. -/
def codeOf (img : List Byte) (rod : Nat) : List Nat :=
  match rodSection img 1 rod with | some b => syllables (b.length / 6) b | none => []
def constSection (img : List Byte) (rod : Nat) : Nat × List Word :=
  match rodSection img 2 rod with
  | some b => let n := min (leAt b 0 4) ((b.length - 4) / 3); (leAt b 0 4, wordsAt (b.drop 4) n)
  | none => (0, [])

/-- A path entry of the point table. -/
structure PathEntry where
  link : Nat
  path : List Byte
  ok : Bool
deriving DecidableEq, Repr
def pathEntries (img : List Byte) : List PathEntry :=
  let b := section1 img 3
  (entries b 8 20 (min (leAt b 0 4) (b.length / 20))).map (fun e =>
    let d := leAt e 1 1
    { link := leAt e 0 1, path := slice e 4 d
      ok := decide (leAt e 0 1 ≤ 23) && decide (1 ≤ d) && decide (d ≤ 16) && zeroAt e 2 2 && zeroAt e (4 + d) (16 - d) })
def pointEntries (img : List Byte) : List (List Byte) :=
  let b := section1 img 3
  entries b (8 + 20 * leAt b 0 4) 16 (min (leAt b 4 4) (b.length / 16))
/-- SOURCE of a point entry; none when it is not valid in itself. -/
def sourceOf (paths : List PathEntry) (e : List Byte) : Option Source :=
  let word := bitOf (leAt e 4 1) 1
  match leAt e 8 1 with
  | 1 =>
    match paths[leAt e 10 2]? with
    | some p =>
      if zeroAt e 9 1 ∧ (if word then zeroAt e 15 1 else decide (leAt e 15 1 ≤ 23)) then
        some (.link p.link p.path.length p.path (leAt e 12 3) (leAt e 15 1))
      else none
    | none => none
  | 2 => if leAt e 9 1 ≤ 31 ∧ leAt e 10 1 ≤ 3 ∧ zeroAt e 11 5 then some (.local (leAt e 9 1) (leAt e 10 1)) else none
  | 3 => if leAt e 9 1 ≤ 1 ∧ leAt e 10 1 ≤ 127 ∧ zeroAt e 13 3 then some (.can (leAt e 9 1) (leAt e 10 1) (leAt e 11 2)) else none
  | 4 =>
    let item := leAt e 10 1
    let phase := leAt e 11 1
    let top := if item ≤ 2 ∨ item = 7 ∨ item = 8 then 2 else if item ≤ 6 then 3 else if 14 ≤ item ∧ item ≤ 16 then 4 else 0
    if leAt e 9 1 ≤ 3 ∧ item ≤ 18 ∧ phase ≤ top ∧ zeroAt e 12 4 then some (.meter (leAt e 9 1) item phase) else none
  | _ => none
def pointOf (paths : List PathEntry) (e : List Byte) : Point :=
  let f := leAt e 4 1
  { output := bitOf f 0, word := bitOf f 1, divisor := field f 2 3, subst := field f 5 2, substValue := BitVec.ofNat 24 (leAt e 5 3)
    source := (sourceOf paths e).getD (.local 0 0) }

def segEntries (img : List Byte) : List (List Byte) :=
  let b := section1 img 4
  entries b 8 16 (min (leAt b 0 4) (b.length / 16))
def segOf (e : List Byte) : Nat × SegDesc :=
  (leAt e 0 3, { kind := leAt e 3 1, length := leAt e 4 4, owner := leAt e 8 1, place := leAt e 12 4 })
def taskEntries (img : List Byte) : List (List Byte) :=
  let b := section1 img 5
  entries b 8 88 (min (leAt b 0 4) (b.length / 88))
def taskOf (e : List Byte) : Task :=
  { id := leAt e 0 1, kind := leAt e 1 1, priority := leAt e 2 1, tally := leAt e 3 1, period := leAt e 4 2, phase := leAt e 6 2
    rodSet := leAt e 8 6, errMask := leAt e 15 1
    triggers := (List.range (leAt e 14 1)).map (fun i => leAt e (20 + 4 * i) 3) }
def schedEntries (b : List Byte) : List (List Byte) := entries b 8 8 (min (leAt b 0 4) (b.length / 8))
def schedOf (e : List Byte) : SchedSeg := { task := leAt e 0 1, entry := leAt e 2 2, start := leAt e 4 4 }

/-- Runs of initial instance data, and whether the section keeps its layout. -/
def initRuns : Nat → List Byte → List (Nat × Nat × List Word) × Bool
  | 0, bs => ([], bs.isEmpty)
  | fuel + 1, bs =>
    if bs.isEmpty then ([], true)
    else
      let n := leAt bs 8 4
      let size := 12 + ceilDiv (3 * n) 4 * 4
      if bs.length < 12 ∨ n = 0 ∨ bs.length < size ∨ !zeroAt bs 3 1 ∨ !zeroAt bs (12 + 3 * n) (size - 12 - 3 * n) then ([], false)
      else
        let r := initRuns fuel (bs.drop size)
        ((leAt bs 0 3, leAt bs 4 4, wordsAt (bs.drop 12) n) :: r.1, r.2)
/-- Segment records of the migration map, and whether the section keeps its layout. -/
def migRecords : Nat → List Byte → List MigSeg × Bool
  | 0, bs => ([], bs.isEmpty)
  | n + 1, bs =>
    let k := leAt bs 8 2
    let size := 16 + 16 * k
    if bs.length < size ∨ k > 4096 ∨ !zeroAt bs 3 1 ∨ !zeroAt bs 7 1 ∨ !zeroAt bs 10 6 then ([], false)
    else
      let es := entries bs 16 16 k
      let ms := es.map (fun e => ({ kind := leAt e 0 1, src := leAt e 4 4, dst := leAt e 8 4, n := leAt e 12 4 } : Move))
      let ok := es.all (fun e => zeroAt e 1 3 && decide (leAt e 0 1 ≤ 3) && decide (leAt e 12 4 ≥ 1) &&
        (leAt e 0 1 != 1 || decide (leAt e 4 4 < 2 ^ 24)))
      let r := migRecords n (bs.drop size)
      ({ seg := leAt bs 0 3, source := leAt bs 4 3, moves := ms } :: r.1, ok && r.2)

/-- A bank image read as R571 lays it out (meant for images that pass the checks). -/
def parseBank (img : List Byte) : Bank :=
  let paths := pathEntries img
  let sm := section1 img 8
  let ri := section1 img 7
  { id := bankId img, base := baseId img
    code := (List.range 48).filterMap (fun r => (rodSection img 1 r).map (fun _ => (r, codeOf img r)))
    consts := (List.range 48).filterMap (fun r => (rodSection img 2 r).map (fun _ => (r, constSection img r)))
    points := (pointEntries img).map (fun e => (leAt e 0 4, pointOf paths e))
    segs := (segEntries img).map segOf
    tasks := (taskEntries img).map taskOf
    scheds := (List.range 48).filterMap (fun r => (rodSection img 6 r).map (fun b => (r, (schedEntries b).map schedOf)))
    init := (initRuns ri.length ri).1
    mig := (migRecords (leAt sm 0 4) (sm.drop 8)).1 }

end Sys2Proof.Machine
end

