-- ==== Sys2Proof/Machine/Flags.lean ====
section
/-! DEFINITION. Conditions that Jaldoward instructions write to predicates: integer and floating-point compares, predicate logic (R191, R195, R203). -/
namespace Sys2Proof.Machine
open Sys2Proof

/-- Condition of an A-class compare on values of w bits (R195). -/
def intCondition (op w a b : Nat) : Bool :=
  let sa := ofTwos w a
  let sb := ofTwos w b
  match op with
  | 0x18 | 0x20 | 0x28 => a == b
  | 0x19 | 0x21 => a != b
  | 0x1A | 0x22 | 0x29 => decide (sa < sb)
  | 0x1B | 0x23 => decide (sa ≤ sb)
  | 0x1C | 0x24 | 0x2A => decide (a < b)
  | 0x1D | 0x25 => decide (a ≤ b)
  | 0x26 => decide (sa > sb)
  | 0x27 => decide (a > b)
  | _ => false

/-- Condition of an M-class compare (R203). -/
def floatCondition (op a b : Nat) : Bool :=
  if op < 0x20 then fcompare f32 (op - 0x1C) a b else fcompare f64 (op - 0x2C) a b

/-- Result of PAND, POR, PXOR on inputs after inversion. -/
def predLogic (op : Nat) (a b : Bool) : Bool :=
  match op with
  | 0x30 => a && b
  | 0x31 => a || b
  | _ => a != b

end Sys2Proof.Machine
end

