-- ==== Sys2Proof/Machine/Alu.lean ====
section
/-! DEFINITION. What the syllables of classes B, A and M and the loop-counter moves compute (R187 to R205). -/
namespace Sys2Proof.Machine
open Sys2Proof

/-! Reads of a rod's registers in the issue cycle (R124, R125, R174). -/
/-- General register n; g0 reads 0. -/
def rdG (r : Rod) (n : Nat) : Nat := if n = 0 then 0 else (r.g.toArray.getD n 0).toNat
/-- Predicate n; p0 reads true. -/
def rdP (r : Rod) (n : Nat) : Bool := n = 0 || r.p.getLsbD n
def rdLc (r : Rod) (k : Nat) : Nat := (r.lc.toArray.getD k 0).toNat
/-- Segment register k; s0 holds LOCAL. -/
def rdSeg (r : Rod) (k : Nat) : Nat := if k = 0 then 0 else (r.seg.toArray.getD k 0).toNat
/-- 48-bit value of a pair. -/
def rdPair (r : Rod) (n : Nat) : Nat := rdG r n + 2 ^ 24 * rdG r (n + 1)
/-- binary32 in a pair: the bits that R125 marks zero are ignored. -/
def rdF32 (r : Rod) (n : Nat) : Nat := rdG r n + 2 ^ 24 * (rdG r (n + 1) % 2 ^ 8)
/-- binary64 in a triple. -/
def rdF64 (r : Rod) (n : Nat) : Nat := rdG r n + 2 ^ 24 * rdG r (n + 1) + 2 ^ 48 * (rdG r (n + 2) % 2 ^ 16)

/-! Results, as the registers they reach. -/
abbrev Results := List (Dest × Nat)
def wG (n v : Nat) : Results := [(.g n, v % 2 ^ 24)]
def wPair (n v : Nat) : Results := [(.g n, v % 2 ^ 24), (.g (n + 1), v / 2 ^ 24 % 2 ^ 24)]
def wTriple (n v : Nat) : Results :=
  [(.g n, v % 2 ^ 24), (.g (n + 1), v / 2 ^ 24 % 2 ^ 24), (.g (n + 2), v / 2 ^ 48 % 2 ^ 24)]
def wP (n : Nat) (b : Bool) : Results := [(.p n, b2n b)]
/-- pd and its complement in pd2 (formats C and FC). -/
def wP2 (p : Prim) (b : Bool) : Results := wP (sDest p.w) b ++ wP (field (sImm p.w) 7 5) (!b)

/-- All 24 bits. -/
def ones24 : Nat := 0xFFFFFF
def not24 (v : Nat) : Nat := ones24 - v % 2 ^ 24
/-- Shifts of class B (R191). -/
def shl24 (a n : Nat) : Nat := if n ≥ 24 then 0 else (a * 2 ^ n) % 2 ^ 24
def shr24 (a n : Nat) : Nat := if n ≥ 24 then 0 else a / 2 ^ n
def sar24 (a n : Nat) : Nat := toTwos 24 (ofTwos 24 a / (2 ^ (min n 24) : Nat))
def rol24 (a n : Nat) : Nat := let k := n % 24; (a * 2 ^ k) % 2 ^ 24 + a / 2 ^ (24 - k)
/-- Lowest set bit from bit i on, 24 if none. -/
def ffs24 (a : Nat) : Nat := ((List.range 24).find? (fun i => a.testBit i)).getD 24
def cnt24 (a : Nat) : Nat := ((List.range 24).filter (fun i => a.testBit i)).length

/-- Class B (R191 to R193). -/
def aluB (r : Rod) (p : Prim) : Results :=
  let d := sDest p.w
  let a := rdG r (sSrc1 p.w)
  let b := rdG r (sSrc2 p.w)
  let m := sImm p.w
  let pos := field m 7 5
  let len := field m 2 5 + 1
  let sh := field m 0 5
  match p.row.op with
  | 0x02 => wG d (a &&& b)
  | 0x03 => wG d (a ||| b)
  | 0x04 => wG d (a ^^^ b)
  | 0x05 => wG d (a &&& not24 b)
  | 0x06 => wG d (a ||| not24 b)
  | 0x07 => wG d (not24 (a ^^^ b))
  | 0x08 => wG d (not24 a)
  | 0x10 => wG d (a &&& immOf p)
  | 0x11 => wG d (a ||| immOf p)
  | 0x12 => wG d (a ^^^ immOf p)
  | 0x18 => wG d (shl24 a b)
  | 0x19 => wG d (shr24 a b)
  | 0x1A => wG d (sar24 a b)
  | 0x1B => wG d (rol24 a b)
  | 0x1C => wG d (shl24 a sh)
  | 0x1D => wG d (shr24 a sh)
  | 0x1E => wG d (sar24 a sh)
  | 0x1F => wG d (rol24 a sh)
  | 0x20 => wG d (field a pos len)
  | 0x21 => wG d (toTwos 24 (ofTwos len (field a pos len)))
  | 0x22 =>
    let old := rdG r d
    wG d (old - field old pos len * 2 ^ pos + field a 0 len * 2 ^ pos)
  | 0x28 => wG d (a ||| 2 ^ pos)
  | 0x29 => wG d (a &&& not24 (2 ^ pos))
  | 0x2A => wP d (a.testBit pos)
  | 0x30 | 0x31 | 0x32 =>
    let pa := rdP r (sSrc1 p.w) != m.testBit 11
    let pb := rdP r (sSrc2 p.w) != m.testBit 10
    wP d (predLogic p.row.op pa pb)
  | 0x38 => wG d (cnt24 a)
  | 0x39 => wG d (ffs24 a)
  | 0x3A => wG d (ofBits ((List.range 24).filter (fun i => rdP r i)))
  | 0x3B => (List.range 23).flatMap (fun i => wP (i + 1) (a.testBit (i + 1)))
  | _ => []

/-- Class A (R194 to R196). -/
def aluA (r : Rod) (p : Prim) : Results :=
  let d := sDest p.w
  let n1 := sSrc1 p.w
  let n2 := sSrc2 p.w
  let a := rdG r n1
  let b := rdG r n2
  let sa := ofTwos 24 a
  let sb := ofTwos 24 b
  match p.row.op with
  | 0x01 => wG d (a + b)
  | 0x02 => wG d (a + 2 ^ 24 - b)
  | 0x03 => wG d (a + immOf p)
  | 0x04 => wG d (immOf p)
  | 0x05 => wG d (toTwos 24 (satInt 24 (sa + sb)))
  | 0x06 => wG d (toTwos 24 (satInt 24 (sa - sb)))
  | 0x07 => wG d (if sa ≤ sb then a else b)
  | 0x08 => wG d (if sa ≥ sb then a else b)
  | 0x09 => wG d (min a b)
  | 0x0A => wG d (max a b)
  | 0x0B => wG d (toTwos 24 (satInt 24 sa.natAbs))
  | 0x0C => wG d (if rdP r (field (sImm p.w) 7 5) then a else b)
  | 0x10 => wPair d (rdPair r n1 + rdPair r n2)
  | 0x11 => wPair d (rdPair r n1 + 2 ^ 48 - rdPair r n2)
  | 0x12 => wPair d (rdPair r n1 + immOf p)
  | 0x13 => wPair d (immOf p)
  | 0x18 | 0x19 | 0x1A | 0x1B | 0x1C | 0x1D => wP2 p (intCondition p.row.op 24 a b)
  | 0x20 | 0x21 | 0x22 | 0x23 | 0x24 | 0x25 | 0x26 | 0x27 => wP d (intCondition p.row.op 24 a (immOf p))
  | 0x28 | 0x29 | 0x2A => wP2 p (intCondition p.row.op 48 (rdPair r n1) (rdPair r n2))
  | 0x30 => wG d (rdSeg r (segNo p))
  | 0x31 => [(.seg (segNo p), a)]
  | 0x32 => [(.seg (segNo p), disp9 p % 2 ^ 24)]
  | 0x38 => wG d (rdLc r (b2n (bitOf (sImm p.w) 11)))
  | _ => []

/-- Integer division and remainder (R197, R198): 0x08 DIV, 0x09 DIVU, 0x0A REM, 0x0B REMU. -/
def divide24 (op a b : Nat) : Nat :=
  let sa := ofTwos 24 a
  let sb := ofTwos 24 b
  if b = 0 then (if op = 0x08 ∨ op = 0x09 then ones24 else a)
  else
    match op with
    | 0x08 => toTwos 24 (sa.tdiv sb)
    | 0x09 => a / b
    | 0x0A => toTwos 24 (sa.tmod sb)
    | _ => a % b

/-- Class M (R197 to R205). -/
def aluM (r : Rod) (p : Prim) : Results :=
  let d := sDest p.w
  let n1 := sSrc1 p.w
  let n2 := sSrc2 p.w
  let a := rdG r n1
  let b := rdG r n2
  let sa := ofTwos 24 a
  let sb := ofTwos 24 b
  let mode := field (sImm p.w) 10 2
  let f1 := rdF32 r n1
  let f2 := rdF32 r n2
  let d1 := rdF64 r n1
  let d2 := rdF64 r n2
  match p.row.op with
  | 0x01 => wG d (a * b)
  | 0x02 => wG d (toTwos 48 (sa * sb) / 2 ^ 24)
  | 0x03 => wG d (a * b / 2 ^ 24)
  | 0x04 => wPair d (toTwos 48 (sa * sb))
  | 0x05 => wPair d (a * b)
  | 0x08 | 0x09 | 0x0A | 0x0B => wG d (divide24 p.row.op a b)
  | 0x10 => wPair d (fadd f32 mode f1 f2)
  | 0x11 => wPair d (fsub f32 mode f1 f2)
  | 0x12 => wPair d (fmul f32 mode f1 f2)
  | 0x13 => wPair d (fminmax f32 false f1 f2)
  | 0x14 => wPair d (fminmax f32 true f1 f2)
  | 0x18 => wPair d (fdiv f32 mode f1 f2)
  | 0x19 => wPair d (fsqrt f32 mode f1)
  | 0x1C | 0x1D | 0x1E | 0x1F => wP2 p (floatCondition p.row.op f1 f2)
  | 0x20 => wTriple d (fadd f64 mode d1 d2)
  | 0x21 => wTriple d (fsub f64 mode d1 d2)
  | 0x22 => wTriple d (fmul f64 mode d1 d2)
  | 0x23 => wTriple d (fminmax f64 false d1 d2)
  | 0x24 => wTriple d (fminmax f64 true d1 d2)
  | 0x28 => wTriple d (fdiv f64 mode d1 d2)
  | 0x29 => wTriple d (fsqrt f64 mode d1)
  | 0x2C | 0x2D | 0x2E | 0x2F => wP2 p (floatCondition p.row.op d1 d2)
  | 0x30 => wPair d (cvtFromInt f32 mode sa)
  | 0x31 => wG d (toTwos 24 (cvtToInt f32 mode 24 f1))
  | 0x32 => wPair d (cvtFromInt f32 mode (ofTwos 48 (rdPair r n1)))
  | 0x33 => wPair d (toTwos 48 (cvtToInt f32 mode 48 f1))
  | 0x34 => wTriple d (cvtFromInt f64 mode sa)
  | 0x35 => wG d (toTwos 24 (cvtToInt f64 mode 24 d1))
  | 0x36 => wTriple d (cvtFromInt f64 mode (ofTwos 48 (rdPair r n1)))
  | 0x37 => wPair d (toTwos 48 (cvtToInt f64 mode 48 d1))
  | 0x38 => wTriple d (cvtFF f32 f64 mode f1)
  | 0x39 => wPair d (cvtFF f64 f32 mode d1)
  | _ => []

/-- Whether an M syllable is of the divide class (R178). -/
def isDivide (p : Prim) : Bool :=
  p.row.cls == 2 && [0x08, 0x09, 0x0A, 0x0B, 0x18, 0x19, 0x28, 0x29].contains p.row.op

/-- Whether a syllable's guard holds (R165). -/
def guardHolds (r : Rod) (p : Prim) : Bool := rdP r (sPred p.w) != sSense p.w

/-- Register results of a syllable of class B, A or M. -/
def aluResults (r : Rod) (p : Prim) : Results :=
  match p.row.cls with
  | 0 => aluB r p
  | 1 => aluA r p
  | 2 => aluM r p
  | _ => []

/-! Landing of results (R126, R174). -/
/-- One write of a landing result; g0, p0 and s0 discard it (R124). -/
def landDest (r : Rod) (d : Dest) (v : Nat) : Rod :=
  match d with
  | .g n => if n = 0 then r else { r with g := r.g.setIfInBounds n (BitVec.ofNat 24 v) }
  | .p n => if n = 0 then r else { r with p := BitVec.ofNat 32 (setBitN r.p.toNat n (v % 2 == 1)) }
  | .lc n => { r with lc := r.lc.setIfInBounds n (BitVec.ofNat 24 v) }
  | .seg n => if n = 0 then r else { r with seg := r.seg.setIfInBounds n (BitVec.ofNat 24 v) }

/-- Whether a result is written before another: earlier due cycle, then lower slot, then earlier issue (R126). -/
def flightBefore (a b : Flight) : Bool :=
  if a.due ≠ b.due then decide (a.due < b.due)
  else if a.slot ≠ b.slot then decide (a.slot < b.slot)
  else decide (a.issued ≤ b.issued)
/-- A result inserted into a list in the order of writing. -/
def insertFlight (f : Flight) : List Flight → List Flight
  | [] => [f]
  | x :: r => if flightBefore x f then x :: insertFlight f r else f :: x :: r
/-- Results that have reached their distance by a cycle are written, in the order that leaves the winner of R126. -/
def landUpTo (r : Rod) (c : Nat) : Rod :=
  let due := r.flight.filter (fun f => f.due ≤ c)
  let ordered := due.foldr insertFlight []
  let r' := ordered.foldl (fun q f => landDest q f.dest f.value) r
  { r' with flight := r.flight.filter (fun f => c < f.due)
            divAt := match r.divAt with
              | some t => if t + 16 ≤ c then none else some t
              | none => none }

end Sys2Proof.Machine
end

