-- ==== Sys2Proof/Machine/Image.lean ====
section
/-! DEFINITION. The image and its strata: program reads and stores, forces, substitute values, the cut, the launch and the host view (R85 to R120). -/
namespace Sys2Proof.Machine
open Sys2Proof

def inPt (s : State) (p : Nat) : InPt :=
  (smGet s.img.ins p).getD { recv := none, cut := 0#24, substituted := true, good := 0#24, fresh := false, since := 0 }
def outPt (s : State) (p : Nat) : OutPt :=
  (smGet s.img.outs p).getD { work := 0#24, launch := 0#24, sent := 0#24, everSent := false, runVal := 0#24, liveVal := 0#24, since := 0 }

/-- The forced value of X: (X AND NOT M) OR (V AND M); only bit 0 of a bit point (R101). -/
def applyForce (f : Option (Word × Word)) (word : Bool) (x : Word) : Word :=
  match f with
  | none => x
  | some (m, v) =>
    let m := if word then m else m &&& 1#24
    (x &&& ~~~m) ||| (v &&& m)
/-- A force on the point that a reference names, with the class of the reference and the direction of the table in force. -/
def forceAt (tbl : SMap Point) (ref mask value : Nat) : Force :=
  { mask := BitVec.ofNat 24 mask, value := BitVec.ofNat 24 value, word := bitOf ref 23
    output := match smGet tbl (ref % 2 ^ 23) with | some p => p.output | none => false }
/-- A force as an entry of FORCE_SET. -/
def forceEntry (e : Nat × Force) : List Byte :=
  leBytes 4 (e.1 + 2 ^ 23 * b2n e.2.word) ++ leBytes 4 e.2.mask.toNat ++ leBytes 4 e.2.value.toNat
def forceOf (s : State) (p : Nat) : Option (Word × Word) := (smGet s.img.forces p).map (fun f => (f.mask, f.value))

/-- Substitute value of an input point (R99). -/
def substituteIn (pt : Point) (i : InPt) : Word :=
  match pt.subst with
  | 0 => 0#24
  | 1 => i.good
  | _ => if pt.word then pt.substValue else pt.substValue &&& 1#24
/-- Stop value of an output point (R100). -/
def stopValue (pt : Point) (o : OutPt) : Word :=
  match pt.subst with
  | 0 => 0#24
  | 1 => o.liveVal
  | _ => if pt.word then pt.substValue else pt.substValue &&& 1#24

/-- Order of image stores: cycle, then rod, then L slot (R189). -/
def istoreBefore (a b : IStore) : Bool :=
  if a.cycle ≠ b.cycle then decide (a.cycle < b.cycle)
  else if a.rod ≠ b.rod then decide (a.rod < b.rod)
  else decide (a.lslot ≤ b.lslot)
/-- The later of two stores to a point. -/
def laterStore (best : Option IStore) (x : IStore) : Option IStore :=
  match best with
  | none => some x
  | some y => if istoreBefore y x then some x else some y
/-- Working copy of an output point as a load issued at cycle c reads it: stores are readable 8 cycles after issue (R175, R211). -/
def workAt (s : State) (c p : Nat) : Word :=
  match (s.img.stores.filter (fun x => x.point = p ∧ x.cycle + 8 ≤ c)).foldl laterStore none with
  | some x => x.value
  | none => (outPt s p).work

/-- Value and quality (true GOOD) of an assigned point, as a program read at cycle c returns them (R98, R102, R111). -/
def pointRead (s : State) (c p : Nat) (pt : Point) : Word × Bool :=
  if pt.output then (workAt s c p, true)
  else let i := inPt s p; (applyForce (forceOf s p) pt.word i.cut, !i.substituted)

/-- Kind of an image access error under a table, if the access is one: 0 unassigned, 1 class mismatch, 2 store to an input (R112). A
store to an input of the other class reports the class: the spec orders neither (log 90). -/
def imageErrIn (tbl : SMap Point) (ref : Nat) (store : Bool) : Option Nat :=
  match smGet tbl (ref % 2 ^ 23) with
  | none => some 0
  | some pt =>
    if pt.word != bitOf ref 23 then some 1
    else if store && !pt.output then some 2
    else none

def imageErr (s : State) (ref : Nat) (store : Bool) : Option Nat := imageErrIn (pointTable s) ref store
/-- Count an image access error (R112, R253). -/
def countImageErr (s : State) (ref rod kind : Nat) : State :=
  let s1 := { s with img.errCount := satAdd s.img.errCount 1, img.lastRef := BitVec.ofNat 24 ref
                     img.lastRod := BitVec.ofNat 6 rod, img.lastKind := BitVec.ofNat 2 kind }
  let s2 := if cfgBit s1 0x03 0x100 1 && !s1.img.errNoted then
      { record s1 0x0320 [ref, rod, kind] with img.errNoted := true }
    else s1
  latchTrigger s2 (0xA00000 + rod)

/-- Bit points of a row (R91). -/
def rowPoints (r : Nat) : List Nat := ((List.range 24).map (fun i => 24 * r + i)).filter (fun p => p < 8388608)
/-- A bit row as a program read returns it, with its quality (R91, R210). -/
def rowRead (s : State) (c r : Nat) : Nat × Bool :=
  let tbl := pointTable s
  (rowPoints r).foldl (fun acc p =>
    match smGet tbl p with
    | some pt =>
      if pt.word then acc
      else
        let v := pointRead s c p pt
        (acc.1 + (v.1.toNat % 2) * 2 ^ (p - 24 * r), acc.2 && (pt.output || v.2))
    | none => acc) (0, true)

/-- An image store of one point in the running tick. -/
def imageStore (s : State) (c rod lslot p : Nat) (v : Word) : State :=
  { s with img.stores := { cycle := c, rod := rod, lslot := lslot, point := p, value := v } :: s.img.stores }
/-- The bits of a row store that reach assigned output bit points (R111). -/
def rowStore (s : State) (c rod lslot r v : Nat) : State :=
  let tbl := pointTable s
  (rowPoints r).foldl (fun s p =>
    match smGet tbl p with
    | some pt => if !pt.word && pt.output then imageStore s c rod lslot p (BitVec.ofNat 24 (b2n (v.testBit (p - 24 * r)))) else s
    | none => s) s

/-- At compute end the working copies hold what the stores left (R110, R189). -/
def foldStores (s : State) : State :=
  let ordered := s.img.stores.foldl (fun (acc : List IStore) x =>
    acc.filter (fun y => istoreBefore y x) ++ [x] ++ acc.filter (fun y => !istoreBefore y x)) []
  ordered.foldl (fun s x => { s with img.outs := smPut s.img.outs x.point { outPt s x.point with work := x.value } })
    { s with img.stores := [] }
/-- The launch copy takes the working copies (R110). -/
def takeLaunch (s : State) : State :=
  { s with img.outs := s.img.outs.map (fun e => (e.1, { e.2 with launch := e.2.work })) }

/-! ### Points of a table coming into force (R109, R117 to R120) -/

/-- Whether two descriptors keep a point across a change of table: same class, direction and source. A point of the same source with another
class or direction is neither new nor kept by the words of R118 and R119; it starts afresh (DESIGN CHOICE, log 124). -/
def keepsPoint (a b : Point) : Bool := a.word == b.word && a.output == b.output && a.source == b.source
/-- A point that starts afresh under a table: its working copy holds the stop value (R109), and so does its launch copy, of which the
spec says nothing until the first met deadline (log 89). -/
def freshOut (pt : Point) (since : Nat) : OutPt :=
  let o : OutPt := { work := 0#24, launch := 0#24, sent := 0#24, everSent := false, runVal := 0#24, liveVal := 0#24, since := since }
  let v := stopValue pt o
  { o with work := v, launch := v }
def freshIn (since : Nat) : InPt := { recv := none, cut := 0#24, substituted := true, good := 0#24, fresh := false, since := since }

/-- An input that waits for its source reads its substitute at once (R120). -/
def waitIn (pt : Point) (i : InPt) : InPt := { i with recv := none, fresh := false, cut := substituteIn pt i, substituted := true }

/-- The image when a new table comes into force at edge m: `keepSource` false at an ACTIVATE edge or after BOOT, where
every input waits for its source again (R120); true at a swap edge (R118, R119). A kept input shows the substitute of the SUBST of before, as the
new one governs from cut m+1 on. A local DIAG point is made GOOD at the end of the edge (`diagGood`, R426, log 91). -/
def newTable (s : State) (old new : SMap Point) (m : Nat) (swap : Bool) : State :=
  let ins := (new.filter (fun e => !e.2.output)).map (fun e =>
    match smGet old e.1 with
    | some o =>
      if keepsPoint o e.2 then
        (if swap then (e.1, inPt s e.1) else (e.1, waitIn o { inPt s e.1 with since := m }))
      else (e.1, waitIn e.2 (freshIn m))
    | none => (e.1, waitIn e.2 (freshIn m)))
  let outs := (new.filter (fun e => e.2.output)).map (fun e =>
    match smGet old e.1 with
    | some o => if keepsPoint o e.2 then (e.1, outPt s e.1) else (e.1, freshOut e.2 (m + 1))
    | none => (e.1, freshOut e.2 (m + 1)))
  { s with img.ins := ins, img.outs := outs, img.stores := [] }

/-- Forces on points that the new table leaves unassigned, or gives another CLASS or DIRECTION than the force was set under, are
removed, each recorded as 0x0312 (R117 step 2). -/
def dropForces (s : State) (new : SMap Point) : State :=
  s.img.forces.foldl (fun s e =>
    let keep := match smGet new e.1 with
      | some b => e.2.word == b.word && e.2.output == b.output
      | none => false
    if keep then s else record { s with img.forces := smDel s.img.forces e.1 } 0x0312 [e.1 + 2 ^ 23 * b2n e.2.word]) s

/-! ### The cut (R92 to R99) -/

/-- Whether an input point is due in cut n (R92); links are due with the phase of their station. -/
def dueIn (n phase divisor : Nat) (isLink : Bool) : Bool :=
  if isLink then (n + phase + 2 ^ divisor - 1) % 2 ^ divisor == 0 else n % 2 ^ divisor == 0
/-- Whether an output point is due at edge m (R93). -/
def dueOut (m phase divisor : Nat) : Bool := (m + phase) % 2 ^ divisor == 0

/-- One input point at the cut: what the source offers (none: nothing usable), whether the source is failed or lost,
whether a missing value substitutes a due point (a link round) or leaves it as it was. -/
def cutPoint (pt : Point) (i : InPt) (due lost missSubst : Bool) (offer : Option Word) : InPt :=
  let sub := substituteIn pt i
  if lost then { i with cut := sub, substituted := true, recv := none }
  else if !due then
    (if i.fresh then { i with recv := none } else { i with cut := sub, substituted := true, recv := none })
  else
    match offer with
    | some v => { i with cut := v, substituted := false, good := v, recv := none, fresh := true }
    | none =>
      if missSubst || !i.fresh then { i with cut := sub, substituted := true, recv := none }
      else { i with recv := none }

/-- An input point of a source whose value waits for the point's next due cut (R88, R411, R451, log 114). -/
def holdPoint (pt : Point) (i : InPt) (due lost : Bool) (offer : Option Word) : InPt :=
  let o := match offer with | some v => some v | none => i.recv
  let c := cutPoint pt i due lost false o
  if due || lost then c else { c with recv := o }
/-- Input points with quality SUBSTITUTED (R121). -/
def substitutedCount (s : State) : Nat := (s.img.ins.filter (fun (e : Nat × InPt) => e.2.substituted)).length

/-! ### The host view (R113 to R115) -/

def rawView (s : State) : Bool := cfgBit s 0x03 0x100 0
/-- Point entry of BAR2 (R114). -/
def viewEntry (s : State) (p : Nat) (pt : Point) : Dword :=
  let raw := rawView s
  let f := forceOf s p
  let v : Word :=
    if pt.output then
      let o := outPt s p
      if raw then o.launch else (if o.everSent then o.sent else 0#24)
    else if raw then (inPt s p).cut else applyForce f pt.word (inPt s p).cut
  let v := if pt.word then v.toNat else v.toNat % 2
  BitVec.ofNat 32 (v + 2 ^ 24 * b2n (!pt.output && (inPt s p).substituted) + 2 ^ 25 * b2n f.isSome +
    2 ^ 26 * b2n pt.output + 2 ^ 27 * b2n pt.word + 2 ^ 28)
/-- The view of the edge (R115). -/
def makeView (s : State) : View :=
  { tick := s.tck.tick, entries := (pointTable s).map (fun e => (e.1, viewEntry s e.1 e.2)) }
/-- The view of the running tick follows points whose cut changed after its edge: a failure that counts from that edge (R115, R121, R412). -/
def refreshView (s : State) (touched : Point → Bool) : State :=
  let tbl := pointTable s
  { s with img.cutSubst := BitVec.ofNat 24 (substitutedCount s)
           img.nextView := s.img.nextView.map (fun v => { v with entries := v.entries.map (fun e =>
             match smGet tbl e.1 with
             | some pt => if !pt.output && touched pt then (e.1, viewEntry s e.1 pt) else e
             | none => e) }) }
/-- Without a bank in force every entry of the image window reads as unassigned (R87). -/
def clearViews (s : State) : State :=
  { s with img.view := s.img.view.map (fun v => { v with entries := [] }), img.nextView := s.img.nextView.map (fun v => { v with entries := [] }) }
/-- The view in force: the newest one from offset 2 µs of its tick on. -/
def viewInForce (s : State) : Option View := if s.tck.ofs ≥ 2000 then s.img.nextView else s.img.view
/-- A dword of BAR2 (R113, R115). -/
def bar2Read (s : State) (ofs : Nat) : Dword :=
  match viewInForce s with
  | none => if ofs = 0x3FFF000 ∨ ofs = 0x3FFF004 then 0xFFFFFFFF#32 else 0#32
  | some v =>
    if ofs < 0x2000000 then (smGet v.entries (ofs / 4)).getD 0#32
    else if ofs ≤ 0x2155557 then
      let r := (ofs - 0x2000000) / 4
      BitVec.ofNat 32 ((rowPoints r).foldl (fun a p =>
        match smGet v.entries p with
        | some d => if d.getLsbD 27 then a else a + (d.toNat % 2) * 2 ^ (p - 24 * r)
        | none => a) 0)
    else if 0x2200000 ≤ ofs ∧ ofs ≤ 0x2355557 then
      let r := (ofs - 0x2200000) / 4
      BitVec.ofNat 32 ((rowPoints r).foldl (fun a p =>
        match smGet v.entries p with
        | some d => if d.getLsbD 27 then a else a + b2n (d.getLsbD 24) * 2 ^ (p - 24 * r)
        | none => a) 0)
    else if ofs = 0x3FFF000 then BitVec.ofNat 32 v.tick.toNat
    else if ofs = 0x3FFF004 then BitVec.ofNat 32 (v.tick.toNat / 2 ^ 32)
    else 0#32

end Sys2Proof.Machine
end

