-- ==== Sys2Proof/Machine/Rods.lean ====
section
/-! DEFINITION. The rods: compute start, segments, the issue of a bundle, landing of results and stores, the fetch queue (R123 to R143, R162 to R229, R246 to R248). -/
namespace Sys2Proof.Machine
open Sys2Proof

/-! ### Watchdog check-in (R512) -/

/-- Order of delivery: tick, rod cycle, rod, whatever the order of the commands (R227). -/
def deliveredBefore (a b : CheckIn) : Bool :=
  if a.tick ≠ b.tick then decide (a.tick < b.tick) else if a.cycle ≠ b.cycle then decide (a.cycle < b.cycle) else decide (a.rod < b.rod)
/-- The first double check-in of the tick, with another one. -/
def firstDouble (a : Option CheckIn) (b : CheckIn) : CheckIn :=
  match a with | some x => if deliveredBefore x b then x else b | none => b
/-- A TALLY of bit n by a rod in a rod cycle. Of two check-ins of one bit the one delivered later is the double one. -/
def checkIn (s : State) (rod c n : Nat) : State :=
  let bit : BitVec 32 := 1#32 <<< n
  let here : CheckIn := { tick := s.tck.tick.toNat, cycle := c, rod := rod, bit := n }
  let s1 := if s.wdt.reg.getLsbD n then s else { s with wdt.unreg := satAdd s.wdt.unreg 1 }
  if s.wdt.set.getLsbD n then
    let x := smGetD s.wdt.seen n here
    let p := if deliveredBefore here x then (here, x) else (x, here)
    { s1 with wdt.double := satAdd s.wdt.double 1, wdt.seen := smPut s1.wdt.seen n p.1
              wdt.twice := if cfgBit s 0x10 0x100 15 then some (firstDouble s.wdt.twice p.2) else s.wdt.twice }
  else { s1 with wdt.set := s1.wdt.set ||| bit, wdt.seen := smPut s1.wdt.seen n here }
/-- The tick's first double check-in is recorded when compute ends, where every rod has delivered its own (R227, log 135). -/
def reportDouble (s : State) : State :=
  match s.wdt.twice with
  | some x => record { s with wdt.twice := none } 0x1011 [x.bit, x.rod]
  | none => s

/-! ### Segments and access errors (R129 to R131, R171) -/

/-- What a segment number names under the bank in force. -/
inductive SegClass
  | unmapped
  | localMem
  | exchange (q : Nat)
  | desc (d : SegDesc)
deriving DecidableEq, Repr

def segClass (b : Bank) (seg : Nat) : SegClass :=
  if seg = 0 then .localMem
  else if 0x100 ≤ seg ∧ seg ≤ 0x12F then .exchange (seg - 0x100)
  else match smGet b.segs seg with
    | some d => .desc d
    | none => .unmapped
/-- The tests of R131 for an instance or constant segment of the kinds an opcode reaches. -/
def descErr (kinds : List Nat) (miss rod ofs n : Nat) (d : SegDesc) : Option Nat :=
  if !kinds.contains d.kind then some miss
  else if d.kind ≠ 3 ∧ d.owner ≠ rod then some 3
  else if ofs + n > d.length then some 1
  else none
/-- KIND of the access error of LDC, if any. -/
def ldcErr (b : Bank) (rod seg ofs : Nat) : Option Nat :=
  match segClass b seg with
  | .exchange _ => some 4
  | .desc d => descErr [1] 0 rod ofs 1 d
  | _ => some 0
/-- KIND of the access error of STC. -/
def stcErr (b : Bank) (rod seg ofs : Nat) : Option Nat :=
  match segClass b seg with
  | .desc d => descErr [1] 0 rod ofs 1 d
  | _ => some 0
/-- KIND of the access error of XST. -/
def xstErr (b : Bank) (seg ofs : Nat) : Option Nat :=
  match segClass b seg with
  | .exchange _ => if ofs ≥ 16384 then some 1 else none
  | _ => some 0
/-- KIND of the access error of the DRAM side of FETCH and TSTORE. -/
def fqErr (b : Bank) (store : Bool) (rod seg ofs n : Nat) : Option Nat :=
  match segClass b seg with
  | .desc d =>
    if store then (if d.kind = 3 then some 2 else descErr [2] 0 rod ofs n d) else descErr [2, 3] 0 rod ofs n d
  | _ => some 0
/-- KIND of the access error of the LOCAL side of FETCH and TSTORE. -/
def fqLocErr (limit loc n : Nat) : Option Nat :=
  if loc + n > 524288 then some 1 else if loc < limit ∨ loc + n > 0x7C000 then some 4 else none

/-- Count an access error (R131, R253). -/
def accessErr (s : State) (rod seg ofs kind : Nat) : State :=
  let s1 := { s with rods.errCount := satAdd s.rods.errCount 1, rods.lastSeg := BitVec.ofNat 24 seg
                     rods.lastRod := BitVec.ofNat 6 rod, rods.lastOfs := BitVec.ofNat 24 ofs, rods.lastKind := BitVec.ofNat 3 kind }
  let s2 := if cfgBit s1 0x04 0x100 0 && !s1.rods.errNoted then
      { record s1 0x0440 [seg, ofs, rod, kind] with rods.errNoted := true }
    else s1
  latchTrigger s2 (0xA00000 + rod)

/-! ### LOCAL memory and exchange (R132 to R136) -/

/-- A LOCAL word of a rod below 524,288. -/
def locWord (b : Bank) (rod : Nat) (r : Rod) (ofs : Nat) : Word :=
  let c := constOf b rod
  if ofs < c.1 then c.2.getD ofs 0#24 else smGetD r.loc ofs 0#24
/-- A store of the rod's own in cycle c; an exchange store that reached the word in that cycle stays (R136). -/
def locStore (s : State) (r : Rod) (c ofs : Nat) (v : Word) : State × Rod :=
  if ofs < 0x7C000 then (s, { r with loc := smPut r.loc ofs v })
  else
    let e := smGetD r.landed ofs (c + 1, 0, false)
    if e.1 = c then
      let s1 := if e.2.1 = 1 then { s with rods.collide := satAdd s.rods.collide 1 } else s
      (s1, { r with landed := smPut r.landed ofs (c, e.2.1 + 1, e.2.2)
                    loc := if e.2.2 then r.loc else smPut r.loc ofs v })
    else (s, { r with landed := smPut r.landed ofs (c, 1, false), loc := smPut r.loc ofs v })
/-- An exchange store reaches its word. -/
def xstStore (s : State) (r : Rod) (x : XStore) : State × Rod :=
  let ofs := 0x7C000 + x.ofs
  let e := smGetD r.landed ofs (x.due + 1, 0, false)
  let n := if e.1 = x.due then e.2.1 + 1 else 1
  let s1 := if n = 2 then { s with rods.collide := satAdd s.rods.collide 1 } else s
  (s1, { r with landed := smPut r.landed ofs (x.due, n, true), loc := smPut r.loc ofs x.value })
/-- Order of landing: cycle, then source rod (R136). Two stores of one rod that reach a word in one cycle, from L1 and a cycle later from L0,
land in the order of their issue, so the later one remains: R136 orders by source rod only (log 136). -/
def xstBefore (a b : XStore) : Bool := if a.due ≠ b.due then decide (a.due < b.due) else decide (a.src ≤ b.src)
def insertXst (x : XStore) : List XStore → List XStore
  | [] => [x]
  | y :: r => if xstBefore y x then y :: insertXst x r else x :: y :: r
/-- The exchange stores to a rod that are due by a cycle land. -/
def landXst (s : State) (rod : Nat) (r : Rod) (c : Nat) : State × Rod :=
  let due := (s.rods.xst.filter (fun x => x.dst = rod ∧ x.due ≤ c)).foldl (fun l x => insertXst x l) []
  due.foldl (fun sr x => xstStore sr.1 sr.2 x) ({ s with rods.xst := s.rods.xst.filter (fun x => !(x.dst = rod ∧ x.due ≤ c)) }, r)
/-- Cache-resident stores readable by a cycle reach the partition (R137). -/
def landCache (s : State) (r : Rod) (c : Nat) : State × Rod :=
  match s.ldr.inForce with
  | none => (s, r)
  | some b =>
    ((r.cstores.filter (fun e => e.1 ≤ c)).reverse.foldl (fun s e => putInst s b e.2.1 e.2.2) s,
     { r with cstores := r.cstores.filter (fun e => c < e.1) })
/-- Everything of a rod that has reached its distance by a cycle. -/
def landAll (s : State) (rod : Nat) (r : Rod) (c : Nat) : State × Rod :=
  let sr := landXst s rod (landUpTo r c) c
  landCache sr.1 sr.2 c

/-! ### The fetch queue (R138 to R142, R212 to R214) -/

/-- A trunk store reaches DRAM, in the bank it was issued under. -/
def storeWords (s : State) (bank : Option BankId) (seg base : Nat) (ws : List Word) : State :=
  match bank with
  | none => s
  | some b => (ws.foldl (fun (acc : State × Nat) w => (putInst acc.1 b (wordKey seg acc.2) w, acc.2 + 1)) (s, base)).1
/-- A trunk store that has not been accepted whole may complete all the same when it is abandoned (R140); either way the old bank then
holds what the migration must read again (R261). -/
def abandonOp (s : State) (o : FqOp) : State :=
  if storeWaits o then
    let f := freeBool s
    let s1 := if f.1 then storeWords f.2 o.bank o.seg o.base o.data else f.2
    if o.bank = s.ldr.inForce then markDirty s1 o.seg o.base o.len else s1
  else s
/-- An operation of a rod is abandoned, its preempted burst with it. -/
def abandonAt (s : State) (rod : Nat) (o : FqOp) : State :=
  let s1 := abandonOp s o
  match smGet s1.trk.preempted rod with
  | some g => if g.op = o.order then { s1 with trk.preempted := smDel s1.trk.preempted rod } else s1
  | none => s1
/-- Whether an operation is complete: a fetch when every burst is, a trunk store when the trunk has taken every burst. -/
def opComplete (o : FqOp) : Bool :=
  o.failed || (if o.store then o.bursts.all (fun b => b == .service || b == .done) else o.bursts.all (fun b => b == .done))
/-- An operation that a queue slot holds. -/
def fqAt (r : Rod) (slot : Nat) : Option FqOp := r.fq.toArray.getD slot none
/-- The retiring WAITF copies a fetch buffer to its destination, or writes zeros (R138, R213). -/
def retireOp (r : Rod) (slot : Nat) (o : FqOp) : Rod :=
  let ws := if o.failed then (if o.zeroFill then List.replicate o.len 0#24 else []) else if o.store then [] else o.data
  let loc := (ws.foldl (fun (acc : SMap Word × Nat) w => (smPut acc.1 acc.2 w, acc.2 + 1)) (r.loc, o.loc)).1
  { r with fq := r.fq.setIfInBounds slot none, loc := loc }

/-! ### Tracked writes (R143, R335) -/

/-- Octets of the records of a tracked write (R335). -/
def trackOctets (w : Tracked) : Nat := match w with | .trunk _ _ ws => 8 * (1 + ceilDiv (3 * ws.length) 8) | _ => 8
/-- Octets that wait in the transmit queue: the engines send 23 in a ns while both links are up (R337); with fewer lanes in proportion
to them (log 106). -/
def txWaiting (s : State) : Nat :=
  let lanes := ((List.range 8).filter (fun i => s.cry.lanes.getLsbD i)).length
  s.cry.txLevel - 23 * lanes * (s.now - s.cry.txAt) / 8
/-- A tracked write enters the delta of the tick while one is open; one that the 16 MiB transmit queue has no room for is discarded, with
all that follow in the tick (R340 case 1). -/
def track (s : State) (c rod lslot : Nat) (w : Tracked) : State :=
  if s.cry.sealTick.isSome && !s.cry.overflow then
    let n := txWaiting s + trackOctets w
    if n > 0x1000000 then { s with cry.overflow := true, cry.queueFull := true }
    else { s with cry.tracked := { cycle := c, rod := rod, lslot := lslot, what := w } :: s.cry.tracked, cry.txLevel := n, cry.txAt := s.now }
  else s

/-! ### Issue -/

/-- The rod and the rest of the state while a bundle's syllables act. -/
structure Issue where
  s : State
  r : Rod
deriving DecidableEq, Repr

/-- A result that lands at its distance. -/
def Issue.result (a : Issue) (c dist slot : Nat) (div : Bool) (d : Dest) (v : Nat) : Issue :=
  { a with r := { a.r with flight := { dest := d, value := v, due := c + dist, slot := slot, issued := c, div := div } :: a.r.flight } }
def Issue.results (a : Issue) (c dist slot : Nat) (div : Bool) (rs : Results) : Issue :=
  rs.foldl (fun a e => a.result c dist slot div e.1 e.2) a

/-- FETCH and TSTORE: the operation takes its queue slot (R140, R212, R213). r0 is the rod as the bundle reads it. Of two in one bundle that name one
slot the one later in code order abandons the other, with 0x0444: R140 gives no order within a bundle (log 94). -/
def issueFq (a : Issue) (b : Bank) (rod c : Nat) (r0 : Rod) (p : Prim) : Issue :=
  let store := p.row.op == 0x11
  let slot := sDest p.w
  let seg := rdSeg r0 (segNo p)
  let base := (rdG r0 (sSrc1 p.w) + field (sImm p.w) 0 9) % 2 ^ 24
  let loc := (rdG r0 (sSrc2 p.w) + fqLocDisp p) % 2 ^ 24
  let n := fqLen p
  let limit := (constOf b rod).1
  let derr := fqErr b store rod seg base n
  let lerr := fqLocErr limit loc n
  let s1 := match fqAt a.r slot with
    | none => a.s
    | some o =>
      let s := abandonAt a.s rod o
      if s.rods.reuseNoted then s else { record s 0x0444 [rod, slot] with rods.reuseNoted := true }
  let s2 := match derr, lerr with
    | some k, _ => accessErr s1 rod seg base k
    | none, some k => accessErr s1 rod 0 loc k
    | none, none => s1
  let failed := derr.isSome || lerr.isSome
  let data := if store && !failed then (List.range n).map (fun i => locWord b rod r0 (loc + i)) else []
  let o : FqOp := { store := store, bank := a.s.ldr.inForce, seg := seg, base := base, loc := loc, len := n, order := a.r.fqOrder, data := data
                    bursts := if failed then [] else List.replicate (ceilDiv n 64) .pending
                    failed := failed, zeroFill := failed && !store && lerr.isNone }
  let s3 := if store && !failed then markDirty (track s2 c rod (p.slot - 5) (.trunk seg base data)) seg base n else s2
  { s := s3, r := { a.r with fq := a.r.fq.setIfInBounds slot (some o), fqOrder := a.r.fqOrder + 1 } }

/-- A class L syllable whose guard holds (R206 to R213). -/
def issueL (a : Issue) (b : Bank) (rod c : Nat) (r0 : Rod) (p : Prim) : Issue :=
  let d := sDest p.w
  let lofs := (rdG r0 (sSrc1 p.w) + disp9 p) % 2 ^ 24
  let ref := (rdG r0 (sSrc1 p.w) + disp7 p) % 2 ^ 24
  let v := BitVec.ofNat 24 (rdG r0 (sSrc2 p.w))
  let seg := rdSeg r0 (segNo p)
  let qp := field (sImm p.w) 7 5
  let l := p.slot - 5
  match p.row.op with
  | 0x01 =>
    if lofs ≥ 524288 then { a with s := accessErr a.s rod 0 lofs 1 }.result c 3 p.slot false (.g d) 0
    else a.result c 3 p.slot false (.g d) (locWord b rod r0 lofs).toNat
  | 0x02 =>
    if lofs < (constOf b rod).1 then { a with s := accessErr a.s rod 0 lofs 2 }
    else if lofs ≥ 524288 then { a with s := accessErr a.s rod 0 lofs 1 }
    else let sr := locStore a.s a.r c lofs v; { s := sr.1, r := sr.2 }
  | 0x03 =>
    match ldcErr b rod seg lofs with
    | some k => { a with s := accessErr a.s rod seg lofs k }.result c 8 p.slot false (.g d) 0
    | none =>
      let w := match a.s.ldr.inForce with | some bk => instWord a.s bk (wordKey seg lofs) | none => 0#24
      a.result c 8 p.slot false (.g d) w.toNat
  | 0x04 =>
    match stcErr b rod seg lofs with
    | some k => { a with s := accessErr a.s rod seg lofs k }
    | none =>
      { s := markDirty (track a.s c rod l (.cache seg lofs v.toNat)) seg lofs 1
        r := { a.r with cstores := (c + 8, wordKey seg lofs, v) :: a.r.cstores } }
  | 0x05 =>
    match xstErr b seg lofs with
    | some k => { a with s := accessErr a.s rod seg lofs k }
    | none => { a with s := { a.s with rods.xst := a.s.rods.xst ++ [{ due := c + 32 + l, src := rod, dst := seg - 0x100, ofs := lofs, value := v }] } }
  | 0x08 =>
    match imageErr a.s ref false, smGet (pointTable a.s) (ref % 2 ^ 23) with
    | none, some pt =>
      let e := pointRead a.s c (ref % 2 ^ 23) pt
      let w := if pt.word then e.1.toNat else e.1.toNat % 2
      (a.result c 8 p.slot false (.g d) w).result c 8 p.slot false (.p qp) (b2n e.2)
    | k, _ =>
      ({ a with s := countImageErr a.s ref rod (k.getD 0) }.result c 8 p.slot false (.g d) 0).result c 8 p.slot false (.p qp) 0
  | 0x09 =>
    if ref > 349525 then
      ({ a with s := countImageErr a.s ref rod 0 }.result c 8 p.slot false (.g d) 0).result c 8 p.slot false (.p qp) 0
    else
      let e := rowRead a.s c ref
      (a.result c 8 p.slot false (.g d) e.1).result c 8 p.slot false (.p qp) (b2n e.2)
  | 0x0A =>
    match imageErr a.s ref true, smGet (pointTable a.s) (ref % 2 ^ 23) with
    | none, some pt =>
      let w := if pt.word then v else v &&& 1#24
      { a with s := track (imageStore a.s c rod l (ref % 2 ^ 23) w) c rod l (.output ref w.toNat) }
    | k, _ => { a with s := countImageErr a.s ref rod (k.getD 0) }
  | 0x0B =>
    if ref > 349525 then { a with s := countImageErr a.s ref rod 0 }
    else { a with s := track (rowStore a.s c rod l ref v.toNat) c rod l (.row ref v.toNat) }
  | _ => issueFq a b rod c r0 p

/-- A transfer to an address: taken or not, its two delay bundles follow (R179). -/
def Issue.transfer (a : Issue) (target : Option Nat) : Issue := { a with r := { a.r with delay := 2, target := target } }
/-- Address of the bundle after n further bundles in code order, by STOP bits. -/
def skipBundles (code : List Nat) : Nat → Nat → Nat
  | 0, addr => addr
  | n + 1, addr => skipBundles code n (addr + (bundleExtent code addr).1)

/-- A class C syllable whose guard holds; pc is the bundle's address, next the address after it (R214 to R229). -/
def issueC (a : Issue) (rod c : Nat) (r0 : Rod) (p : Prim) (code : List Nat) (pc next : Nat) : Issue :=
  let dest := (((pc : Int) + branchDisp p) % (2 ^ 24 : Nat)).toNat
  let v := rdG r0 (sSrc1 p.w)
  match p.row.op with
  | 0x01 => a.transfer (some dest)
  | 0x02 =>
    let n := (rdLc r0 (sDest p.w) + 0xFFFFFF) % 2 ^ 24
    (a.result c 1 7 false (.lc (sDest p.w)) n).transfer (if n ≠ 0 then some dest else none)
  | 0x03 =>
    let b := { a with r := { a.r with stack := (skipBundles code 2 next, BitVec.ofNat 24 (rdSeg r0 7)) :: a.r.stack } }
    (b.result c 3 7 false (.seg 7) v).transfer (some dest)
  | 0x04 =>
    match a.r.stack with
    | [] => a
    | f :: rest => ({ a with r := { a.r with stack := rest } }.result c 3 7 false (.seg 7) f.2.toNat).transfer (some f.1)
  | 0x08 => { a with r := { a.r with rept := sImm p.w + 1 } }
  | 0x09 =>
    if v > 4096 then
      let s1 := if a.r.clampNoted then a.s else latchTrigger (record a.s 0x0453 [rod, pc, v]) (0xB00000 + rod)
      { s := s1, r := { a.r with rept := 4096, clampNoted := true } }
    else { a with r := { a.r with rept := v } }
  | 0x0A => a.result c 1 7 false (.lc (sDest p.w)) v
  | 0x0B => a.result c 1 7 false (.lc (sDest p.w)) (immU p)
  | 0x10 =>
    let slot := field (sImm p.w) 0 4
    match fqAt r0 slot with
    | none => a
    | some o =>
      if fqAt a.r slot ≠ some o then a
      else if opComplete o then { a with r := retireOp a.r slot o }
      else { a with r := { a.r with run := .stalled slot a.s.now } }
  | 0x11 => { a with s := checkIn a.s rod c (field (sImm p.w) 0 5) }
  | 0x12 =>
    let s1 := if a.r.signals < 8 then record a.s 0x0460 [sImm p.w, rod, v, pc] else a.s
    { s := s1, r := { a.r with signals := a.r.signals + 1 } }
  | 0x1F => { a with r := { a.r with run := .waiting } }
  | _ => a

/-- A primary syllable acts if its guard holds (R165). -/
def issuePrim (b : Bank) (rod c : Nat) (r0 : Rod) (code : List Nat) (pc next : Nat) (a : Issue) (p : Prim) : Issue :=
  if !guardHolds r0 p then a
  else
    match p.row.cls with
    | 3 => issueL a b rod c r0 p
    | 4 => issueC a rod c r0 p code pc next
    | _ =>
      if isDivide p then
        let r := { a.r with flight := a.r.flight.filter (fun f => !f.div), divAt := some c }
        { a with r := r }.results c p.row.dist p.slot true (aluResults r0 p)
      else a.results c p.row.dist p.slot false (aluResults r0 p)

/-! ### Schedules (R245 to R248) -/

/-- Whether a segment's task runs in this tick. -/
def segRuns (s : State) (g : SchedSeg) : Bool := s.tasks.released.any (fun x => x.task = g.task)
/-- Index of the next segment of a rod that runs, from an index on. -/
def nextSeg (s : State) (b : Bank) (rod pos : Nat) : Option Nat :=
  let l := smGetD b.scheds rod []
  ((List.range l.length).filter (fun i => pos ≤ i)).find? (fun i => match l[i]? with | some g => segRuns s g | none => false)

/-- Compute ends when every rod has reached its schedule end: working copies hold the stores (R110). -/
def finishCompute (s : State) : State :=
  let s1 := reportDouble ((List.range 48).foldl (fun s n =>
    let sr := landCache s (rodAt s n) ((rodAt s n).cycle + 8)
    setRod sr.1 n sr.2) s)
  foldStores { s1 with tck.phase := .ended, tck.endOfs := some s1.tck.ofs }
/-- Close compute if every rod is done. -/
def closeCompute (s : State) : State :=
  if s.tck.phase = .compute ∧ s.rods.rods.toList.all (fun r => r.run == .done) then finishCompute s else s
/-- A rod reaches its schedule end; the signals dropped are recorded there, or at the tick edge for a rod cut off: R228 names no instant
within the tick (log 137). -/
def rodDone (s : State) (rod : Nat) (r : Rod) : State :=
  let s1 := setRod s rod { r with run := .done }
  if r.signals > 8 then latchTrigger (record s1 0x0461 [rod, r.signals - 8]) (0xB00000 + rod) else s1

/-- Compute may go on at a cycle: no fault has abandoned it, or only one of a later rod cycle (R27, R185). -/
def computeGoes (s : State) (c : Nat) : Bool :=
  s.tck.phase == .compute &&
  match s.tck.pend with
  | none => true
  | some f => match f.cycle with | some fc => decide (c ≤ fc) | none => false

/-- A fault of a rod in a cycle: the bundle does not issue. -/
def rodFault (s : State) (rod : Nat) (r : Rod) (code c : Nat) (ps : List Nat) : State :=
  raiseFault (setRod s rod { r with cycle := r.cycle + 1 }) code (some c) rod ps

/-- A word of rod-local memory or the instance cache fails its check in a rod cycle (R147). -/
def wordErr (s : State) (rod c : Nat) (x : WordErr) : State :=
  match x with
  | .corrected => record { s with rods.eccCorrected := satAdd s.rods.eccCorrected 1 } 0x0441 [rod]
  | .uncorrectable ofs => raiseFault s 0x0442 (some c) rod [rod, ofs.toNat]
/-- The syllables of a checked bundle in the order in which they act: a WAITF last. So its copy remains beside an STL to the same word (log 138),
and a slot that a FETCH or TSTORE beside it takes is no longer its own (R140, R163, log 94). -/
def actOrder (ps : List Prim) : List Prim := ps.filter (fun p => !isWaitf p.row) ++ ps.filter (fun p => isWaitf p.row)
/-- The syllables of a checked bundle act, and the rod goes on (R163, R179, R222). r has landed results up to cycle c. -/
def issueBundle (s : State) (b : Bank) (rod : Nat) (r : Rod) (code : List Nat) (ps : List Prim) (len : Nat) (e : List WordErr) : State :=
  let c := r.cycle
  let pc := r.pc
  let next := pc + len
  let transfer := ps.any (fun p => isTransfer p.row)
  let rept := ps.any (fun p => isRept p.row)
  let a := (actOrder ps).foldl (issuePrim b rod c r code pc next) { s := s, r := { r with noC := r.noC - 1 } }
  -- the hidden count and the next address
  let r1 := a.r
  let skip := bundleExtent code next
  let taken := rept && ps.any (fun p => isRept p.row && guardHolds r p)
  let r2 : Rod :=
    if taken then
      if r1.rept = 0 then
        { r1 with pc := if skip.2 then next + skip.1 else next, noC := 0, skipBad := !skip.2 }
      else { r1 with pc := next, noC := 1 }
    else if r.rept > 1 then { r1 with rept := r.rept - 1 }
    else
      let r1 := { r1 with rept := 0, noC := if transfer then 2 else if rept then 1 else r1.noC }
      if r.delay = 1 then
        { r1 with delay := 0, target := none, pc := r.target.getD next }
      else { r1 with pc := next, delay := if r.delay = 2 then 1 else r1.delay }
  let r3 : Rod := { r2 with cycle := match r2.run with | .stalled _ _ => c | _ => c + 1 }
  let s1 := a.s
  let s2 :=
    if r3.run = .waiting then
      let r4 : Rod := { r3 with flight := [], divAt := none, pos := r.pos + 1, delay := 0, target := none, rept := 0, noC := 0 }
      match nextSeg s1 b rod r4.pos with
      | some _ => setRod s1 rod r4
      | none => rodDone s1 rod r4
    else setRod s1 rod r3
  e.foldl (fun s x => wordErr s rod c x) s2

/-- A rod issues the bundle at its pc in its cycle (R161, R182, R183, R185, R218, R219). The code address of 0x0445 is the bundle's, as in
0x0450; R186 does not say which. The fault of a repeated bundle without STOP gives no index: R182 names one, R183 has no place for it (log 140). -/
def issueAt (s : State) (b : Bank) (rod : Nat) (e : IssueEcc) : State :=
  let sr := landAll s rod (rodAt s rod) (rodAt s rod).cycle
  let s := sr.1
  let r := sr.2
  let c := r.cycle
  let code := smGetD b.code rod []
  let s := (List.range e.codeCorrected).foldl (fun s _ => record s 0x0446 [rod]) s
  if e.codeLost then rodFault s rod r 0x0445 c [rod, r.pc]
  else if r.skipBad then rodFault s rod r 0x0450 c [rod, r.pc, 7]
  else
    match checkBundle code r.pc (r.noC > 0) with
    | .bad rule _ => rodFault s rod r 0x0450 c [rod, r.pc, rule]
    | .ok ps len =>
      if r.stack.length ≥ 16 && ps.any (fun p => p.row.cls == 4 && p.row.op == 3 && guardHolds r p) then
        rodFault s rod r 0x0451 c [rod, r.pc]
      else if r.stack.isEmpty && ps.any (fun p => p.row.cls == 4 && p.row.op == 4 && guardHolds r p) then
        rodFault s rod r 0x0452 c [rod, r.pc]
      else closeCompute (issueBundle s b rod r code ps len e.mem)

/-! ### The commands -/

/-- BUNDLE_ISSUE. -/
def bundleIssue (s : State) (rod : Nat) (e : IssueEcc) : State :=
  match bankInForce s with
  | none => s
  | some b => if (rodAt s rod).run = .running ∧ computeGoes s (rodAt s rod).cycle then issueAt s b rod e else s

/-- SEGMENT_START: entry registers, then the entry bundle (R246, R247). -/
def segmentStart (s : State) (rod : Nat) (e : IssueEcc) : State :=
  match bankInForce s with
  | none => s
  | some b =>
    let r := rodAt s rod
    match nextSeg s b rod r.pos with
    | none => s
    | some i =>
      match (smGetD b.scheds rod [])[i]? with
      | none => s
      | some g =>
        let c := max r.cycle g.start
        if r.run = .waiting ∧ computeGoes s c then
          let rel := s.tasks.released.find? (fun x => x.task = g.task)
          let late := decide (r.cycle > g.start)
          let s1 := if late && !r.late then record s 0x0470 [rod] else s
          let sr := landAll s1 rod r c
          let q := landDest (landDest (landDest sr.2 (.g 1) (match rel with | some x => min x.count 0xFFFFFF | none => 0))
            (.g 2) (match rel with | some x => x.first | none => 0)) (.g 3) (s.tck.tick.toNat % 2 ^ 24)
          issueAt (setRod sr.1 rod { q with run := .running, cycle := c, pos := i, pc := g.entry, late := r.late || late, task := g.task }) b rod e
        else s

/-- RESULT_LAND: results whose distance has passed are in their registers (R174). -/
def resultLand (s : State) (rod : Nat) : State := setRod s rod (landUpTo (rodAt s rod) (rodAt s rod).cycle)

/-- Cycle up to which stores to a rod's exchange region have landed: the one it issues next, or any once it is done. -/
def xstHorizon (s : State) (rod : Nat) : Nat :=
  let r := rodAt s rod
  match r.run with
  | .done => s.rods.xst.foldl (fun m x => max m x.due) 0
  | .waiting =>
    match bankInForce s with
    | some b =>
      match nextSeg s b rod r.pos with
      | some i => match (smGetD b.scheds rod [])[i]? with | some g => max r.cycle g.start | none => r.cycle
      | none => r.cycle
    | none => r.cycle
  | _ => r.cycle
/-- XST_LAND: exchange stores to a rod land at their cycles (R135, R136). -/
def xstLand (s : State) (rod : Nat) : State :=
  let sr := landXst s rod (rodAt s rod) (xstHorizon s rod)
  setRod sr.1 rod sr.2

/-- WAITF_RETIRE: a stalled WAITF whose operation is complete retires (R138); the stall lasted the given rod cycles and ns. -/
def waitfRetire (s : State) (rod cycles ns : Nat) : State :=
  let r := rodAt s rod
  match r.run with
  | .stalled slot _ =>
    match fqAt r slot with
    | none => s
    | some o =>
      if opComplete o && computeGoes s (r.cycle + cycles) then
        let q := { retireOp r slot o with run := .running, cycle := r.cycle + cycles + 1 }
        let s1 := setRod s rod q
        if ns > s1.rods.waitfNs.toNat then
          { s1 with rods.waitfNs := BitVec.ofNat 24 (min ns 0xFFFFFF), rods.waitfRod := BitVec.ofNat 6 rod }
        else s1
      else s
  | _ => s

/-- A rod at compute start: everything cleared; waiting for its first segment, or done (R128, R217, R248). -/
def freshRod (s : State) (b : Bank) (rod : Nat) : Rod :=
  { Rod.reset with fqOrder := (rodAt s rod).fqOrder, run := if (nextSeg s b rod 0).isSome then .waiting else .done }
/-- COMPUTE_START: registers, stacks and queues are cleared, unwaited operations abandoned, and the delta opens (R128, R142, R336). -/
def computeStart (s : State) : State :=
  match bankInForce s with
  | none => s
  | some b =>
    if s.tck.computing ∧ s.tck.phase = .edge then
      let s1 := (List.range 48).foldl (fun s n =>
        (rodAt s n).fq.toList.foldl (fun s o => match o with | some o => abandonAt s n o | none => s) s) s
      let s2 := { s1 with rods.rods := Vector.ofFn (fun (i : Fin 48) => freshRod s1 b i.val), rods.xst := [], img.stores := [], tck.phase := .compute }
      let s3 := if holdsClaim s2 && partnerShadow s2 then
          { s2 with cry.sealTick := some s2.tck.tick, cry.tracked := [], cry.records := [], cry.overflow := false, cry.queueFull := false }
        else s2
      closeCompute s3
    else s

def execBundleIssue (rod : Fin 48) (e : IssueEcc) (s : State) : Host.Outcome State Fault Refusal := .next (bundleIssue s rod.val e)
def execSegmentStart (rod : Fin 48) (e : IssueEcc) (s : State) : Host.Outcome State Fault Refusal := .next (segmentStart s rod.val e)
def execResultLand (rod : Fin 48) (s : State) : Host.Outcome State Fault Refusal := .next (resultLand s rod.val)
def execXstLand (rod : Fin 48) (s : State) : Host.Outcome State Fault Refusal := .next (xstLand s rod.val)
def execWaitfRetire (rod : Fin 48) (cycles ns : Nat) (s : State) : Host.Outcome State Fault Refusal := .next (waitfRetire s rod.val cycles ns)
def execComputeStart (s : State) : Host.Outcome State Fault Refusal := .next (computeStart s)

end Sys2Proof.Machine
end

