-- ==== Sys2Proof/Machine/Trunk.lean ====
section
/-! DEFINITION. The trunk: grants, grant phases, bursts in service, quota windows (R144 to R156). -/
namespace Sys2Proof.Machine
open Sys2Proof

/-- Class of a requester (R148). -/
def trunkClass (who : Nat) : Nat := if who < 48 then 1 else if who < 72 then 3 else if who < 74 then 2 else 0
/-- Grants of a requester in the window. -/
def grantsOf (s : State) (who : Nat) : Nat := smGetD s.trk.counts who 0
/-- Grants of class 0 in the window. -/
def floorGrants (s : State) : Nat := [74, 75, 76, 77].foldl (fun a w => a + grantsOf s w) 0
/-- Whether a requester has used up its quota (R150). -/
def masked (s : State) (who : Nat) : Bool :=
  match trunkClass who with
  | 3 => decide (grantsOf s who ≥ cfgField s 0x12 0x100 0 5)
  | 2 => decide (grantsOf s who ≥ cfgField s 0x12 0x100 8 8)
  | _ => false
/-- Rank of a request: class 0 ranks above class 1 below its floor (R151). -/
def trunkRank (s : State) (who : Nat) : Nat :=
  match trunkClass who with
  | 3 => 4
  | 2 => 3
  | 1 => 1
  | _ => if floorGrants s < cfgField s 0x12 0x100 16 8 then 2 else 0
/-- The next burst of a rod, by order number of its operation and index: oldest operation first, bursts in address order (R149). -/
def rodBurst (r : Rod) : Option (Nat × Nat) :=
  r.fq.toList.foldl (fun (best : Option (Nat × Nat)) o =>
    match o with
    | none => best
    | some o =>
      match o.bursts.findIdx? (fun b => b == .pending) with
      | none => best
      | some j => match best with | none => some (o.order, j) | some y => if o.order < y.1 then some (o.order, j) else best) none
/-- The requests the arbiter sees: rods with a burst pending, and the others that have one, named by the sender. -/
def requests (s : State) (others : List Nat) : List Nat :=
  ((List.range 48).filter (fun n => (rodBurst (rodAt s n)).isSome) ++
   (List.range 30).filterMap (fun i => if others.contains (48 + i) then some (48 + i) else none)).filter (fun w => !masked s w)
/-- Round robin: the first requester of a class after the last one granted. -/
def roundRobin (last : Nat) (ws : List Nat) : Option Nat :=
  match ws.find? (fun w => decide (last < w)) with
  | some w => some w
  | none => ws.head?
/-- The request that wins the arbitration. -/
def arbitrate (s : State) (others : List Nat) : Option Nat :=
  let rs := requests s others
  let top := rs.foldl (fun m w => max m (trunkRank s w)) 0
  let ws := rs.filter (fun w => trunkRank s w = top)
  match ws with
  | [] => none
  | w :: _ => roundRobin (s.trk.lastOf.toArray.getD (trunkClass w) 0) ws

/-- An operation that a rod still holds, by its order number. -/
def findOp (r : Rod) (op : Nat) : Option FqOp := (r.fq.toList.filterMap id).find? (fun o => o.order = op)
/-- An operation changed where its rod still holds it. -/
def setOp (s : State) (rod op : Nat) (f : FqOp → FqOp) : State :=
  let r := rodAt s rod
  setRod s rod { r with fq := r.fq.map (fun o => match o with | some o => some (if o.order = op then f o else o) | none => none) }
/-- A burst's state written. -/
def setBurst (s : State) (rod op j : Nat) (b : BurstSt) : State := setOp s rod op (fun o => { o with bursts := o.bursts.set j b })
/-- The time a burst has held the grant stage, with the longest shown in TRK_HELD. -/
def noteHeld (s : State) (who first : Nat) : State :=
  let t := min (s.now - first) 0xFFFF
  if t > s.trk.heldMax.toNat then { s with trk.heldMax := BitVec.ofNat 16 t, trk.heldMaxWho := BitVec.ofNat 7 who } else s
/-- Preemption: the burst goes back to pending, to restart from its first byte (R149, R153); a burst whose operation has been abandoned does not. -/
def preempt (s : State) (g : Grant) : State :=
  let s1 := if g.who < 48 then setBurst s g.who g.op g.burst .pending else s
  let gone := g.who < 48 && (findOp (rodAt s g.who) g.op).isNone
  { s1 with trk.grant := none, trk.preempted := if gone then s1.trk.preempted else smPut s1.trk.preempted g.who g }
/-- A preempted burst is granted again: it restarts (R149, R155). -/
def countRestart (s : State) (who : Nat) : State :=
  if (smGet s.trk.preempted who).isNone then s
  else if trunkClass who = 1 then { s with trk.rodRestarts := satAdd s.trk.rodRestarts 1 }
  else { s with trk.otherRestarts := satAdd s.trk.otherRestarts 1 }
/-- The arbiter grants the stage to a requester. -/
def grantTo (s : State) (who : Nat) : State :=
  let n := grantsOf s who + 1
  let floor := trunkClass who = 0 && floorGrants s < cfgField s 0x12 0x100 16 8
  let before := smGet s.trk.preempted who
  let first := match before with | some g => g.first | none => s.now
  let named := match before with | some g => g.named | none => false
  let at' := if who < 48 then (rodBurst (rodAt s who)).getD (0, 0) else (0, 0)
  let s0 := countRestart s who
  let s1 := if who < 48 then setBurst s0 who at'.1 at'.2 .granted else s0
  let s2 := { s1 with trk.grant := some { who := who, first := first, op := at'.1, burst := at'.2, floor := floor, named := named }
                      trk.preempted := smDel s1.trk.preempted who, trk.counts := smPut s1.trk.counts who n
                      trk.lastOf := s1.trk.lastOf.setIfInBounds (trunkClass who) who }
  { s2 with trk.linkMaskedNow := s2.trk.linkMaskedNow || (trunkClass who = 3 && masked s2 who)
            trk.carryMaskedNow := s2.trk.carryMaskedNow || (trunkClass who = 2 && masked s2 who) }

/-- TRUNK_GRANT: the arbiter grants a free stage, or a request of a higher class preempts the burst that holds it. -/
def trunkGrant (s : State) (others : List Nat) : State :=
  match s.trk.grant with
  | none => match arbitrate s others with | some w => grantTo s w | none => s
  | some g =>
    match arbitrate s others with
    | none => s
    | some w =>
      let held := if g.floor then 2 else if trunkClass g.who = 0 then 0 else trunkRank s g.who
      if trunkClass w ≠ trunkClass g.who ∧ trunkRank s w > held then grantTo (preempt s g) w else s

/-- The words of burst j of an operation: first word and count (R145). -/
def burstRange (o : FqOp) (j : Nat) : Nat × Nat := (64 * j, min 64 (o.len - 64 * j))
/-- A burst of a rod meets DRAM: a store writes its latched words, a fetch reads (R139, R149). -/
def burstAccess (s : State) (rod op j : Nat) : State :=
  match findOp (rodAt s rod) op, (findOp (rodAt s rod) op).bind (fun o => o.bank) with
  | some o, some b =>
    let k := burstRange o j
    if o.store then storeWords s o.bank o.seg (o.base + k.1) ((o.data.drop k.1).take k.2)
    else
      let ws := (List.range k.2).map (fun i => instWord s b (wordKey o.seg (o.base + k.1 + i)))
      let pad := o.data ++ List.replicate (o.len - o.data.length) 0#24
      setOp s rod op (fun o => { o with data := pad.take k.1 ++ ws ++ pad.drop (k.1 + k.2) })
  | _, _ => s
/-- GRANT_PHASE_END: the memory controller has the burst; it is in service and the stage is free (R149). -/
def grantPhaseEnd (s : State) : State :=
  match s.trk.grant with
  | none => s
  | some g =>
    let s1 := { noteHeld s g.who g.first with trk.grant := none }
    if g.who < 48 then
      let s2 := setBurst (burstAccess s1 g.who g.op g.burst) g.who g.op g.burst .service
      { s2 with trk.service := s2.trk.service ++ [(g.who, g.op, g.burst)] }
    else { s1 with trk.service := s1.trk.service ++ [(g.who, 0, 0)] }

/-- Stack of an address: addresses interleave every 256 bytes. -/
def stackOf (addr : BitVec 48) : Nat := (addr.toNat / 256) % 2
/-- An uncorrectable codeword in what a requester reads: in a program bank or a segment a fault, in the recorder ring or a host buffer
an event; a ring slot becomes unreadable (R146, R496). -/
def dramLost (s : State) (who : Nat) (addr : BitVec 48) (area : DramArea) : State :=
  match area with
  | .program => raiseFault s 0x1220 none who [stackOf addr, addr.toNat / 2 ^ 24, addr.toNat % 2 ^ 24]
  | .hostBuffer => record s 0x1222 [who]
  | .ring n =>
    let s1 := record { s with recd.unreadable := (n % ringSlots) :: s.recd.unreadable } 0x1222 [who]
    match ringIndexAt s.recd n with
    | some i => record s1 0x0F15 [(i / 2 ^ 24) % 256, i % 2 ^ 24]
    | none => s1
/-- A codeword of a burst that fails its check (R146). -/
def dramErr (s : State) (who : Nat) (x : DramErr) : State :=
  match x with
  | .corrected addr => record { s with trk.eccCorrected := satAdd s.trk.eccCorrected 1
                                       cry.corrections := if s.tck.mode = .shadow then satAdd s.cry.corrections 1 else s.cry.corrections } 0x1221 [stackOf addr]
  | .uncorrectable addr area => dramLost s who addr area
/-- TRUNK_BURST_DONE: a burst of a requester is complete, with the check of its codewords (R145, R146). Of several in service the oldest
completes: the spec orders them nowhere (log 95). -/
def trunkBurstDone (s : State) (who : Nat) (errs : List DramErr) : State :=
  match s.trk.service.find? (fun x => x.1 = who) with
  | none => s
  | some x =>
    let s1 := { s with trk.service := s.trk.service.erase x }
    let s2 := if who < 48 then setBurst s1 who x.2.1 x.2.2 .done else s1
    errs.foldl (fun s e => dramErr s who e) s2

/-- QUOTA_WINDOW: every count restarts (R150). -/
def quotaWindow (s : State) : State :=
  { s with trk.counts := []
           trk.linkMasked := if s.trk.linkMaskedNow then satAdd s.trk.linkMasked 1 else s.trk.linkMasked
           trk.carryMasked := if s.trk.carryMaskedNow then satAdd s.trk.carryMasked 1 else s.trk.carryMasked
           trk.linkMaskedNow := false, trk.carryMaskedNow := false }

/-- The older of two uses of the grant stage, by its first grant. -/
def olderGrant (a : Option Grant) (g : Grant) : Option Grant :=
  if g.named then a else match a with | none => some g | some x => if g.first < x.first then some g else some x
/-- The burst that has held the grant stage longest, the time after a preemption included, and has not been named (R153). -/
def longestHeld (s : State) : Option Grant :=
  (s.trk.preempted.map (fun e => e.2)).foldl olderGrant (match s.trk.grant with | some g => olderGrant none g | none => none)
/-- GRANT_HELD_LONG: a burst has held the stage for 50 µs (R153). -/
def grantHeldLong (s : State) : State :=
  match longestHeld s with
  | some g =>
    let name (x : Grant) : Grant := if x = g then { x with named := true } else x
    record { s with trk.grant := s.trk.grant.map name, trk.preempted := s.trk.preempted.map (fun e => (e.1, name e.2))
                    trk.heldLong := true, trk.heldWho := BitVec.ofNat 7 g.who } 0x1210 [g.who]
  | none => s

/-- Rod share S for quotas (R152). -/
def rodShare (link carry floor : Nat) : Nat := (1000 - 2 * (24 * link + 2 * carry + floor)) / 48
/-- Rod share in force. -/
def shareNow (s : State) : Nat := rodShare (cfgField s 0x12 0x100 0 5) (cfgField s 0x12 0x100 8 8) (cfgField s 0x12 0x100 16 8)

def execTrunkGrant (others : List Nat) (s : State) : Host.Outcome State Fault Refusal := .next (trunkGrant s others)
def execTrunkBurstDone (requester : Nat) (errs : List DramErr) (s : State) : Host.Outcome State Fault Refusal :=
  .next (trunkBurstDone s requester errs)
def execQuotaWindow (s : State) : Host.Outcome State Fault Refusal := .next (quotaWindow s)
def execGrantHeldLong (s : State) : Host.Outcome State Fault Refusal := .next (grantHeldLong s)
def execGrantPhaseEnd (s : State) : Host.Outcome State Fault Refusal := .next (grantPhaseEnd s)

end Sys2Proof.Machine
end

