-- ==== Sys2Proof/Machine/Analysis.lean ====
section
/-! DEFINITION. What the verifier proves of the rods' schedules (R239 reasons 0x0513, 0x0515, 0x0518 to 0x0522, 0x052E, and R247): every rod is
run over all that its guards, its stalls and its event tasks can do, on constants where the code gives them (R126, R131, R136, R140, R142,
R152, R189, R214, R220, R223, R240, R241). The spec gives the properties and leaves the method to the verifier (log 4). -/
namespace Sys2Proof.Machine
open Sys2Proof

/-! ### Values: a known number, or an unknown one plus a number -/

/-- A value of 24 bits: n, or the unknown of that name plus n. -/
structure AVal where
  name : Option Nat
  n : Nat
deriving DecidableEq, Repr
def AVal.known (v : AVal) : Option Nat := match v.name with | none => some v.n | some _ => none
/-- Whether two values of one rod can be equal for all that is known. -/
def canMeet (a b : AVal) : Bool := decide (a.name ≠ b.name) || a.n == b.n
/-- Values of two rods: their unknowns are not the same. -/
def canMeetApart (a b : AVal) : Bool := a.name.isSome || b.name.isSome || a.n == b.n
/-- Whether two rods, known or not, can be one. -/
def canBeOne (a b : Option Nat) : Bool := match a, b with | some i, some j => i == j | _, _ => true

/-- Number of a register among all that a result can reach. -/
def destKey (d : Dest) : Nat :=
  match d with | .g n => n | .p n => 64 + n | .lc n => 128 + n | .seg n => 136 + n
/-- A register that discards what it receives (R124). -/
def destFixed (d : Dest) : Bool := d == .g 0 || d == .p 0 || d == .seg 0
/-- General registers that an operand reads, by its mark. -/
def markReads (k : Mark) (n : Nat) : List Nat :=
  match k with | .one => [n] | .pair => [n, n + 1] | .triple => [n, n + 1, n + 2]
/-- Registers that a syllable of class B, A or M reads, g0 and p0 apart (R167). -/
def primReads (p : Prim) : List Nat :=
  let s1 := if p.row.src1Zero then [] else markReads p.row.s1 (sSrc1 p.w)
  let s2 := if p.row.src2Zero then [] else markReads p.row.s2 (sSrc2 p.w)
  let m := sImm p.w
  let rs := match p.row.fmt with
    | .r | .fr | .c | .fc => s1 ++ s2
    | .se => s1 ++ s2 ++ [64 + field m 7 5]
    | .f => s1 ++ (if p.row.op = 0x22 then [sDest p.w] else [])
    | .r1 | .i | .s | .t | .tp | .pp | .ci | .sp => s1
    | .pl => [64 + sSrc1 p.w, 64 + sSrc2 p.w]
    | .pg => (List.range 23).map (fun i => 65 + i)
    | .sg => [136 + segNo p]
    | .lg => [128 + b2n (bitOf m 11)]
    | _ => []
  rs.filter (fun k => k ≠ 0 ∧ k ≠ 64 ∧ k ≠ 136)

/-! ### A path of one rod -/

/-- Place of a syllable: address of its bundle, index. -/
structure Place where
  addr : Nat
  idx : Nat
deriving DecidableEq, Repr
/-- A result in flight, its unknown, its syllable. -/
structure AFlight where
  f : Flight
  name : Option Nat
  at' : Place
deriving DecidableEq, Repr
/-- An operation in a queue slot: its bursts, and the instants by which it is complete at 1.2 GHz and at 900 MHz (R152). -/
structure AOp where
  bursts : Nat
  end12 : Nat
  end9 : Nat
  at' : Place
deriving DecidableEq, Repr
/-- A frame of the call stack, with the entry address of its function block. -/
structure AFrame where
  ret : Nat
  s7 : AVal
  entry : Nat
deriving DecidableEq, Repr
/-- A store that reaches an exchange word: cycle, receiving rod where it is known, exchange offset (R135, R136). -/
structure ALand where
  cycle : Nat
  dst : Option Nat
  ofs : AVal
  rod : Nat
  at' : Place
deriving DecidableEq, Repr
/-- What a store of one bundle reaches (R189). -/
inductive AWhat
  | loc (a : AVal)
  | cache (seg a : AVal)
  | point (a : AVal)
  | row (a : AVal)
deriving DecidableEq, Repr
structure AStore where
  what : AWhat
  cycle : Nat
  rod : Nat
  at' : Place
deriving DecidableEq, Repr
/-- A path of a rod through its schedule: the rod with numbers for what is known, names of what is not, the worst instant at 900 MHz
(in units of 1/18 ns from the edge, so that a cycle is 15 at 1.2 GHz and 20 at 900 MHz), and the octets tracked so far. -/
structure APath where
  r : Rod
  flight : List AFlight
  names : SMap Nat
  stack : List AFrame
  ops : SMap AOp
  t9 : Nat
  vol : Nat
  lands : List ALand
  stores : List AStore
  /-- the event and error tasks that have been taken as released or not -/
  rel : SMap Bool
deriving DecidableEq, Repr

/-- A check that fails. -/
structure Found where
  code : Nat
  rod : Nat
  addr : Nat
  idx : Nat
deriving DecidableEq, Repr
/-- What the paths of a rod have shown: failures, exchange words reached, image stores, octets by instant, ends. -/
structure AOut where
  found : List Found
  lands : List ALand
  stores : List AStore
  marks : List (Nat × Nat)
  ends : List (Nat × Nat)
deriving DecidableEq, Repr
def AOut.none : AOut := ⟨[], [], [], [], []⟩
def AOut.add (a b : AOut) : AOut :=
  ⟨b.found ++ a.found, b.lands ++ a.lands, b.stores ++ a.stores, b.marks ++ a.marks, b.ends ++ a.ends⟩

/-- What an analysis is made for: a rod of a bank, its code, the rod share, the deadline in 1/18 ns, and whether a task can run in the tick. -/
structure AEnv where
  b : Bank
  rod : Nat
  code : List Nat
  share : Nat
  limit : Nat
  runs : Task → List Bool

def APath.val (a : APath) (key n : Nat) : AVal := { name := smGet a.names key, n := n }
def APath.g (a : APath) (n : Nat) : AVal := if n = 0 then ⟨none, 0⟩ else a.val n (rdG a.r n)
def APath.sg (a : APath) (k : Nat) : AVal := if k = 0 then ⟨none, 0⟩ else a.val (136 + k) (rdSeg a.r k)
def APath.lcv (a : APath) (k : Nat) : AVal := a.val (128 + k) (rdLc a.r k)
def AVal.plus (v : AVal) (d : Nat) : AVal := { v with n := (v.n + d) % 2 ^ 24 }
/-- A register takes a value. -/
def APath.put (a : APath) (d : Dest) (v : AVal) : APath :=
  if destFixed d then a
  else { a with r := landDest a.r d v.n
                names := match v.name with | some x => smPut a.names (destKey d) x | none => smDel a.names (destKey d) }
/-- Name of a new unknown: the k-th of a slot's syllable in a cycle. -/
def freshName (c slot k : Nat) : Nat := 64 * (16 * c + slot) + k

/-- An unknown predicate value is taken as v, wherever it stands. -/
def APath.assume (a : APath) (x : Nat) (v : Bool) : APath :=
  let ps := (List.range 32).filter (fun n => smGet a.names (64 + n) = some x)
  let p := ps.foldl (fun p n => setBitN p n (p.testBit n != v)) a.r.p.toNat
  { a with r := { a.r with p := BitVec.ofNat 32 p }
           names := ps.foldl (fun m n => smDel m (64 + n)) a.names
           flight := a.flight.map (fun f => match f.f.dest with
             | .p _ => if f.name = some x then { f with f := { f.f with value := b2n ((f.f.value % 2 == 1) != v) }, name := none } else f
             | _ => f) }
/-- The paths on which the guards of a bundle are known (R165). -/
def resolve : List Prim → APath → List APath
  | [], a => [a]
  | p :: ps, a =>
    match (if sPred p.w = 0 then none else smGet a.names (64 + sPred p.w)) with
    | some x => resolve ps (a.assume x false) ++ resolve ps (a.assume x true)
    | none => resolve ps a

/-! ### Landing (R126, R174) -/

def insertAFlight (f : AFlight) : List AFlight → List AFlight
  | [] => [f]
  | x :: r => if flightBefore x.f f.f then x :: insertAFlight f r else f :: x :: r
/-- Two results that reach one register in one cycle: the one that is written last. -/
def landClash (rod : Nat) : List AFlight → List Found
  | [] => []
  | x :: r =>
    match r.find? (fun y => y.f.due = x.f.due ∧ y.f.dest = x.f.dest ∧ !destFixed x.f.dest) with
    | some y => ⟨0x0518, rod, y.at'.addr, y.at'.idx⟩ :: landClash rod r
    | none => landClash rod r
/-- What has reached its distance by a cycle lands. -/
def APath.land (a : APath) (c : Nat) : APath :=
  let due := (a.flight.filter (fun f => f.f.due ≤ c)).foldr insertAFlight []
  let a1 := due.foldl (fun a f => a.put f.f.dest ⟨f.name, f.f.value⟩) a
  { a1 with flight := a.flight.filter (fun f => c < f.f.due), lands := a.lands.filter (fun x => c ≤ x.cycle) }
def APath.clashes (a : APath) (rod c : Nat) : List Found := landClash rod ((a.flight.filter (fun f => f.f.due ≤ c)).foldr insertAFlight [])

/-! ### Constant references (R112, R131) -/

/-- The reason of a class-L access whose segment, address and LOCAL side are known as far as given. -/
def constFault (b : Bank) (rod : Nat) (p : Prim) (seg addr loc : Option Nat) : Option Nat :=
  let limit := (constOf b rod).1
  let on (k : Option Nat) : Option Nat := if k.isSome then some 0x0515 else none
  match p.row.op, addr with
  | 0x01, some a => if a ≥ 524288 then some 0x0515 else none
  | 0x02, some a => if a < limit ∨ a ≥ 524288 then some 0x0515 else none
  | 0x03, some a => match seg with | some g => on (ldcErr b rod g a) | none => none
  | 0x04, some a => match seg with | some g => on (stcErr b rod g a) | none => none
  | 0x05, some a => match seg with | some g => on (xstErr b g a) | none => none
  | 0x08, some a => if (imageErrIn b.points a false).isSome then some 0x0513 else none
  | 0x0A, some a => if (imageErrIn b.points a true).isSome then some 0x0513 else none
  | 0x09, some a => if a > 349525 then some 0x0513 else none
  | 0x0B, some a => if a > 349525 then some 0x0513 else none
  | _, _ =>
    if p.row.fmt = .fq then
      let dram := match seg, addr with | some g, some a => (fqErr b (p.row.op == 0x11) rod g a (fqLen p)).isSome | _, _ => false
      let side := match loc with | some l => (fqLocErr limit l (fqLen p)).isSome | none => false
      if dram || side then some 0x0515 else none
    else none
/-- Displacement of a class-L syllable (R170). -/
def lDisp (p : Prim) : Nat :=
  match p.row.fmt with
  | .im | .is => disp7 p
  | .fq => field (sImm p.w) 0 9
  | _ => disp9 p
/-- A class-L syllable whose operands its own fields fix, whether or not a path reaches it. -/
def fixedFault (b : Bank) (rod : Nat) (p : Prim) : Option Nat :=
  if p.row.cls ≠ 3 ∨ (sPred p.w = 0 ∧ sSense p.w) then none
  else constFault b rod p (if segNo p = 0 then some 0 else none) (if sSrc1 p.w = 0 then some (lDisp p % 2 ^ 24) else none)
    (if sSrc2 p.w = 0 then some (fqLocDisp p % 2 ^ 24) else none)

/-! ### The syllables of a bundle -/

/-- A rod's bundle in its cycle: the path, as the bundle reads it and as its syllables leave it, and what they show. -/
structure AStep where
  a : APath
  out : AOut
  /-- stalls to come: cycles of the longest, and the worst instant at 900 MHz -/
  stall : Nat × Nat
deriving DecidableEq, Repr

def AStep.note (x : AStep) (code rod : Nat) (q : Place) : AStep :=
  { x with out := { x.out with found := ⟨code, rod, q.addr, q.idx⟩ :: x.out.found } }
def AStep.noteIf (x : AStep) (m : Bool) (code rod : Nat) (q : Place) : AStep := if m then x.note code rod q else x
/-- A result enters flight. -/
def AStep.result (x : AStep) (c dist slot : Nat) (div : Bool) (q : Place) (d : Dest) (v : AVal) : AStep :=
  { x with a := { x.a with flight :=
      { f := { dest := d, value := v.n, due := c + dist, slot := slot, issued := c, div := div }, name := v.name, at' := q } :: x.a.flight } }
/-- The unknown of a syllable that keeps one unknown of its sources: a move, or a sum with something known (R194, R196). -/
def keptName (a : APath) (p : Prim) : Option Nat :=
  let ns := (primReads p).filterMap (fun k => smGet a.names k)
  match ns with
  | [x] =>
    if p.row.cls == 1 && ([0x01, 0x03, 0x30, 0x31, 0x38].contains p.row.op || (p.row.op == 0x02 && (smGet a.names (sSrc1 p.w)).isSome && sSrc1 p.w != 0))
    then some x else none
  | _ => none
/-- Classes B, A and M: known results of known sources, unknown ones of others; a compare and its complement share one. -/
def aluA0 (a0 : APath) (p : Prim) (c : Nat) (q : Place) (x : AStep) : AStep :=
  let rs := aluResults a0.r p
  let x1 := if isDivide p then { x with a := { x.a with flight := x.a.flight.filter (fun f => !f.f.div) } } else x
  let open' := (primReads p).any (fun k => (smGet a0.names k).isSome)
  let name (k : Nat) : Option Nat :=
    if !open' then none
    else match keptName a0 p with
      | some y => some y
      | none => some (freshName c p.slot (if p.row.fmt = .c ∨ p.row.fmt = .fc then 0 else k))
  ((List.range rs.length).zip rs).foldl (fun x e => x.result c p.row.dist p.slot (isDivide p) q e.2.1 ⟨name e.1, e.2.2⟩) x1

/-- A store that reaches an exchange word, beside those of the same path (R136). -/
def AStep.landing (x : AStep) (e : ALand) : AStep :=
  let m (y : ALand) : Bool := decide (y.cycle = e.cycle) && canBeOne y.dst e.dst && canMeet y.ofs e.ofs
  let x1 := x.a.lands.foldl (fun x y => x.noteIf (m y) 0x0519 e.rod e.at') x
  { x1 with a := { x1.a with lands := e :: x1.a.lands }, out := { x1.out with lands := e :: x1.out.lands } }
/-- Whether two image stores can reach one output point (R111, R189). -/
def imageMeet (tbl : SMap Point) (m : AVal → AVal → Bool) (a b : AWhat) : Bool :=
  let outBit (p : Nat) : Bool := match smGet tbl p with | some pt => pt.output && !pt.word | none => false
  let holds (v w : AVal) : Bool :=
    match v.known, w.known with | some p, some r => outBit p && p / 24 == r | _, _ => true
  match a, b with
  | .point v, .point w => m v w
  | .row v, .row w => m v w && (match v.known with | some r => (rowPoints r).any outBit | none => true)
  | .point v, .row w => holds v w
  | .row w, .point v => holds v w
  | _, _ => false
/-- A store beside the other of its bundle (R189). -/
def AStep.store (x : AStep) (tbl : SMap Point) (e : AStore) : AStep :=
  let m (y : AStore) : Bool :=
    match y.what, e.what with
    | .loc a, .loc b => canMeet a b
    | .cache g a, .cache h b => canMeet g h && canMeet a b
    | a, b => imageMeet tbl canMeet a b
  let x1 := x.a.stores.foldl (fun x y => x.noteIf (m y) 0x051A e.rod e.at') x
  let seen := match e.what with | .point _ => true | .row _ => true | _ => false
  { x1 with a := { x1.a with stores := e :: x1.a.stores }, out := if seen then { x1.out with stores := e :: x1.out.stores } else x1.out }
def AStep.volume (x : AStep) (n : Nat) : AStep := { x with a := { x.a with vol := x.a.vol + n } }

/-- Instant in 1/18 ns of a cycle at 1.2 GHz; compute starts at 22 µs (R240). -/
def instant12 (c : Nat) : Nat := 396000 + 15 * c
/-- By when an operation issued at an instant is complete, j bursts counted (R152). -/
def completeBy (share j t : Nat) : Nat := 18 * (1000 * (t / 18000 + ceilDiv j (max share 1) + 1) + 180)
/-- FETCH and TSTORE take their slot (R140, R152). -/
def fqA (e : AEnv) (p : Prim) (c : Nat) (q : Place) (x : AStep) : AStep :=
  let slot := sDest p.w
  let n := ceilDiv (fqLen p) 64
  let x1 := x.noteIf (smGet x.a.ops slot).isSome 0x051B e.rod q
  let j := n + x.a.ops.foldl (fun s o => s + o.2.bursts) 0
  let op : AOp := { bursts := n, end12 := completeBy e.share j (instant12 c), end9 := completeBy e.share j x.a.t9, at' := q }
  let x2 := { x1 with a := { x1.a with ops := smPut x1.a.ops slot op } }
  if p.row.op = 0x11 then x2.volume (8 * (1 + ceilDiv (3 * fqLen p) 8)) else x2
/-- Class L. -/
def issueLA (e : AEnv) (a0 : APath) (p : Prim) (c : Nat) (q : Place) (x : AStep) : AStep :=
  let seg := a0.sg (segNo p)
  let addr := (a0.g (sSrc1 p.w)).plus (lDisp p)
  let loc := (a0.g (sSrc2 p.w)).plus (fqLocDisp p)
  let l := p.slot - 5
  let k := constFault e.b e.rod p seg.known addr.known loc.known
  let x1 := match k with | some code => x.note code e.rod q | none => x
  let load (dist : Nat) : AStep := x1.result c dist p.slot false q (.g (sDest p.w)) ⟨some (freshName c p.slot 0), 0⟩
  let st (w : AWhat) : AStep := if k.isSome then x1 else x1.store e.b.points { what := w, cycle := c, rod := e.rod, at' := q }
  match p.row.op with
  | 0x01 => load 3
  | 0x02 =>
    let ofs : AVal := { addr with n := (addr.n + 2 ^ 24 - 0x7C000) % 2 ^ 24 }
    let mine := match addr.known with | some a => decide (0x7C000 ≤ a) | none => true
    let x2 := st (.loc addr)
    if k.isNone && mine then x2.landing { cycle := c, dst := some e.rod, ofs := ofs, rod := e.rod, at' := q } else x2
  | 0x03 => load 8
  | 0x04 => (st (.cache seg addr)).volume 8
  | 0x05 =>
    if k.isSome then x1
    else x1.landing { cycle := c + 32 + l, dst := match seg.known with | some g => some (g - 0x100) | none => none, ofs := addr, rod := e.rod, at' := q }
  | 0x08 | 0x09 => (load 8).result c 8 p.slot false q (.p (field (sImm p.w) 7 5)) ⟨some (freshName c p.slot 1), 0⟩
  | 0x0A => (st (.point { addr with n := addr.n % 2 ^ 23 })).volume 8
  | 0x0B => (st (.row addr)).volume 8
  | _ => fqA e p c q x1

/-- A transfer: its two delay bundles follow. -/
def AStep.transfer (x : AStep) (target : Option Nat) : AStep := { x with a := { x.a with r := { x.a.r with delay := 2, target := target } } }
def AStep.setRept (x : AStep) (n : Nat) : AStep := { x with a := { x.a with r := { x.a.r with rept := n } } }
/-- Class C; a path that the rod cannot go on ends. -/
def issueCA (e : AEnv) (a0 : APath) (p : Prim) (c : Nat) (q : Place) (next : Nat) (tally : Nat) (x : AStep) : List AStep × List Found :=
  let dest := (((q.addr : Int) + branchDisp p) % (2 ^ 24 : Nat)).toNat
  let v := a0.g (sSrc1 p.w)
  let bad (code : Nat) : Found := ⟨code, e.rod, q.addr, q.idx⟩
  match p.row.op with
  | 0x01 => ([x.transfer (some dest)], [])
  | 0x02 =>
    let k := sDest p.w
    let w := a0.lcv k
    match w.known with
    | some m =>
      let n := (m + 0xFFFFFF) % 2 ^ 24
      ([(x.result c 1 7 false q (.lc k) ⟨none, n⟩).transfer (if n ≠ 0 then some dest else none)], [])
    | none =>
      let y := x.result c 1 7 false q (.lc k) ⟨some (freshName c 7 0), 0⟩
      ([y.transfer none, y.transfer (some dest)], [bad 0x0520])
  | 0x03 =>
    if a0.stack.any (fun f => f.entry = dest) then ([], [bad 0x051D])
    else if a0.stack.length ≥ 16 then ([], [bad 0x051E])
    else
      let f : AFrame := { ret := skipBundles e.code 2 next, s7 := a0.sg 7, entry := dest }
      ([({ x with a := { x.a with stack := f :: x.a.stack } }.result c 3 7 false q (.seg 7) v).transfer (some dest)], [])
  | 0x04 =>
    match a0.stack with
    | [] => ([], [bad 0x051F])
    | f :: rest => ([({ x with a := { x.a with stack := rest } }.result c 3 7 false q (.seg 7) f.s7).transfer (some f.ret)], [])
  | 0x08 => ([x.setRept (sImm p.w + 1)], [])
  | 0x09 =>
    match v.known with
    | some n => ([x.setRept (min n 4096)], [])
    | none => ((List.range 4097).map x.setRept, [])
  | 0x0A => ([x.result c 1 7 false q (.lc (sDest p.w)) v], [])
  | 0x0B => ([x.result c 1 7 false q (.lc (sDest p.w)) ⟨none, immU p⟩], [])
  | 0x10 =>
    let slot := field (sImm p.w) 0 4
    match smGet a0.ops slot with
    | none => ([x], [])
    | some o => if smGet x.a.ops slot ≠ some o then ([x], []) else ([{ x with a := { x.a with ops := smDel x.a.ops slot }, stall := (ceilDiv (o.end12 - instant12 c) 15, o.end9) }], [])
  | 0x11 => ([x], if field (sImm p.w) 0 5 = tally then [] else [bad 0x052E])
  | 0x1F => ([{ x with a := { x.a with r := { x.a.r with run := .waiting } } }], [])
  | _ => ([x], [])
/-- A primary syllable whose guard is known. -/
def issueA (e : AEnv) (a0 : APath) (c next tally : Nat) (p : Prim) (x : AStep) : List AStep :=
  if !guardHolds a0.r p then [x]
  else
    let q : Place := ⟨a0.r.pc, p.idx⟩
    match p.row.cls with
    | 3 => [issueLA e a0 p c q x]
    | 4 =>
      let y := issueCA e a0 p c q next tally x
      match y.1 with
      | [] => [{ x with a := { x.a with r := { x.a.r with run := .done } }, out := { x.out with found := y.2 ++ x.out.found } }]
      | l => l.map (fun z => { z with out := { z.out with found := y.2 ++ z.out.found } })
    | _ => [aluA0 a0 p c q x]

/-! ### A bundle, a segment, a schedule -/

/-- Where the rod goes on after a bundle (R179, R222, R223). -/
def afterBundle (e : AEnv) (r0 r1 : Rod) (ps : List Prim) (next : Nat) : Rod :=
  let transfer := ps.any (fun p => isTransfer p.row)
  let rept := ps.any (fun p => isRept p.row)
  let taken := rept && ps.any (fun p => isRept p.row && guardHolds r0 p)
  if taken then
    if r1.rept = 0 then { r1 with pc := next + (bundleExtent e.code next).1, noC := 0 } else { r1 with pc := next, noC := 1 }
  else if r0.rept > 1 then { r1 with rept := r0.rept - 1 }
  else
    let r1 : Rod := { r1 with rept := 0, noC := if transfer then 2 else if rept then 1 else r0.noC - 1 }
    if r0.delay = 1 then { r1 with delay := 0, target := none, pc := r0.target.getD next }
    else { r1 with pc := next, delay := if r0.delay = 2 then 1 else r1.delay }

/-- The segments that a rod can run next, from an index on, and whether its schedule can end without one; with each what has been taken
of the tasks. -/
def nextChoices (e : AEnv) : Nat → List SchedSeg → SMap Bool → List (Option (Nat × SchedSeg × Task) × SMap Bool)
  | _, [], rel => [(none, rel)]
  | i, g :: rest, rel =>
    match e.b.tasks.find? (fun t => t.id = g.task) with
    | none => nextChoices e (i + 1) rest rel
    | some t =>
      let rs := match smGet rel t.id with | some v => [v] | none => e.runs t
      (if rs.contains true then [(some (i, g, t), smPut rel t.id true)] else []) ++
      (if rs.contains false then nextChoices e (i + 1) rest (smPut rel t.id false) else [])
/-- A rod enters a segment, or ends its schedule with what it has left unwaited (R142, R246, R247). -/
def enterA (e : AEnv) (a : APath) (x : Option (Nat × SchedSeg × Task)) : List APath × AOut :=
  match x with
  | none =>
    ([], { AOut.none with found := a.ops.map (fun o => ⟨0x051C, e.rod, o.2.at'.addr, o.2.at'.idx⟩), ends := [(a.t9, a.vol)]
                          marks := [(a.t9, a.vol)] })
  | some (i, g, t) =>
    let c := max a.r.cycle g.start
    let late := a.r.cycle > g.start
    let unknown (k : Nat) : AVal := ⟨some (freshName c 8 k), 0⟩
    let a1 := { a with r := { a.r with run := .running, cycle := c, pos := i, pc := g.entry, task := g.task }
                       t9 := max a.t9 (396000 + 20 * g.start) }
    let a2 := (a1.put (.g 1) (if t.kind = 0 then ⟨none, 1⟩ else unknown 1)).put (.g 2) (if t.kind = 0 then ⟨none, 0⟩ else unknown 2)
    ([a2.put (.g 3) (unknown 3)], { AOut.none with found := if late then [⟨0x0523, e.rod, g.entry, 0⟩] else [] })
/-- The next segment of a rod that has none under way. -/
def startA (e : AEnv) (a : APath) : List APath × AOut :=
  ((nextChoices e a.r.pos ((smGetD e.b.scheds e.rod []).drop a.r.pos) a.rel).map (fun x => enterA e { a with rel := x.2 } x.1)).foldl
    (fun acc x => (acc.1 ++ x.1, acc.2.add x.2)) ([], AOut.none)

/-- One issue of a rod on a path: what it leads to, and what it shows. A path that passes the deadline, or leaves the code, is cut. -/
def stepA (e : AEnv) (a : APath) : List APath × AOut :=
  let c := a.r.cycle
  let late : AOut := { AOut.none with found := [⟨0x0521, e.rod, 0, 0⟩] }
  if a.t9 > e.limit ∨ instant12 c > e.limit then ([], late)
  else
    let clash := a.clashes e.rod c
    let a0 : APath := { a.land c with stores := [] }
    match checkBundle e.code a.r.pc (a.r.noC > 0) with
    | .bad _ _ => ([], late.add { AOut.none with found := clash })
    | .ok ps len =>
      let next := a.r.pc + len
      let tally := match e.b.tasks.find? (fun t => t.id = a.r.task) with | some t => t.tally | none => 0xFF
      let here : AOut := { AOut.none with found := clash, marks := [(a.t9, a.vol)] }
      ((resolve ps a0).flatMap (fun a1 =>
        ((actOrder ps).foldl (fun xs p => xs.flatMap (issueA e a1 c next tally p)) [({ a := a1, out := AOut.none, stall := (0, 0) } : AStep)]).map (fun x => (a1, x)))).foldl
        (fun acc y =>
          let x := y.2
          if x.a.r.run = .done then (acc.1, acc.2.add x.out)
          else
            let r1 := afterBundle e y.1.r x.a.r ps next
            let t9 := max x.a.t9 x.stall.2 + 20
            let go (k : Nat) : APath := { x.a with r := { r1 with cycle := c + k + 1 }, t9 := t9 }
            if r1.run = .waiting then
              let z := startA e { go 0 with flight := [], r := { r1 with cycle := c + 1, pos := a.r.pos + 1, delay := 0, target := none, rept := 0, noC := 0 } }
              (acc.1 ++ z.1, (acc.2.add x.out).add z.2)
            else (acc.1 ++ (List.range (x.stall.1 + 1)).map go, acc.2.add x.out)) ([], here)
/-- The same path; cycle and address first, for they differ most. -/
def samePath (a b : APath) : Bool := a.r.cycle == b.r.cycle && a.r.pc == b.r.pc && decide (a = b)
/-- The paths of a rod, step by step, each kept once. -/
def pathsA (e : AEnv) : Nat → List APath → AOut → AOut
  | 0, _, out => out
  | fuel + 1, as, out =>
    match as with
    | [] => out
    | _ =>
      let x := as.foldl (fun acc a => let y := stepA e a; (y.1.foldl (fun l z => if l.any (samePath z) then l else z :: l) acc.1, acc.2.add y.2)) ([], out)
      pathsA e fuel x.1 x.2
def freshPath : APath :=
  { r := { Rod.reset with run := .waiting }, flight := [], names := [], stack := [], ops := [], t9 := 396000, vol := 0, lands := [], stores := [], rel := [] }
/-- All that a rod can do in a tick: one step a cycle at most, up to the deadline. -/
def rodPaths (e : AEnv) : AOut :=
  let x := startA e freshPath
  pathsA e (e.limit / 15 + 1) x.1 x.2

/-! ### All rods in a tick position -/

/-- Exchange words and output points that stores of two rods reach in one cycle (R136, R189). -/
def crossFound (b : Bank) (outs : List AOut) : List Found :=
  let ls := outs.flatMap (fun o => o.lands)
  let ss := outs.flatMap (fun o => o.stores)
  (ls.flatMap (fun x => ls.flatMap (fun y =>
    if x.rod < y.rod ∧ x.cycle = y.cycle ∧ canBeOne x.dst y.dst ∧ canMeetApart x.ofs y.ofs then [⟨0x0519, y.rod, y.at'.addr, y.at'.idx⟩] else []))) ++
  (ss.flatMap (fun x => ss.flatMap (fun y =>
    if x.rod < y.rod ∧ x.cycle = y.cycle ∧ imageMeet b.points canMeetApart x.what y.what then [⟨0x051A, y.rod, y.at'.addr, y.at'.idx⟩] else [])))
/-- The greatest volume that a rod tracks, and the most that it has left to track from an instant on. -/
def rodVolume (o : AOut) : Nat := o.ends.foldl (fun m x => max m x.2) 0
def rodAhead (o : AOut) (t : Nat) : Nat :=
  match (o.marks.filter (fun x => t ≤ x.1)).map (fun x => x.2) with
  | [] => 0
  | v :: vs => rodVolume o - vs.foldl min v
/-- Compute end, its rod, the end of the carry tail at 23,000 octets a µs and 0.5 µs for the seal (R240, R337), and the tracked volume. -/
def tickBound (outs : List AOut) : Nat × Nat × Nat × Nat :=
  let last (o : AOut) : Nat := o.ends.foldl (fun m x => max m x.1) 396000
  let e := outs.foldl (fun m o => max m (last o)) 396000
  let rod := (outs.findIdx? (fun o => last o = e)).getD 0
  let ahead (t : Nat) : Nat := outs.foldl (fun v o => v + rodAhead o t) 0
  let sent := (outs.flatMap (fun o => o.marks)).foldl (fun m x => max m (x.1 + ceilDiv (18 * ahead x.1) 23)) e
  (e, rod, sent + 9000, outs.foldl (fun v o => v + rodVolume o) 0)
/-- Whether a task runs in a tick position: a cyclic one that is due does; an event or error task can (R240, R244). -/
def runsAt (n : Nat) (t : Task) : List Bool := if t.kind = 0 then [decide ((n + t.phase) % max t.period 1 = 0)] else [false, true]
/-- What the verifier finds for one tick position. -/
structure Position where
  found : List Found
  bound : Nat × Nat
deriving DecidableEq, Repr
def position (img : List Byte) (b : Bank) (period share n : Nat) : Position :=
  let limit := 18 * (62500 * period - 2000)
  let outs := (List.range 48).map (fun r =>
    rodPaths { b := b, rod := r, code := codeOf img r, share := share, limit := limit, runs := runsAt n })
  let t := tickBound outs
  let lateEnd : List Found := if t.2.2.1 > limit then [⟨0x0521, t.2.1, 0, 0⟩] else []
  let vol : List Found := if t.2.2.2 > 1437500 * period - 598000 then [⟨0x0522, 63, 0, 0⟩] else []
  { found := outs.flatMap (fun o => o.found) ++ crossFound b outs ++ lateEnd ++ vol, bound := (ceilDiv t.2.2.1 4500, t.2.1) }

end Sys2Proof.Machine
end

