-- ==== Sys2Proof/Machine/Verify.lean ====
section
/-! DEFINITION. The verifier: the checks of R239 on a bank image, in their order (R181, R239 to R245, R256, R569, R571). -/
namespace Sys2Proof.Machine
open Sys2Proof

/-! ### Code (R181, R569) -/

/-- A bundle as decoded: address, syllables. -/
structure Bundle where
  addr : Nat
  prims : List Prim
deriving DecidableEq, Repr
/-- Decode of a rod's code, bundle by bundle; noC counts the bundles to come that may hold no C syllable. -/
def scanCode : Nat → List Nat → Nat → Nat → Except (Nat × Nat × Nat) (List Bundle)
  | 0, _, _, _ => .ok []
  | fuel + 1, rest, addr, noC =>
    match rest with
    | [] => .ok []
    | _ =>
      match checkBundle rest 0 (noC > 0) with
      | .bad rule idx => .error (rule, addr, idx)
      | .ok ps len =>
        let n := if ps.any (fun p => isTransfer p.row) then 2 else if ps.any (fun p => isRept p.row) then 1 else noC - 1
        match scanCode fuel (rest.drop len) (addr + len) n with
        | .ok l => .ok ({ addr := addr, prims := ps } :: l)
        | .error e => .error e
/-- Rule 0x09 over the bundles of a rod. -/
def badTransfer (bs : List Bundle) : Option (Nat × Nat) :=
  let starts := bs.map (fun b => b.addr)
  (bs.flatMap (fun b => b.prims.filterMap (fun p =>
    if p.row.cls == 4 && (p.row.op == 1 || p.row.op == 2 || p.row.op == 3) then
      let t := (b.addr : Int) + branchDisp p
      if t ≥ 0 ∧ starts.contains t.toNat then none else some (b.addr, p.idx)
    else none))).head?
/-- First failure of a rod's code. -/
def codeReject (img : List Byte) (rod : Nat) : Option Reject :=
  match rodSection img 1 rod with
  | none => none
  | some b =>
    if b.length % 6 ≠ 0 ∨ b.length / 6 > 32768 then some (rejectedRod 0x050A rod)
    else
      let code := syllables (b.length / 6) b
      match scanCode (code.length + 1) code 0 0 with
      | .error (rule, addr, idx) => some ⟨0x0500 + rule, rod, addr, idx⟩
      | .ok bs => match badTransfer bs with | some (a, i) => some ⟨0x0509, rod, a, i⟩ | none => none
/-- Addresses of the bundles of a rod. -/
def bundleStarts (img : List Byte) (rod : Nat) : List Nat :=
  let code := codeOf img rod
  match scanCode (code.length + 1) code 0 0 with
  | .ok bs => bs.map (fun b => b.addr)
  | .error _ => []

/-! ### Points and their sources (R89, R239, R287, R409, R425, R452) -/

/-- Divisor class of a station word, by the counts of the classes from k on (R287). -/
def wordClassFrom (k : Nat) : List Nat → Nat → Option Nat
  | [], _ => none
  | n :: r, w => if w < n then some k else wordClassFrom (k + 1) r (w - n)
def wordClass (counts : List Nat) (w : Nat) : Option Nat := wordClassFrom 0 counts w
/-- Fields of a CAN message object in force (R421). -/
def canObjBase (k n : Nat) : Nat := 0x400 + 0x800 * k + 0x10 * n
def canObjUsed (f : RegFile) (k n : Nat) : Bool := bitOf (fileReg f 0x0B (canObjBase k n)).toNat 30
def canObjSend (f : RegFile) (k n : Nat) : Bool := bitOf (fileReg f 0x0B (canObjBase k n)).toNat 31
def canObjLen (f : RegFile) (k n : Nat) : Nat := fileField f 0x0B (canObjBase k n + 8) 0 7
/-- Mode and gang of a local channel (R440). -/
def lchMode (f : RegFile) (ch : Nat) : Nat := fileField f 0x0C (0x200 + 4 * ch) 0 3
def lchGang (f : RegFile) (ch : Nat) : Nat := fileField f 0x0C (0x200 + 4 * ch) 3 2
/-- TYPE of a feeder that is enabled, else 0 (R464). -/
def feederType (f : RegFile) (k : Nat) : Nat :=
  if bitOf (fileReg f 0x0D 0x100).toNat k then fileField f 0x0D (0x200 + 0x40 * k) 0 2 else 0
/-- Whether metering offers an item for a TYPE (R449, R452). -/
def meterOffers (type item phase : Nat) : Bool :=
  type == 1 || (type == 2 && (!(3 ≤ item && item ≤ 6) || phase == 3))
/-- Class of a metering item: true for a word. -/
def meterWord (item : Nat) : Bool := !(10 ≤ item && item ≤ 13)
/-- Whether a local channel offers an item with a class and direction in its mode (R425). -/
def lchOffers (mode gang item : Nat) (word output : Bool) : Bool :=
  match item with
  | 0 => !word && !output && (mode == 1 || mode == 2 || mode == 3 || mode == 5 || mode == 6)
  | 1 => word && !output && (mode == 5 || mode == 6)
  | 2 => !word && !output && decide (1 ≤ mode) && decide (mode ≤ 6)
  | _ => !word && output && mode == 4 && gang != 3
/-- Whether a point's source exists, with the configuration of the units of the I/O given by block files and tables. -/
def sourceExists (table : Nat → List Station) (can lch mtr : RegFile) (pt : Point) : Bool :=
  match pt.source with
  | .link k _ path w _ =>
    match (table k).find? (fun e => e.path = path) with
    | some e => wordClass (if pt.output then e.outWords else e.inWords) w == some pt.divisor
    | none => false
  | .local ch item => lchOffers (lchMode lch ch) (lchGang lch ch) item pt.word pt.output
  | .can k n i =>
    canObjUsed can k n && canObjSend can k n == pt.output &&
    decide (i < (if pt.word then ceilDiv (canObjLen can k n) 3 else 8 * canObjLen can k n))
  | .meter f item phase => meterOffers (feederType mtr f) item phase && meterWord item == pt.word && !pt.output
/-- A source under the configuration in force. -/
def sourceOk (s : State) (pt : Point) : Bool :=
  sourceExists (fun k => (linkAt s k).table) (blkCfg s 0x0B).inForce (blkCfg s 0x0C).inForce (blkCfg s 0x0D).inForce pt

/-- Strictly rising. -/
def rising : List Nat → Bool
  | a :: b :: r => decide (a < b) && rising (b :: r)
  | _ => true
/-- Point table: layout and numbers (0x0510), TABLE count (0x0512). -/
def pointReject (img : List Byte) : Option Reject :=
  let b := section1 img 3
  let es := pointEntries img
  let layout := decide (b.length ≠ 8 + 20 * leAt b 0 4 + 16 * leAt b 4 4)
  firstReject [
    failIf (layout || (pathEntries img).any (fun p => !p.ok) || !rising (es.map (fun e => leAt e 0 4)) ||
      es.any (fun e => decide (leAt e 0 4 > 8388607) || bitOf (leAt e 4 1) 7 || field (leAt e 4 1) 2 3 == 7 || field (leAt e 4 1) 5 2 == 3))
      (rejected 0x0510),
    failIf (decide ((es.filter (fun e => field (leAt e 4 1) 5 2 = 2)).length > 131072)) (rejected 0x0512)]
def sourceReject (s : State) (img : List Byte) : Option Reject :=
  let paths := pathEntries img
  failIf ((pointEntries img).any (fun e => (sourceOf paths e).isNone || !sourceOk s (pointOf paths e))) (rejected 0x0511)

/-! ### Segments, instance data, constants (R130, R132, R571) -/

def kindRange (kind seg : Nat) : Bool :=
  match kind with
  | 1 => decide (0x10000 ≤ seg ∧ seg ≤ 0x1FFFF)
  | 2 => decide (0x100000 ≤ seg ∧ seg ≤ 0x3FFFFF)
  | 3 => decide (0x400000 ≤ seg ∧ seg ≤ 0x4FFFFF)
  | _ => false
def placesMeet (a b : Nat × SegDesc) : Bool :=
  (if a.2.kind = 1 then b.2.kind == 1 && a.2.owner == b.2.owner else b.2.kind != 1) &&
  decide (a.2.place < b.2.place + b.2.length) && decide (b.2.place < a.2.place + a.2.length)
/-- A segment lies outside the memory that holds it (R231, R571). Beyond the end of a partition that the rod's segments fill beyond its
size, the reason is 0x0516 (log 100). -/
def outsideMemory (segs : SMap SegDesc) (d : SegDesc) : Bool :=
  if d.kind = 1 then
    let total := segs.foldl (fun a e => if e.2.kind = 1 ∧ e.2.owner = d.owner then a + e.2.length else a) 0
    decide (d.place ≥ 524288) || (decide (total ≤ 524288) && decide (d.place + d.length > 524288))
  else decide (d.place + d.length > 67108864)
def segReject (img : List Byte) : Option Reject :=
  let b := section1 img 4
  let es := segEntries img
  let segs := es.map segOf
  let ri := section1 img 7
  let runs := initRuns ri.length ri
  let keyed := runs.1.map (fun r => (r.1, r.2.1, r.2.2.length))
  failIf (decide (b.length ≠ 8 + 16 * leAt b 0 4) || !zeroAt b 4 4 || decide (leAt b 0 4 > 262144) || !rising (segs.map (fun g => g.1)) ||
    es.any (fun e => !zeroAt e 9 3) ||
    segs.any (fun g => !kindRange g.2.kind g.1 || g.2.length == 0 || decide (g.2.length > 16777216) ||
      (if g.2.kind = 3 then g.2.owner != 0xFF else decide (g.2.owner > 47))) ||
    anyPair placesMeet segs || segs.any (fun g => outsideMemory segs g.2) || !runs.2 ||
    keyed.any (fun r => match smGet segs r.1 with | some d => decide (r.2.1 + r.2.2 > d.length) | none => true) ||
    anyPair (fun x y => x.1 == y.1 && decide (x.2.1 < y.2.1 + y.2.2) && decide (y.2.1 < x.2.1 + x.2.2)) keyed) (rejected 0x0514)
def cacheReject (b : Bank) : Option Reject :=
  ((List.range 48).find? (fun r => decide (cacheWords b r > 524288))).map (rejectedRod 0x0516)
def constReject (img : List Byte) : Option Reject :=
  ((List.range 48).find? (fun r =>
    match rodSection img 2 r with
    | none => false
    | some c => decide (c.length < 4) || decide (c.length ≠ 4 + 3 * leAt c 0 4) || leAt c 0 4 % 64 != 0 || decide (leAt c 0 4 > 262144))).map
    (rejectedRod 0x0517)

/-! ### Tasks, schedules, triggers (R243 to R245, R251) -/

/-- A trigger descriptor of R251, in its task-descriptor form; true when its form is right. -/
def trigForm (d : Nat) : Bool :=
  match field d 20 4 with
  | 1 => field d 13 7 == 0 && decide (field d 8 5 ≤ 23)
  | 2 => field d 8 12 == 0 && decide (field d 0 6 ≤ 31) && !(bitOf d 7 && bitOf d 6)
  | 3 => field d 9 11 == 0 && field d 3 5 == 0
  | 4 => field d 6 14 == 0 && field d 2 2 == 0
  | _ => false
/-- Index among the HP objects of a controller, in ascending object number (R418). -/
def hpObjects (f : RegFile) (k : Nat) : List Nat :=
  (List.range 128).filter (fun n => canObjUsed f k n && !canObjSend f k n && fileField f 0x0B (canObjBase k n + 8) 9 1 == 1)
/-- Whether a trigger names a source that exists in the configuration in force (R243): a station is one of the link itself. -/
def trigExists (s : State) (d : Nat) : Bool :=
  match field d 20 4 with
  | 1 =>
    let t := (linkAt s (field d 8 5)).table
    if field d 0 8 = 0 then !t.isEmpty else t.any (fun e => e.path == [BitVec.ofNat 8 (field d 0 8)])
  | 2 => let m := lchMode (blkCfg s 0x0C).inForce (field d 0 6); m == 1 || m == 2 || m == 3 || m == 5 || m == 6
  | 3 => decide (field d 0 3 < (hpObjects (blkCfg s 0x0B).inForce (field d 8 1)).length)
  | _ => feederType (blkCfg s 0x0D).inForce (field d 4 2) != 0
def taskBad (t : Task) : Bool :=
  decide (t.id > 63) || decide (t.kind > 2) || decide (t.priority > 15) || t.rodSet == 0 || (decide (t.tally > 31) && t.tally != 0xFF) ||
  (match t.kind with
   | 0 => t.period == 0 || decide (t.period > 4096) || decide (t.phase ≥ t.period) || !t.triggers.isEmpty || t.errMask != 0
   | 1 => t.period != 1 || t.phase != 0 || t.triggers.isEmpty || decide (t.triggers.length > 16) || t.errMask != 0
   | _ => t.period != 1 || t.phase != 0 || !t.triggers.isEmpty || decide (t.errMask > 15))
def schedBad (b : Bank) (starts : List Nat) (rod : Nat) (l : List SchedSeg) : Bool :=
  decide (l.length > 256) || !rising (l.map (fun g => g.start)) ||
  l.any (fun g => match b.tasks.find? (fun t => t.id = g.task) with | some t => !t.rodSet.testBit rod | none => true) ||
  l.any (fun g => !starts.contains g.entry) ||
  anyPair (fun x y =>
    match b.tasks.find? (fun t => t.id = x.task), b.tasks.find? (fun t => t.id = y.task) with
    | some a, some c => decide (a.priority < c.priority) || (a.priority == c.priority && decide (a.id > c.id))
    | _, _ => false) l
def hyperperiod (b : Bank) : Nat := (b.tasks.filter (fun t => t.kind = 0)).foldl (fun l t => Nat.lcm l t.period) 1
def taskReject (img : List Byte) (b : Bank) : Option Reject :=
  let sec := section1 img 5
  let es := taskEntries img
  failIf (decide (sec.length ≠ 8 + 88 * leAt sec 0 4) || !zeroAt sec 4 4 || es.isEmpty || decide (es.length > 64) ||
    es.any (fun e => !zeroAt e 16 4 || !zeroAt e 84 4 || decide (leAt e 14 1 > 16) ||
      !zeroAt e (20 + 4 * leAt e 14 1) (64 - 4 * leAt e 14 1)) ||
    b.tasks.any taskBad || anyPair (fun x y => x.id == y.id || (x.tally != 0xFF && x.tally == y.tally)) b.tasks ||
    decide ((b.tasks.filter (fun t => t.kind = 1)).length > 32) || decide ((b.tasks.filter (fun t => t.kind = 2)).length > 1))
    (rejected 0x0523)
def schedReject (img : List Byte) (b : Bank) : Option Reject :=
  ((List.range 48).find? (fun r =>
    match rodSection img 6 r with
    | none => false
    | some c => decide (c.length ≠ 8 + 8 * leAt c 0 4) || !zeroAt c 4 4 || (schedEntries c).any (fun e => !zeroAt e 1 1) ||
        schedBad b (bundleStarts img r) r (smGetD b.scheds r []))).map (rejectedRod 0x0523)
def trigReject (s : State) (img : List Byte) (b : Bank) : Option Reject :=
  failIf ((taskEntries img).any (fun e => (List.range (leAt e 14 1)).any (fun i => !zeroAt e (23 + 4 * i) 1)) ||
    b.tasks.any (fun t => t.triggers.any (fun d => !trigForm d || !trigExists s d))) (rejected 0x0525)

/-! ### Migration map (R256, R571) -/

/-- Moves of one segment that overlap, or reach beyond the new segment. -/
def movesBad (len : Nat) (ms : List Move) : Bool :=
  ms.any (fun m => decide (m.dst + moveLen m > len)) ||
  anyPair (fun a c => decide (a.dst < c.dst + moveLen c) && decide (c.dst < a.dst + moveLen a)) ms
def migReject (img : List Byte) (b : Bank) : Option Reject :=
  if baseId img = 0 then none
  else
    let sec := section1 img 8
    let r := migRecords (leAt sec 0 4) (sec.drop 8)
    let inst := (b.segs.filter (fun e => e.2.kind ≠ 3)).map (fun e => e.1)
    failIf (decide (sec.length < 8) || !zeroAt sec 4 4 || !r.2 || decide (b.mig.length ≠ inst.length) ||
      inst.any (fun g => !b.mig.any (fun m => m.seg = g)) ||
      b.mig.any (fun g => (g.source == 0 && g.moves.any (fun m => m.kind ≠ 1)) ||
        movesBad (match smGet b.segs g.seg with | some d => d.length | none => 0) g.moves)) (rejected 0x0605)
/-- Whether the map names source segments of the old bank, and reads within them. -/
def migSourceOk (old new : Bank) : Bool :=
  new.mig.all (fun g => g.source == 0 ||
    match smGet old.segs g.source with
    | some d => d.kind != 3 && g.moves.all (fun m => m.kind == 1 || decide (m.src + m.n ≤ d.length))
    | none => false)

/-! ### The verifier (R239) -/

/-- Place of a reason in the order of R239. Its table has no row for 0x0605, the migration map, which is taken after the schedules (log 139). -/
def checkRank (code : Nat) : Nat :=
  let order := [0x0527, 0x0501, 0x0502, 0x0503, 0x0504, 0x0505, 0x0506, 0x0507, 0x0508, 0x0509, 0x050A, 0x0510, 0x0512, 0x0511, 0x0513,
    0x0514, 0x0515, 0x0516, 0x0517, 0x0518, 0x0519, 0x051A, 0x051B, 0x051C, 0x051D, 0x051E, 0x051F, 0x0520, 0x0523, 0x0524, 0x0525,
    0x0605, 0x052E, 0x0521, 0x0522]
  (order.findIdx? (fun c => c = code)).getD order.length
/-- The checks that the spec defines in full, in the order of R239. -/
def structuralReject (s : State) (img : List Byte) : Option Reject :=
  if headerBad img then some (rejected 0x0527)
  else
    let b := parseBank img
    firstReject ((List.range 48).map (codeReject img) ++
      [pointReject img, sourceReject s img, segReject img, cacheReject b, constReject img, taskReject img b, schedReject img b,
       failIf (decide (hyperperiod b > 4096)) (rejected 0x0524), trigReject s img b, migReject img b])
/-- Accesses that the fields of a syllable fix, in every bundle of every rod (R112, R131). -/
def fixedFound (img : List Byte) (b : Bank) : List Found :=
  (List.range 48).flatMap (fun r =>
    let code := codeOf img r
    match scanCode (code.length + 1) code 0 0 with
    | .ok bs => bs.flatMap (fun u => u.prims.filterMap (fun p => (fixedFault b r p).map (fun c => ⟨c, r, u.addr, p.idx⟩)))
    | .error _ => [])
/-- What the verifier finds at every position of the hyperperiod, and the latest end with its rod (R240). -/
def analysis (img : List Byte) (period share : Nat) : List Found × (Nat × Nat) :=
  let b := parseBank img
  ((List.range (max 1 (min (hyperperiod b) 4096))).map (position img b period share)).foldl
    (fun acc x => (acc.1 ++ x.found, if x.bound.1 > acc.2.1 then x.bound else acc.2)) (fixedFound img b, (0, 0))
/-- The failure that goes first: by the order of the checks, then rod, address, index. -/
def earlier (best : Option Found) (x : Found) : Option Found :=
  match best with
  | none => some x
  | some y =>
    let a := checkRank x.code
    let c := checkRank y.code
    if a < c ∨ (a = c ∧ (x.rod < y.rod ∨ (x.rod = y.rod ∧ (x.addr < y.addr ∨ (x.addr = y.addr ∧ x.idx < y.idx))))) then some x else some y
def analyticReject (img : List Byte) (period share : Nat) : Option Reject :=
  ((analysis img period share).1.foldl earlier none).map (fun x => ⟨x.code, x.rod, x.addr, x.idx⟩)
/-- LDR_BOUND of a bank: worst-case end in units of 0.25 µs, and the rod that sets it (R240, R270). -/
def analyticBound (img : List Byte) (period share : Nat) : Nat × Nat := (analysis img period share).2
/-- The first check that fails, in the order of R239. -/
def verifyImage (s : State) (img : List Byte) : Option Reject :=
  match structuralReject s img with
  | none => analyticReject img (tickPeriod s) (shareNow s)
  | some r =>
    if checkRank r.code < checkRank 0x0513 then some r
    else
      match analyticReject img (tickPeriod s) (shareNow s) with
      | some x => if checkRank x.code < checkRank r.code then some x else some r
      | none => some r

end Sys2Proof.Machine
end

