-- ==== Sys2Proof/Machine/Loader.lean ====
section
/-! DEFINITION. Loading, verifying, saving and activating banks: the commands of block 0x05 (R231 to R242). -/
namespace Sys2Proof.Machine
open Sys2Proof

/-- The tail of a command that the active unit carries to its standby (R339). -/
def forward (carried : Bool) (s : State) (apply code : Nat) (data : List Byte) : State :=
  if carried then s else sendControl s apply code data

/-- A stored copy is valid when its header and every section pass their CRC (R238); what else its header breaks is the verifier's. -/
def storedValid (img : List Byte) : Bool := crcsPass img
def storedOk (s : State) (b : BankId) : Bool := match (bankSt s b).stored with | some img => storedValid img | none => false

/-- Payload of 1 byte bank and 3 bytes zero; wrong: 0x0528 (R235). -/
def bankPayWrong (d : List Byte) : Bool := d.length != 4 || decide (leAt d 0 1 > 1) || leAt d 1 3 != 0
/-- Modes of LOAD_BEGIN and its like (R234); a record of the carry link comes in SHADOW (R339). -/
def loadMode (s : State) (carried : Bool) : Bool :=
  s.tck.mode == .stop || s.tck.mode == .run || s.tck.mode == .hold || (carried && s.tck.mode == .shadow)
/-- STOP, at a standby the active unit's STOP. -/
def inStop (s : State) (carried : Bool) : Bool := s.tck.mode == .stop || (carried && s.tck.mode == .shadow && s.cry.pMode == 2#8)
/-- An online change uses the bank. -/
def chgUses (s : State) (b : BankId) : Bool := s.chg.stage != .idle && (s.chg.target == b || s.ldr.inForce == some b)
/-- A bank in force outside STOP, or one that an online change uses (R235). -/
def bankTaken (s : State) (carried : Bool) (b : BankId) : Bool := (s.ldr.inForce == some b && !inStop s carried) || chgUses s b
def activatePending (s : State) (b : BankId) : Bool := match s.ldr.activate with | some a => a.bank == b | none => false
/-- No bank is in force any more: no point table, no image (R87). Forces stay until a table comes into force (R117), a reset or a
force command ends them: the spec says nothing of them here (log 13). -/
def dropBank (s : State) : State := clearViews { s with ldr.inForce := none, img.ins := [], img.outs := [], img.stores := [] }
/-- Bank content that a new load discards; a bank that was in force (in STOP) is no longer (log 13). -/
def loseBank (s : State) (b : BankId) : State :=
  let s1 := setBank s b (fun q => { q with phase := .empty, length := 0, chunks := [], image := [], prog := none, period := 0, share := 0, data := [] })
  if s1.ldr.inForce = some b then dropBank s1 else s1

/-- LOAD_BEGIN. -/
def doLoadBegin (carried : Bool) (d : List Byte) (w : Who) (s : State) : State :=
  let b := bankOfNo (leAt d 0 1)
  let n := leAt d 4 4
  refuseOr s w [(d.length != 8 || decide (leAt d 0 1 > 1) || leAt d 1 3 != 0, 0x0528), (!loadMode s carried, 0x052B),
      (bankTaken s carried b || activatePending s b, 0x0529), (decide (n < 48) || decide (n > 268435456), 0x0527)] (fun s =>
    let s1 := setBank (loseBank s b) b (fun q => { q with phase := .loading, length := n })
    respond (forward carried s1 (nextEdge s1) 0x0501 d) w 0 [])

/-- LOAD_DATA, before its transfer. -/
def doLoadData (r : Req) (w : Who) (s : State) : State :=
  let a := leAt r.payload 0 4
  let b := if bitOf a 31 then BankId.b else BankId.a
  let ofs := a % 2 ^ 29
  let n := r.hostLen.toNat
  let q := bankSt s b
  refuseOr s w [(r.payload.length != 4 || field a 29 2 != 0 || n == 0 || decide (n > 16777216) ||
        (q.phase == .loading && decide (ofs + n > q.length)), 0x0528),
      (!loadMode s false, 0x052B), (bankTaken s false b, 0x0529), (q.phase != .loading, 0x052A)] (fun s =>
    startXfer s w r (.load b ofs))
/-- A block of image data arrives, or its transfer fails: its range counts as not written (R235). -/
def placeChunk (s : State) (b : BankId) (ofs len : Nat) (data : Option (List Byte)) : State :=
  setBank s b (fun q => { q with chunks := { ofs := ofs, len := len, data := data } :: q.chunks })
/-- The end of the transfer of a LOAD_DATA. -/
def loadDataEnd (s : State) (x : Xfer) (b : BankId) (ofs : Nat) (res : TransferResult) : State :=
  let q := bankSt s b
  if q.phase ≠ .loading ∨ ofs + x.len > q.length then respond s x.who (match res with | .done _ => 0x052A | .error => 0x0106) []
  else
    match res with
    | .error => respond (placeChunk s b ofs x.len none) x.who 0x0106 []
    | .done data =>
      let data := padTo x.len data
      let s1 := placeChunk s b ofs x.len (some data)
      respond (forward false s1 (nextEdge s1) 0x0502 (leBytes 4 (ofs + 2 ^ 31 * bankNo b) ++ data)) x.who 0 []

/-- The image that the blocks give, oldest first; unwritten bytes are none (R235). -/
def assemble (q : BankSt) : List (Option Byte) :=
  q.chunks.reverse.foldl (fun (img : List (Option Byte)) c =>
    let part := match c.data with | some d => d.map some | none => List.replicate c.len none
    img.take c.ofs ++ part ++ img.drop (c.ofs + c.len)) (List.replicate q.length none)
/-- LOAD_END. -/
def doLoadEnd (carried : Bool) (d : List Byte) (w : Who) (s : State) : State :=
  let b := bankOfNo (leAt d 0 1)
  let q := bankSt s b
  let img := assemble q
  refuseOr s w [(bankPayWrong d, 0x0528), (!loadMode s carried, 0x052B), (bankTaken s carried b, 0x0529), (q.phase != .loading, 0x052A),
      (img.any (fun x => x.isNone), 0x052A)] (fun s =>
    let s1 := setBank s b (fun q => { q with phase := .loaded, chunks := [], image := img.filterMap id })
    let s2 := { s1 with ldr.verify := s1.ldr.verify ++ [{ bank := b, who := some w }] }
    forward carried s2 (nextEdge s2) 0x0503 d)
/-- VERIFY. -/
def doVerify (carried : Bool) (d : List Byte) (w : Who) (s : State) : State :=
  let b := bankOfNo (leAt d 0 1)
  let q := bankSt s b
  refuseOr s w [(bankPayWrong d, 0x0528), (!loadMode s carried, 0x052B), (bankTaken s carried b || activatePending s b, 0x0529),
      (q.phase != .loaded && q.phase != .admitted, 0x052A)] (fun s =>
    let s1 := { s with ldr.verify := s.ldr.verify ++ [{ bank := b, who := some w }] }
    forward carried s1 (nextEdge s1) 0x0504 d)
/-- RESTORE. -/
def doRestore (carried : Bool) (d : List Byte) (w : Who) (s : State) : State :=
  let b := bankOfNo (leAt d 0 1)
  refuseOr s w [(bankPayWrong d, 0x0528), (!loadMode s carried, 0x052B), (bankTaken s carried b || activatePending s b, 0x0529),
      (!storedOk s b, 0x052D)] (fun s =>
    let img := ((bankSt s b).stored).getD []
    let s1 := setBank (loseBank s b) b (fun q => { q with phase := .loaded, length := img.length, image := img })
    let s2 := { s1 with ldr.verify := s1.ldr.verify ++ [{ bank := b, who := some w }] }
    forward carried s2 (nextEdge s2) 0x0507 d)
/-- ACTIVATE: pending until the first edge at least 2 µs on (R237). -/
def doActivate (carried : Bool) (d : List Byte) (w : Who) (s : State) : State :=
  let b := bankOfNo (leAt d 0 1)
  refuseOr s w [(bankPayWrong d, 0x0528), (!inStop s carried, 0x052B), (s.chg.stage != .idle && s.chg.target == b, 0x0529),
      (s.ldr.activate.isSome || (bankSt s b).phase != .admitted || s.ldr.inForce == some b, 0x052A)] (fun s =>
    let s1 := { s with ldr.activate := some { bank := b, who := w, accepted := if carried then s.now - 2000 else s.now } }
    forward carried s1 (applyTick s1) 0x0505 d)
/-- A stored-copy write begins: the stored copy is invalid until it completes (R236). -/
def startSave (s : State) (b : BankId) (w : Option Who) : State :=
  let s1 := { s with ldr.saves := s.ldr.saves ++ [{ bank := b, who := w, image := (bankSt s b).image }] }
  setBank s1 b (fun q => { q with stored := none })
/-- SAVE. Its row lists every mode, the bank in force not excepted: R235 refuses it for a bank that a change uses only (log 98). -/
def doSave (carried : Bool) (d : List Byte) (w : Who) (s : State) : State :=
  let b := bankOfNo (leAt d 0 1)
  let q := bankSt s b
  refuseOr s w [(bankPayWrong d, 0x0528), (notHere s carried, 0x052B), (chgUses s b, 0x0529),
      (q.phase != .loaded && q.phase != .admitted, 0x052A)] (fun s =>
    forward carried (startSave s b (some w)) (nextEdge s) 0x0506 d)
/-- ERASE. -/
def doErase (carried : Bool) (d : List Byte) (w : Who) (s : State) : State :=
  let b := bankOfNo (leAt d 0 1)
  refuseOr s w [(bankPayWrong d, 0x0528), (!loadMode s carried, 0x052B), (bankTaken s carried b || activatePending s b, 0x0529),
      (s.ldr.inForce == some b, 0x052A)] (fun s =>
    let s1 := loseBank s b
    respond (forward carried s1 (nextEdge s1) 0x0508 d) w 0 [])
/-- BANK_INFO, of any bank: its row takes it in every mode but BOOT and returns 4 for the bank in force, so 0x0529 is not for it (R235, log 98). -/
def doBankInfo (d : List Byte) (w : Who) (s : State) : State :=
  let b := bankOfNo (leAt d 0 1)
  let q := bankSt s b
  let held := q.phase == .loaded || q.phase == .admitted
  let st := if s.ldr.inForce = some b then 4 else match q.phase with | .empty => 0 | .loading => 1 | .loaded => 2 | .admitted => 3
  refuseOr s w [(bankPayWrong d, 0x0528), (s.tck.mode == .boot, 0x052B)] (fun s =>
    respond s w 0 (leBytes 4 (if held then bankId q.image else 0) ++ leBytes 4 (if held then baseId q.image else 0) ++ leBytes 1 st ++
      leBytes 1 0 ++ leBytes 2 (if st ≥ 3 then q.period else 0) ++ leBytes 1 (if st ≥ 3 then q.share else 0) ++ leBytes 1 0))

/-- A stored-copy write ends (R236): the copy is valid unless another write of the same bank is under way; an automatic save also moves BOOT_BANK, as by a commit (R269). -/
def saveComplete (s : State) (passed : Bool) : State :=
  match s.ldr.saves with
  | [] => s
  | v :: rest =>
    let s1 := { s with ldr.saves := rest }
    if !passed then respondOpt (record (setBank s1 v.bank (fun q => { q with stored := none })) 0x052C []) v.who 0x052C s1.tck.tick []
    else
      let s2 := setBank s1 v.bank (fun q => { q with stored := if rest.any (fun x => x.bank == v.bank) then none else some v.image })
      let s3 := record s2 0x0542 [bankNo v.bank]
      match v.who with
      | some w => respond s3 w 0 []
      | none =>
        let aim (f : RegFile) : RegFile := fileSet f 0x05 0x100 (maskWrite (fileReg f 0x05 0x100) (BitVec.ofNat 32 (bankNo v.bank)) 1#32)
        setBlk s3 0x05 (fun c =>
          match c.check, c.pend with
          | some k, _ => { c with check := some { k with copy := aim k.copy } }
          | none, some p => { c with pend := some { p with copy := aim p.copy } }
          | none, none => { c with pend := some { copy := aim c.inForce, work := .commit, passedAt := s3.now } })

/-- LDR_FAIL shows a rejection (R239, R270). -/
def noteReject (s : State) (x : Reject) : State :=
  { s with ldr.failRod := BitVec.ofNat 6 x.rod, ldr.failAddr := BitVec.ofNat 15 x.addr, ldr.failIndex := BitVec.ofNat 4 x.idx }
/-- The verifier rejects a bank (R239): a bank in force is in force no longer, for only an admitted one is (R22, R87, log 13). -/
def rejectBank (s : State) (b : BankId) (x : Reject) : State :=
  let s0 := setBank s b (fun q => { q with phase := .loaded, period := 0, share := 0, prog := none, data := [] })
  let s1 := if s0.ldr.inForce = some b then dropBank s0 else s0
  noteReject s1 x
/-- The verifier admits a bank (R239, R242). -/
def admitBank (s : State) (b : BankId) (img : List Byte) : State :=
  let s1 := setBank s b (fun q =>
    { q with phase := .admitted, prog := some (parseBank img), period := tickPeriod s, share := shareNow s
             bound := analyticBound img (tickPeriod s) (shareNow s) })
  record s1 0x0540 [bankNo b, bankId img % 2 ^ 24, tickPeriod s]
/-- VERIFIER_END. A bank that a pending ACTIVATE names stays ADMITTED to its edge (R237): a VERIFY that was running is answered (log 99). -/
def verifierEnd (s : State) (b : BankId) : State :=
  match s.ldr.verify.find? (fun v => v.bank == b) with
  | none => s
  | some v =>
    let s1 := { s with ldr.verify := s.ldr.verify.erase v }
    let q := bankSt s1 b
    if q.phase ≠ .loaded ∧ q.phase ≠ .admitted then respondOpt s1 v.who 0x052A s1.tck.tick []
    else
      match verifyImage s1 q.image with
      | some x => respondOpt (if activatePending s1 b then noteReject s1 x else rejectBank s1 b x) v.who x.code s1.tck.tick []
      | none => respondOpt (admitBank s1 b q.image) v.who 0 s1.tck.tick []

/-- A bank comes into force: its instance data are the initial ones (R237); the image acts under R120. -/
def bringIntoForce (s : State) (b : BankId) (edge : Nat) : State :=
  let old := pointTable s
  match (bankSt s b).prog with
  | none => s
  | some p =>
    let s1 := newTable { s with ldr.inForce := some b } old p.points edge false
    let s2 := dropForces s1 p.points
    setBank s2 b (fun q => { q with data := initialData p })

def execLoadBegin (r : Req) (s : State) : Host.Outcome State Fault Refusal := .next (command s r 0x0501 (fun q => doLoadBegin false q.payload))
def execLoadData (r : Req) (s : State) : Host.Outcome State Fault Refusal := .next (command s r 0x0502 doLoadData)
def execLoadEnd (r : Req) (s : State) : Host.Outcome State Fault Refusal := .next (command s r 0x0503 (fun q => doLoadEnd false q.payload))
def execVerify (r : Req) (s : State) : Host.Outcome State Fault Refusal := .next (command s r 0x0504 (fun q => doVerify false q.payload))
def execActivate (r : Req) (s : State) : Host.Outcome State Fault Refusal := .next (command s r 0x0505 (fun q => doActivate false q.payload))
def execSave (r : Req) (s : State) : Host.Outcome State Fault Refusal := .next (command s r 0x0506 (fun q => doSave false q.payload))
def execRestore (r : Req) (s : State) : Host.Outcome State Fault Refusal := .next (command s r 0x0507 (fun q => doRestore false q.payload))
def execErase (r : Req) (s : State) : Host.Outcome State Fault Refusal := .next (command s r 0x0508 (fun q => doErase false q.payload))
def execBankInfo (r : Req) (s : State) : Host.Outcome State Fault Refusal := .next (command s r 0x0509 (fun q => doBankInfo q.payload))
def execSaveComplete (passed : Bool) (s : State) : Host.Outcome State Fault Refusal := .next (saveComplete s passed)

end Sys2Proof.Machine
end

