-- ==== Sys2Proof/Machine/Change.lean ====
section
/-! DEFINITION. Online change: start, background migration, the swap decision, the swap edge, and how a change ends (R256 to R269). -/
namespace Sys2Proof.Machine
open Sys2Proof

/-- Standby READY, in a pair (R258, R262). -/
def standbyReady (s : State) : Bool := !isPair s || (partnerShadow s && s.cry.pReady == 0#8)
/-- The bank that CHG_START names, when its admission matches the period and share in force (R258). -/
def admissionMatches (s : State) (q : BankSt) : Bool := q.period == tickPeriod s && q.share == shareNow s
/-- The first rod whose old and new cache-resident segments do not fit together (R258). -/
def cacheFull (old new : Bank) : Option Nat := (List.range 48).find? (fun r => decide (cacheWords old r + cacheWords new r > 524288))

/-- The first pass is complete (R260). -/
def firstPassDone (s : State) : State := record { s with chg.stage := .converging } 0x0621 []
/-- Initial data of a bank's constant segments, which the map never builds (R256, R265). -/
def constData (b : Bank) : SMap Word :=
  (initialData b).filter (fun e => match smGet b.segs (e.1 / 2 ^ 24) with | some d => d.kind == 3 | none => false)
/-- No change in progress, bank b the last target; what CHG_DIRTY and CHG_SWAP_TICK show stays (R271). -/
def chgOver (s : State) (b : BankId) : Chg := { Chg.reset with target := b, swapTick := s.chg.swapTick, dirtyUnits := s.chg.dirtyUnits }
/-- Start a change that has passed R258; the new bank's constant segments hold their data from the start. -/
def beginChange (s : State) (b : BankId) (old new : Bank) (w : Who) : State :=
  let lines := allLines new
  let units := lines.foldl (fun a l => a + lineCost new l) 0
  let s1 := setBank s b (fun q => { q with data := constData new })
  let s2 := { s1 with chg := { chgOver s b with stage := .first, who := some w, toBuild := lines, constUnits := constUnits old new } }
  let s3 := record s2 0x0620 [bankNo b, units]
  if lines.isEmpty then firstPassDone s3 else s3
/-- CHG_START (R257, R258): the mode and a change in progress decide before its payload is looked at (log 11). The parameter of 0x0603 is answered as result data (log 97). -/
def doChgStart (carried : Bool) (d : List Byte) (w : Who) (s : State) : State :=
  let b := bankOfNo (leAt d 0 1)
  let q := bankSt s b
  let early : List (Bool × Nat) :=
    [(s.tck.mode != .run && s.tck.mode != .hold && !(carried && s.tck.mode == .shadow), 0x0606), (s.chg.stage != .idle, 0x0608)]
  refuseOr s w early (fun s =>
    if bankPayWrong d then respondFree s w
    else
    match bankInForce s, q.prog with
    | some old, some new =>
      refuseOr s w [(q.phase != .admitted || s.ldr.inForce == some b, 0x0601),
          (!admissionMatches s q, 0x060E), (new.base != old.id, 0x0602)] (fun s =>
        match cacheFull old new with
        | some rod => respond s w 0x0603 (leBytes 1 rod)
        | none =>
          refuseOr s w [(decide (constUnits old new > 2048), 0x0604), (!migSourceOk old new, 0x0605),
              (!standbyReady s && !carried, 0x0607)] (fun s =>
            forward carried (beginChange s b old new w) (nextEdge s) 0x0601 d))
    | _, _ => respond s w 0x0601 [])

/-- A change ends with nothing of the new bank in force (R268). -/
def endChange (s : State) (reason : Nat) : State :=
  if s.chg.stage = .idle then s
  else
    let s1 := setBlk { s with chg := chgOver s s.chg.target, cry.swapSeal := false } 0x06
      (fun c => { c with reason := BitVec.ofNat 16 reason })
    respondOpt s1 s.chg.who reason s1.tck.tick []
/-- CHG_ABORT. -/
def doChgAbort (carried : Bool) (d : List Byte) (w : Who) (s : State) : State :=
  refuseShape s w d [(notHere s carried, 0x0606), (s.chg.stage == .ordered, 0x060B)] (fun s =>
    respond (forward carried (endChange s 0x060A) (nextEdge s) 0x0602 []) w 0 [])

/-- MIGRATION_LINE_BUILD: the background work of the stage (R260, R261). -/
def migrationLineBuild (s : State) : State :=
  match s.chg.stage with
  | .first =>
    match s.chg.toBuild with
    | [] => firstPassDone s
    | l :: rest =>
      let s1 := buildLine { s with chg.toBuild := rest } l
      if rest.isEmpty then firstPassDone s1 else s1
  | .converging =>
    match s.chg.dirty with
    | l :: _ => buildLine s l
    | [] => s
  | _ => s

/-- CHG_DIRTY takes the dirty-unit count of a deadline (R271). -/
def noteDirty (s : State) : State := { s with chg.dirtyUnits := dirtyUnits s }
/-- No mode transition waits for the next edge, a planned switchover counted as one (R28, R350). -/
def noTransition (s : State) : Bool := s.tck.trans.isNone && s.cry.switchover.isNone && s.tck.pend.isNone
/-- The swap decision for edge m (R262); a tick whose delta overflows leaves no READY standby (R340). -/
def swapDecision (s : State) (m : Nat) : State :=
  match s.chg.stage with
  | .converging =>
    let d := dirtyUnits s
    let units := d + s.chg.constUnits
    if units ≤ 2048 && noTransition s && standbyReady s && !s.cry.overflow then
      record { s with chg.stage := .ordered, chg.swapAt := some m, chg.swapTick := BitVec.ofNat 32 m, cry.swapSeal := true } 0x0622
        [m % 2 ^ 24, d, s.chg.constUnits]
    else
      let n := s.chg.postponed + 1
      let s1 := { s with chg.postponed := n }
      let s2 := if cfgBit s1 0x06 0x100 0 then record s1 0x0624 [units, n] else s1
      if n ≥ 1000 then endChange s2 0x0609 else s2
  | _ => s

/-- Triggers that no task of a bank lists are discarded; their number, which may be 0, is recorded as 0x0625 (R237, R266). -/
def keepTriggers (s : State) (keep : Nat → Bool) : State :=
  let kept := s.tasks.latched.filter keep
  let n := s.tasks.latched.length - kept.length
  record { s with tasks.latched := kept } 0x0625 [n]
/-- Every line still to build or marked is built: the work of the swap window (R265). -/
def finishLines (s : State) : State :=
  -- a standby may finish them after the edge (R267)
  if s.tck.mode = .shadow ∧ s.cry.takeover.isNone then { s with cry.catchUp := (s.chg.toBuild ++ s.chg.dirty).eraseDups, cry.swapOld := s.ldr.inForce }
  else
  let s1 := s.chg.toBuild.foldl buildLine { s with chg.toBuild := [] }
  s1.chg.dirty.foldl buildLine s1
/-- The swap edge m (R265 to R267, R269). -/
def swapEdge (s : State) (m : Nat) : State :=
  let b := s.chg.target
  match (bankSt s b).prog with
  | none => s
  | some new =>
    let old := pointTable s
    let who := s.chg.who
    let s1 := finishLines s
    let s2 := newTable { s1 with ldr.inForce := some b } old new.points m true
    let s3 := dropForces s2 new.points
    let s4 := keepTriggers s3 (fun i => new.tasks.any (fun t => taskTakes t i))
    let s5 := setBlk { s4 with chg := { chgOver s4 b with swapTick := BitVec.ofNat 32 m }, tck.swapTick := true } 0x06
      (fun c => { c with reason := 0#16 })
    let s6 := record s5 0x0623 [m % 2 ^ 24]
    let s7 := respondOpt s6 who 0 (BitVec.ofNat 64 m) []
    if cfgBit s7 0x05 0x100 1 then startSave s7 b none else s7

def execChgStart (r : Req) (s : State) : Host.Outcome State Fault Refusal := .next (command s r 0x0601 (fun q => doChgStart false q.payload))
def execChgAbort (r : Req) (s : State) : Host.Outcome State Fault Refusal := .next (command s r 0x0602 (fun q => doChgAbort false q.payload))

end Sys2Proof.Machine
end

