-- ==== Sys2Proof/Machine/Modes.lean ====
section
/-! DEFINITION. Mode commands, the clock throttle, temperature and rails (R22, R26 to R32, R38, R543, R547). -/
namespace Sys2Proof.Machine
open Sys2Proof

/-- A bank is in force and admitted for the tick period in force (R22). -/
def runAllowed (s : State) : Bool :=
  match s.ldr.inForce with
  | some b => (bankSt s b).phase == .admitted && (bankSt s b).period == tickPeriod s
  | none => false
/-- The refusals that every mode command shares: mode, pending transition, configuration under way (R28, R32, R80; log 14). -/
def modeRefusals (s : State) (accepted : Bool) : List (Bool × Nat) :=
  [(!accepted, 0x0206), (transPending s, 0x0204), (anyBlkBusy s, 0x020B)]
/-- A mode command that has been accepted waits for its edge (R28, R29). -/
def setTransition (s : State) (m : Mode) (w : Who) : State := { s with tck.trans := some { target := m, who := w } }
/-- A mode command of the active unit reaches the standby, which it leaves in SHADOW (R339, R349). -/
def forwardMode (s : State) (code : Nat) : State := forward false s (nextEdge s) code []

/-- STOP. -/
def doStop (w : Who) (s : State) : State :=
  refuseOr s w (modeRefusals s (s.tck.mode == .run || s.tck.mode == .hold || s.tck.mode == .shadow)) (fun s => forwardMode (setTransition s .stop w) 0x0202)
/-- HOLD. -/
def doHold (w : Who) (s : State) : State :=
  refuseOr s w (modeRefusals s (s.tck.mode == .run)) (fun s => forwardMode (setTransition s .hold w) 0x0203)
/-- STEP: the swap decision of R263 is taken when it is accepted. -/
def doStep (w : Who) (s : State) : State :=
  refuseOr s w (modeRefusals s (s.tck.mode == .hold)) (fun s => forwardMode { swapDecision s (nextEdge s) with tck.stepReq := some w } 0x0204)
/-- FAULT_ACK: the part stays in STOP (R30). -/
def doFaultAck (carried : Bool) (w : Who) (s : State) : State :=
  refuseOr s w (if carried then [] else modeRefusals s (s.tck.mode == .stop && s.tck.fault != 0#16)) (fun s =>
    let s1 := if carried then s else { s with tck.fault := 0#16, tck.faultPs := [], tck.acked := some (s.tck.fault, s.tck.faultPs) }
    respond (forward carried s1 (nextEdge s1) 0x0205 []) w 0 [])

/-- VCORE falls to a throttle threshold (R38). The clock slows further only: VCORE that rises from 0.700 V or below into 0.700 V to
0.720 V keeps it at 1/2 until THROTTLE_RECOVER, where the table could also mean 3/4 (log 88). -/
def throttleEngage (s : State) (mv : BitVec 12) : State :=
  if s.tck.mode = .dormant then s
  else
    let level : BitVec 2 := if mv.toNat ≤ 700 then 2#2 else if mv.toNat ≤ 720 then 1#2 else 0#2
    let s1 := { s with pwr.vcoreMin := if mv.toNat < s.pwr.vcoreMin.toNat then mv else s.pwr.vcoreMin
                       pwr.l1Seen := s.pwr.l1Seen || level != 0#2, pwr.l2Seen := s.pwr.l2Seen || level == 2#2 }
    if level.toNat > s.tck.throttle.toNat then
      record { s1 with tck.throttle := level, tck.throttleMax := if level.toNat > s.tck.throttleMax.toNat then level else s.tck.throttleMax }
        0x0221 [level.toNat]
    else s1
/-- VCORE has been at or above 0.735 V for 2 µs (R38). -/
def throttleRecover (s : State) : State :=
  if s.tck.throttle = 0#2 then s else record { s with tck.throttle := 0#2 } 0x0222 []
/-- VDDQ, VSERDES or VAFE leaves its window (R543). -/
def railWindowFault (s : State) (rail : Fin 5) : State :=
  if s.tck.mode = .dormant then s else raiseFault { s with pwr.railHeld := some rail.val } 0x1312 none 0 [rail.val]
/-- The junction sample (R547). -/
def tempSample (s : State) (t : BitVec 8) : State :=
  if s.tck.mode = .dormant then s
  else
    let v := t.toInt
    let hot := decide (v ≥ 105)
    let s1 := { s with pwr.temp := t, pwr.tempMax := if v > s.pwr.tempMax.toInt then t else s.pwr.tempMax
                       pwr.coolSince := if v < 100 then (match s.pwr.coolSince with | some x => some x | none => some s.now) else none }
    let rearmed := match s1.pwr.coolSince with | some x => decide (s1.now ≥ x + 1000000000) | none => false
    let s2 := if rearmed then { s1 with pwr.hotHeld := false } else s1
    let s3 := if hot ∧ !s2.pwr.hotHeld then record { s2 with pwr.hotHeld := true } 0x1310 [toTwos 24 v] else s2
    if v ≥ 115 then raiseFault s3 0x1311 none 0 [toTwos 24 v] else s3

def execStop (r : Req) (s : State) : Host.Outcome State Fault Refusal := .next (command s r 0x0202 (fun _ => doStop))
def execHold (r : Req) (s : State) : Host.Outcome State Fault Refusal := .next (command s r 0x0203 (fun _ => doHold))
def execStep (r : Req) (s : State) : Host.Outcome State Fault Refusal := .next (command s r 0x0204 (fun _ => doStep))
def execFaultAck (r : Req) (s : State) : Host.Outcome State Fault Refusal := .next (command s r 0x0205 (fun _ => doFaultAck false))
def execThrottleEngage (mv : BitVec 12) (s : State) : Host.Outcome State Fault Refusal := .next (throttleEngage s mv)
def execThrottleRecover (s : State) : Host.Outcome State Fault Refusal := .next (throttleRecover s)
def execRailWindowFault (rail : Fin 5) (s : State) : Host.Outcome State Fault Refusal := .next (railWindowFault s rail)
def execTempSample (temp : BitVec 8) (s : State) : Host.Outcome State Fault Refusal := .next (tempSample s temp)

end Sys2Proof.Machine
end

