-- ==== Sys2Proof/Machine/Slate.lean ====
section
/-! DEFINITION. Slate memory: bytes and words, records in two copies, tally counters, the operation queue, the host commands (R467 to R489). -/
namespace Sys2Proof.Machine
open Sys2Proof

/-! ### Bytes and words -/

/-- A byte of slate memory; one that is not listed reads 0 (log 5). -/
def memByte (m : List Host.Cell) (a : Nat) : Byte :=
  match m with
  | [] => 0#8
  | c :: r => if c.1 = a then c.2 else memByte r a
/-- A byte written: the list stays in ascending order, and lists no zero. -/
def memPut (m : List Host.Cell) (a : Nat) (v : Byte) : List Host.Cell :=
  match m with
  | [] => if v = 0#8 then [] else [(a, v)]
  | c :: r =>
    if a < c.1 then (if v = 0#8 then c :: r else (a, v) :: c :: r)
    else if a = c.1 then (if v = 0#8 then r else (a, v) :: r)
    else c :: memPut r a v
/-- Bytes written from an address on. -/
def memPutBytes (m : List Host.Cell) (a : Nat) : List Byte → List Host.Cell
  | [] => m
  | b :: r => memPutBytes (memPut m a b) (a + 1) r
/-- n bytes from an address. -/
def memBytes (m : List Host.Cell) (a n : Nat) : List Byte := (List.range n).map (fun i => memByte m (a + i))

/-- First address of the reserved region, which reads as 0 and is never written (R473). -/
def sltReserved : Nat := 0x480000
def sltTallyBase : Nat := 0x040000
def sltTailBase : Nat := 0x240000
def sltRawBase : Nat := 0x440000

/-- A word written whole; its check bits are new (R467, R471). -/
def putWord (s : State) (e : Nat × List Byte) : State :=
  if e.1 ≥ sltReserved then s
  else { s with slt.mem := memPutBytes s.slt.mem e.1 (padTo 8 e.2), slt.ecc := smDel s.slt.ecc e.1 }
/-- Words of a write in write order: within the page of its start word, wrapping to its first word (R468). -/
def wordsInPage (start : Nat) (data : List Byte) : List (Nat × List Byte) :=
  let page := start / 256 * 256
  (List.range (ceilDiv data.length 8)).map (fun i => (page + (start - page + 8 * i) % 256, slice data (8 * i) 8))
/-- Reading n words notes their check-bit errors (R471). -/
def noteReads (s : State) (a n : Nat) : State :=
  (s.slt.ecc.filter (fun e => a ≤ e.1 ∧ e.1 < a + 8 * n)).foldl (fun s e =>
    if e.2 then record { s with slt.uncorrectable := satAdd s.slt.uncorrectable 1 } 0x0E21 [e.1]
    else
      let s1 := { s with slt.corrected := satAdd s.slt.corrected 1 }
      if cfgBit s1 0x0E 0x100 0 then record s1 0x0E20 [e.1] else s1) s
/-- A word that reads as invalid (R471). -/
def wordInvalid (s : State) (a : Nat) : Bool := smGet s.slt.ecc a == some true
def wordsInvalid (s : State) (a n : Nat) : Bool := (List.range n).any (fun i => wordInvalid s (a + 8 * i))

/-! ### Records (R474 to R478) -/

/-- What a page of a record holds. -/
inductive CopySt
  | none | torn
  | valid (seq : Nat) (payload : List Byte)
deriving DecidableEq, Repr

/-- Words of a copy with LEN payload bytes. -/
def copyWords (len : Nat) : Nat := ceilDiv len 8 + 2
/-- A copy as it is written (R474). -/
def copyBytes (r seq : Nat) (payload : List Byte) : List Byte :=
  let body := leBytes 2 r ++ leBytes 2 payload.length ++ leBytes 3 seq ++ leBytes 1 0 ++ padTo (8 * ceilDiv payload.length 8) payload
  body ++ leBytes 4 (crc32 body) ++ leBytes 4 0
/-- Copy k of record r as it stands (R475). -/
def copyAt (s : State) (r k : Nat) : CopySt :=
  let a := (2 * r + k) * 256
  let w0 := memBytes s.slt.mem a 8
  if w0.all (fun b => b = 0#8) ∧ !wordInvalid s a then .none
  else
    let len := leAt w0 2 2
    let n := copyWords len
    let c := memBytes s.slt.mem a (8 * n)
    if leAt w0 0 2 = r ∧ len ≤ 240 ∧ leAt w0 7 1 = 0 ∧ leAt c (8 * n - 8) 4 = crc32 (c.take (8 * n - 8)) ∧ leAt c (8 * n - 4) 4 = 0 ∧
       !wordsInvalid s a n then .valid (leAt w0 4 3) (slice c 8 len)
    else .torn
/-- SEQ a is newer than SEQ b (R476). -/
def seqNewer (a b : Nat) : Bool :=
  let d := (a + 2 ^ 24 - b) % 2 ^ 24
  decide (1 ≤ d) && decide (d ≤ 8388607)
/-- The selection of R476: copy and SEQ, and whether it was a conflict. -/
def selectCopy (a b : CopySt) : Option (Nat × Nat) × Bool :=
  match a, b with
  | .valid x _, .valid y _ => if seqNewer x y then (some (0, x), false) else if seqNewer y x then (some (1, y), false) else (some (0, x), true)
  | .valid x _, _ => (some (0, x), false)
  | _, .valid y _ => (some (1, y), false)
  | _, _ => (none, false)
/-- The payload of the newest valid copy of a record, none when it is absent. -/
def recordNow (s : State) (r : Nat) : Option (List Byte) :=
  match smGet s.slt.sel r with
  | none => none
  | some c => match copyAt s r c.1 with | .valid _ p => some p | _ => none
/-- System records in use (R479) and the user records. -/
def recordInUse (r : Nat) : Bool :=
  (decide (1 ≤ r) && decide (r ≤ 4)) || (decide (0x10 ≤ r) && decide (r ≤ 0x13)) || r == 0x20 || (decide (0x100 ≤ r) && decide (r ≤ 0x1FF))

/-- The scan of one record (R476, R478). -/
def scanRecord (s : State) (r : Nat) : State :=
  let a := copyAt s r 0
  let b := copyAt s r 1
  let x := selectCopy a b
  let s0 := noteReads (noteReads s (2 * r * 256) 32) ((2 * r + 1) * 256) 32
  let torn (s : State) (c : CopySt) (k : Nat) : State :=
    if c = .torn then { record s 0x0E11 [r, k] with slt.scanInvalid := min 1023 (s.slt.scanInvalid + 1) } else s
  let s1 := torn (torn s0 a 0) b 1
  let s2 := match a, b with
    | .valid p _, .valid q _ => if x.2 then { record s1 0x0E10 [r, p, q] with slt.scanConflicts := s1.slt.scanConflicts + 1 } else s1
    | _, _ => s1
  match x.1 with
  | some c => { s2 with slt.sel := smPut s2.slt.sel r c, slt.scanRecords := s2.slt.scanRecords + 1 }
  | none => { s2 with slt.sel := smDel s2.slt.sel r }
/-- Records whose pages hold anything, or a word with a check-bit error. -/
def recordsListed (s : State) : List Nat :=
  (((s.slt.mem.map (fun c => c.1)) ++ s.slt.ecc.map (fun e => e.1)).filter (· < sltTallyBase)).map (· / 512) |>.eraseDups

/-! ### Tally counters (R482, R483) -/

/-- A word of a counter. -/
def tallyWord (c v : Nat) : List Byte :=
  let b := leBytes 6 v
  b ++ leBytes 2 (crc16 (b ++ leBytes 2 c))
/-- Value of word i of a counter, if the word is valid. -/
def tallyAt (s : State) (c i : Nat) : Option Nat :=
  let a := sltTallyBase + 512 * c + 8 * i
  let w := memBytes s.slt.mem a 8
  if w = tallyWord c (leAt w 0 6) ∧ w.any (fun b => b ≠ 0#8) ∧ !wordInvalid s a then some (leAt w 0 6) else none
/-- The scan of one counter: its head and value. -/
def scanTally (s : State) (c : Nat) : State :=
  let best := (List.range 64).foldl (fun (acc : Option (Nat × Nat)) i =>
    match tallyAt s c i, acc with
    | some v, none => some (i, v)
    | some v, some y => if v > y.2 then some (i, v) else acc
    | none, _ => acc) none
  let s1 := noteReads s (sltTallyBase + 512 * c) 64
  match best with
  | some x => { s1 with slt.heads := smPut s1.slt.heads c x }
  | none => { s1 with slt.heads := smDel s1.slt.heads c }
def talliesListed (s : State) : List Nat :=
  ((s.slt.mem.filter (fun c => sltTallyBase ≤ c.1 ∧ c.1 < sltTailBase)).map (fun c => (c.1 - sltTallyBase) / 512)).eraseDups
def tallyValue (s : State) (c : Nat) : Nat := (smGetD s.slt.heads c (0, 0)).2
/-- A slot of the tail as it stands in slate; one with an invalid word reads as empty (R471, log 129). -/
def tailSlot (s : State) (i : Nat) : List Byte :=
  let a := sltTailBase + 32 * (i % 65536)
  if wordsInvalid s a 4 then List.replicate 32 0#8 else memBytes s.slt.mem a 32
/-- The scan of BOOT step 5: every record but the slot pointer, which step 2 has scanned, and the tally counters (R478, R483). -/
def scanSlate (s : State) : State :=
  let s1 := ((recordsListed s).filter (· ≠ 1)).foldl scanRecord s
  (talliesListed s1).foldl scanTally s1

/-! ### Operations (R468 to R470) -/

/-- The words that an operation writes, fixed when it starts (R477, R483). -/
def opWords (s : State) (w : SltWork) : List (Nat × List Byte) × State :=
  match w with
  | .record r payload =>
    let c := match smGet s.slt.sel r with | some c => (1 - c.1, (c.2 + 1) % 2 ^ 24) | none => (0, 1)
    (wordsInPage ((2 * r + c.1) * 256) (copyBytes r c.2 payload), s)
  | .tally c delta =>
    let h := match smGet s.slt.heads c with
      | some h => (h, s)
      | none => let f := freeNat s; ((f.1 % 64, 0), f.2)
    let v := min (2 ^ 48 - 1) (h.1.2 + delta)
    ([(sltTallyBase + 512 * c + 8 * ((h.1.1 + 1) % 64), tallyWord c v)], h.2)
  | .raw addr data => (wordsInPage addr data, s)
  | _ => ([], s)
/-- The part's own account of a completed write: newest copy, head, counters of block 0x0E (R478, R483, R488). -/
def noteWritten (s : State) (r : SltRun) : State :=
  let s1 := if r.words.isEmpty then s
    else { s with slt.writes := s.slt.writes + 1#32
                  slt.lastPage := BitVec.ofNat 15 ((match r.words.head? with | some w => w.1 | none => 0) / 256) }
  match r.op.work with
  | .record n _ =>
    match r.words.head? with
    | some w => { s1 with slt.sel := smPut s1.slt.sel n ((w.1 / 256) % 2, leAt w.2 4 3) }
    | none => s1
  | .tally c delta =>
    match r.words.head? with
    | some w =>
      let old := tallyValue s1 c
      let s2 := { s1 with slt.heads := smPut s1.slt.heads c (((w.1 - sltTallyBase) / 8) % 64, leAt w.2 0 6) }
      if old + delta > 2 ^ 48 - 1 ∧ c ∉ s2.slt.saturated then record { s2 with slt.saturated := s2.slt.saturated ++ [c] } 0x0E30 [c] else s2
    | none => s1
  | _ => s1
/-- The slot pointer as slate holds it; zeros when absent (R529). -/
def pointerNow (s : State) : List Byte := (recordNow s 1).getD (List.replicate 16 0#8)
/-- A slot that shows as valid (R537). -/
def slotValid (x : FwSlot) : Bool := x.valid && !x.fails
/-- Header and manifest of a valid slot, as FWU_INFO returns them (log 15). -/
def slotInfo (x : FwSlot) : List Byte := if slotValid x then leBytes 1 1 ++ padTo 448 x.package else leBytes 1 0
/-- Data that a read command returns (R485, R504, R538; log 15 for the layouts). -/
def readResult (s : State) (w : SltWork) : Nat × List Byte :=
  match w with
  | .readRecord r =>
    match smGet s.slt.sel r with
    | none => (0x0E06, [])
    | some c =>
      if !recordInUse r then (0x0E06, [])
      else
        match copyAt s r c.1 with
        | .valid seq p => (0, leBytes 1 c.1 ++ leBytes 2 r ++ leBytes 2 p.length ++ leBytes 3 seq ++ leBytes 1 0 ++ p)
        | _ => (0x0E06, [])
  | .readTally first count => (0, (List.range count).flatMap (fun i => leBytes 6 (tallyValue s (first + i))))
  | .readRaw addr len =>
    (0, memBytes s.slt.mem addr len ++ leBytes 4 (ofBits ((List.range (len / 8)).filter (fun i => wordInvalid s (addr + 8 * i)))))
  | .readTail first count => (0, (List.range count).flatMap (fun i => tailSlot s (first + i)))
  | .readInfo => (0, slotInfo s.fwu.slot0 ++ slotInfo s.fwu.slot1 ++ pointerNow s)
  | .record _ _ | .tally _ _ | .raw _ _ => (0, [])
/-- Words that a read operation reads; those of a tail read wrap at the end of the tail, and are noted slot by slot. -/
def readSpan (s : State) (w : SltWork) : Nat × Nat :=
  match w with
  | .readTail first _ => (sltTailBase + 32 * (first % 65536), 4)
  | .readInfo => match smGet s.slt.sel 1 with | some c => ((2 + c.1) * 256, 4) | none => (0, 0)
  | .readRecord r => match smGet s.slt.sel r with | some c => ((2 * r + c.1) * 256, 32) | none => (0, 0)
  | .readTally first count => (sltTallyBase + 512 * first, 64 * count)
  | .readRaw addr len => (addr, len / 8)
  | _ => (0, 0)
/-- What a read operation reads is noted. -/
def noteRun (s : State) (w : SltWork) : State :=
  match w with
  | .readTail first count => (List.range count).foldl (fun s i => noteReads s (sltTailBase + 32 * ((first + i) % 65536)) 4) s
  | _ => let span := readSpan s w; noteReads s span.1 span.2
/-- An operation ends: its words are written, its command is answered. -/
def finishRun (s : State) (r : SltRun) : State :=
  let s1 := noteWritten (r.words.foldl putWord s) r
  match r.op.work with
  | .record _ _ | .tally _ _ | .raw _ _ =>
    match r.op.who with
    | some w => if w.code = 0x1103#16 then respond s1 w 0 [] else respondAt s1 w 0 r.op.edge []
    | none => s1
  | w =>
    let s2 := noteRun s1 w
    let x := readResult s2 w
    respondOpt s2 r.op.who x.1 s2.tck.tick x.2
/-- Whether an operation writes the claim record. -/
def isClaimOp (o : SltOp) : Bool := match o.work with | .record r _ => r == 2 | _ => false
def isWriteOp (o : SltOp) : Bool := match o.work with | .record _ _ | .tally _ _ | .raw _ _ => true | _ => false
/-- The oldest operation of the lowest priority number. -/
def topOp (q : List SltOp) : Option SltOp :=
  q.foldl (fun best o => match best with | none => some o | some b => if o.pri < b.pri then some o else best) none
/-- Two operations that write one record. -/
def sameRecord (a b : SltOp) : Bool := match a.work, b.work with | .record r _, .record q _ => r == q | _, _ => false
/-- The next operation: lowest priority number, oldest first (R470); an earlier write of its record goes before it (R477). -/
def nextOp (q : List SltOp) : Option SltOp := (topOp q).map (fun o => (q.find? (sameRecord o)).getD o)
/-- An operation begins; each word takes at most 25 ns, a word read at most 10 ns. -/
def beginOp (s : State) (o : SltOp) : SltRun × State :=
  let x := opWords { s with slt.queue := s.slt.queue.erase o } o.work
  let n := x.1.length
  let span := readSpan x.2 o.work
  let words := match o.work with | .readTail _ count => 4 * count | _ => span.2
  ({ op := o, words := x.1, start := s.now, finish := s.now + (if isWriteOp o then 25 * n else 10 * words) }, x.2)
/-- A claim write that runs ends. -/
def endClaim (s : State) : State := match s.slt.claimRun with | some r => finishRun { s with slt.claimRun := none } r | none => s
/-- What runs beside it ends. -/
def endRun (s : State) : State := match s.slt.run with | some r => finishRun { s with slt.run := none } r | none => s
/-- Everything that runs ends. -/
def finishAll (s : State) : State := endRun (endClaim s)
/-- A read runs. -/
def runsRead (s : State) : Bool := match s.slt.run with | some r => !isWriteOp r.op | none => false
/-- A claim write that is queued begins unless another one or a read runs; it enters between two words of any other write, which ends
later by its time (R470). -/
def startClaim (s : State) : State :=
  match s.slt.claimRun, s.slt.queue.find? isClaimOp with
  | none, some o =>
    if runsRead s then s
    else
      let x := beginOp s o
      let d := x.1.finish - s.now
      { x.2 with slt.claimRun := some x.1, slt.run := x.2.slt.run.map (fun r => { r with start := r.start + d, finish := r.finish + d }) }
  | _, _ => s
/-- Operations whose time is over end (as time passes, log 1); a claim write that waited for one begins. -/
def finishDue (s : State) : State :=
  let due (r : Option SltRun) : Bool := match r with | some r => decide (s.now ≥ r.finish) | none => false
  let s1 := if due s.slt.claimRun then startClaim (endClaim s) else s
  if due s1.slt.run then startClaim (endRun s1) else s1
/-- The claim record is written: its write begins at once where R470 lets it, and it completes within 200 ns of being queued. -/
def writeClaim (s : State) (c : Nat) : State := startClaim (slateAsk { s with cry.stored := BitVec.ofNat 24 c } 1 (.record 2 (leBytes 3 c)))
/-- Every claim write is complete, as it is before a frame with the claim leaves (R324). -/
def claimsDone (s : State) : State :=
  (s.slt.queue.filter isClaimOp).foldl (fun s _ => endClaim (startClaim (if runsRead s then endRun s else s))) (endClaim s)
/-- The supervisor starts the next operation: a claim write enters beside a write that runs, any other operation waits for
what runs to end (R470). In BOOT it starts none before step 5 (R478, R483). -/
def startNextOp (s : State) : State :=
  if !mailboxUp s then finishAll s
  else
    match nextOp s.slt.queue with
    | none => s
    | some o =>
      if isClaimOp o then startClaim (if runsRead s then finishAll s else endClaim s)
      else
        let s1 := finishAll s
        let x := beginOp s1 o
        { x.2 with slt.run := some x.1 }
/-- A reset or a loss of power cuts what runs: words are written in write order, at least those for which the time has sufficed at 25 ns
each, and how many more is free (R468, R469). -/
def cutRun (s : State) (r : Option SltRun) : State :=
  match r with
  | none => s
  | some r =>
    let f := freeNat s
    let sure := min r.words.length ((s.now - r.start) / 25)
    (r.words.take (sure + f.1 % (r.words.length - sure + 1))).foldl putWord f.2
def cutSlate (s : State) : State := cutRun (cutRun s s.slt.claimRun) s.slt.run

/-! ### Host commands (R485 to R487) -/

/-- A read waits in the queue (R470 priority 5). -/
def askRead (s : State) (w : Who) (k : SltWork) : State :=
  { s with slt.queue := s.slt.queue ++ [{ pri := 5, work := k, who := some w, edge := 0#64 }] }
/-- A write that has passed its check waits for its edge (R487). -/
def askWrite (carried : Bool) (s : State) (w : Who) (k : SltWork) (code : Nat) (d : List Byte) : State :=
  let s1 := { s with slt.waits := s.slt.waits ++ [{ work := k, who := w, passedAt := if carried then s.now - 2000 else s.now }] }
  forward carried s1 (applyTick s1) code d
/-- At an edge, writes that passed their check at least 2 µs ago enter the queue (R487). -/
def sltEdge (s : State) : State :=
  let due := s.slt.waits.filter (fun x => x.passedAt + 2000 ≤ s.now)
  { s with slt.waits := s.slt.waits.filter (fun x => !decide (x.passedAt + 2000 ≤ s.now))
           slt.queue := s.slt.queue ++ due.map (fun x => { pri := 5, work := x.work, who := some x.who, edge := s.tck.tick }) }

def doSltRecRead (d : List Byte) (w : Who) (s : State) : State :=
  refuseOr s w [(inBoot s, 0x0103), (decide (leAt d 0 2 > 0x1FF), 0x0E01), (leAt d 2 2 != 0, 0x0E05)] (fun s => askRead s w (.readRecord (leAt d 0 2)))
def doSltRecWrite (carried : Bool) (d : List Byte) (w : Who) (s : State) : State :=
  let r := leAt d 0 2
  let n := leAt d 2 2
  refuseOr s w [(notHere s carried, 0x0103), (decide (r < 0x100) || decide (r > 0x1FF), 0x0E01), (decide (n > 240) || d.length != 4 + n, 0x0E02)]
    (fun s => askWrite carried s w (.record r (slice d 4 n)) 0x0E02 d)
def doSltTallyRead (d : List Byte) (w : Who) (s : State) : State :=
  let c := leAt d 0 2
  let n := leAt d 2 2
  refuseOr s w [(inBoot s, 0x0103), (decide (c > 4095) || n == 0 || decide (n > 256) || decide (c + n > 4096), 0x0E04)]
    (fun s => askRead s w (.readTally c n))
def doSltTallyAdd (carried : Bool) (d : List Byte) (w : Who) (s : State) : State :=
  let c := leAt d 0 2
  let n := leAt d 4 4
  refuseOr s w [(notHere s carried, 0x0103), (decide (c < 256) || decide (c > 4095), 0x0E04),
      (n == 0 || decide (n > 16777215) || leAt d 2 2 != 0, 0x0E05)] (fun s => askWrite carried s w (.tally c n) 0x0E04 d)
/-- A raw offset or length outside R485. -/
def rawWrong (d : List Byte) : Bool :=
  let o := leAt d 0 4
  let n := leAt d 4 2
  decide (o > 262143) || o % 8 != 0 || n % 8 != 0 || decide (n < 8) || decide (n > 256)
def doSltRawRead (d : List Byte) (w : Who) (s : State) : State :=
  refuseOr s w [(inBoot s, 0x0103), (rawWrong d, 0x0E03), (leAt d 6 2 != 0, 0x0E05)]
    (fun s => askRead s w (.readRaw (sltRawBase + leAt d 0 4) (leAt d 4 2)))
def doSltRawWrite (carried : Bool) (d : List Byte) (w : Who) (s : State) : State :=
  refuseOr s w [(notHere s carried, 0x0103), (rawWrong d || d.length != 8 + leAt d 4 2, 0x0E03), (leAt d 6 2 != 0, 0x0E05)]
    (fun s => askWrite carried s w (.raw (sltRawBase + leAt d 0 4) (padTo (leAt d 4 2) (d.drop 8))) 0x0E06 d)

def execSltRecRead (r : Req) (s : State) : Host.Outcome State Fault Refusal := .next (command s r 0x0E01 (fun q => doSltRecRead q.payload))
def execSltRecWrite (r : Req) (s : State) : Host.Outcome State Fault Refusal := .next (command s r 0x0E02 (fun q => doSltRecWrite false q.payload))
def execSltTallyRead (r : Req) (s : State) : Host.Outcome State Fault Refusal := .next (command s r 0x0E03 (fun q => doSltTallyRead q.payload))
def execSltTallyAdd (r : Req) (s : State) : Host.Outcome State Fault Refusal := .next (command s r 0x0E04 (fun q => doSltTallyAdd false q.payload))
def execSltRawRead (r : Req) (s : State) : Host.Outcome State Fault Refusal := .next (command s r 0x0E05 (fun q => doSltRawRead q.payload))
def execSltRawWrite (r : Req) (s : State) : Host.Outcome State Fault Refusal := .next (command s r 0x0E06 (fun q => doSltRawWrite false q.payload))

end Sys2Proof.Machine
end

