-- ==== Sys2Proof/Machine/Recorder.lean ====
section
/-! DEFINITION. The event recorder: the start of a tick, the window, the tail, the archive, the commands of block 0x0F (R490 to R505). -/
namespace Sys2Proof.Machine
open Sys2Proof

/-! ### The start of a tick (R493, R494, R496) -/

/-- Ticks of a rate-limit window. -/
def rateWindow (s : State) : Nat := ceilDiv 1000000000 (periodNs s)
/-- Enter the reports of BOOT, with FLAGS.BOOT (R494). -/
def enterBoot (s : State) : State :=
  s.recd.bootBuf.foldl (fun s b => enterReport s b.code b.fault true b.params b.var b.sec b.nsq) { s with recd.bootBuf := [] }
/-- Bits [63:40] and [39:32] of a tick number, as parameters. -/
def tickHighParams (t : Nat) : List Nat := [t / 2 ^ 40, (t / 2 ^ 32) % 256]
/-- Codes with records suppressed, in ascending order (R496). -/
def closeWindow (s : State) : State :=
  let sup := s.recd.suppressed
  sup.foldl (fun s e => record s 0x0F10 [e.1, e.2]) { s with recd.entered := [], recd.suppressed := [] }
/-- What the recorder enters at an edge before every other record of the tick. The first edge begins a window with the reports of BOOT. -/
def recorderEdge (s : State) : State :=
  let t := s.tck.tick.toNat
  let s0 := { s with recd.seq := 0 }
  let s1 :=
    if !s0.recd.started then
      let a := record { s0 with recd.started := true } 0x0F01 (tallyValue s0 1 % 2 ^ 24 :: tickHighParams t)
      let b := enterBoot a
      if b.recd.bootDropped > 0 then record { b with recd.bootDropped := 0 } 0x0F12 [b.recd.bootDropped] else b
    else if t % 2 ^ 32 = 0 then record s0 0x0F02 (tickHighParams t)
    else s0
  let s2 := if s1.recd.tickDropped > 0 then
      record { s1 with recd.tickDropped := 0 } 0x0F11 [(t + 0xFFFFFF) % 2 ^ 24, s1.recd.tickDropped]
    else s1
  if s.recd.started ∧ t % rateWindow s2 = 0 then closeWindow s2 else s2

/-! ### Slots of the ring and the window (R498, R499, R502) -/

/-- The record that holds an index. -/
def ringRecAt (q : RecSt) (i : Nat) : Option RingRec := q.ring.find? (fun e => e.index ≤ i ∧ i < e.index + e.slots)
/-- A slot of the ring, none when it is not held or not readable. -/
def ringSlot (q : RecSt) (i : Nat) : Option (List Byte) :=
  if q.unreadable.contains (i % ringSlots) then none
  else (ringRecAt q i).map (fun e => padTo 32 (slice (recBytes e.body) (32 * (i - e.index)) 32))
/-- The index that 32 bits name: counted back from REC_HEAD. -/
def indexOf (q : RecSt) (i : Nat) : Option Nat :=
  let back := (q.head + 2 ^ 32 - i % 2 ^ 32) % 2 ^ 32
  if back ≤ q.head then some (q.head - back) else none
/-- The latch of REC_WIN_STATE. Whether a slot entered less than 2 µs ago is ready is left open (log 17). -/
def recWinStateRead (s : State) (p : Port) : State :=
  access s p (fun s =>
    let q := s.recd
    let c := (portSt s p).cursor
    let late : Bool × State := match ringRecAt q c with
      | some e => if s.now < e.entered + 2000 then freeBool s else (false, s)
      | none => (false, s)
    let s1 := late.2
    let st := if c = q.head then WinState.empty else match ringSlot q c with
      | none => .lost
      | some _ => if late.1 then .pending else .valid
    let data := if st = .valid then (ringSlot q c).getD [] else List.replicate 32 0#8
    let s2 := setPort s1 p (fun x => { x with winState := st, winData := data, winFresh := st == .valid })
    readDone s2 p (match st with | .valid => 0#32 | .empty => 1#32 | .lost => 2#32 | .pending => 3#32))
/-- A word of the latched slot. -/
def winWord (s : State) (p : Port) (k : Nat) : Dword := BitVec.ofNat 32 (leAt (portSt s p).winData (4 * k) 4)
/-- A read of REC_WIN_7: the first one after a VALID latch advances the cursor. -/
def recWin7Read (s : State) (p : Port) : State :=
  access s p (fun s =>
    let v := winWord s p 7
    let s1 := if (portSt s p).winFresh then setPort s p (fun x => { x with winFresh := false, cursor := x.cursor + 1 }) else s
    readDone s1 p v)

/-! ### The tail (R500) -/

/-- Payload of record 0x0020: next slot and its pass. -/
def tailPosition (q : RecSt) : List Byte := leBytes 2 q.tailNext.toNat ++ leBytes 1 (b2n q.tailPass)
/-- Slate priority of the tail's writes. -/
def tailPri (s : State) : Nat := if s.recd.tailUrgent then 2 else 4
/-- A slot with the parity of the pass in FLAGS.PASS. -/
def withPass (d : List Byte) (pass : Bool) : List Byte :=
  d.take 2 ++ [BitVec.ofNat 8 (setBitN ((d.getD 2 0#8).toNat) 6 pass)] ++ d.drop 3
/-- TAIL_COPY: the oldest copy that waits goes to its slot in three writes. -/
def tailCopy (s : State) : State :=
  match s.recd.tailQueue with
  | [] => s
  | d :: rest =>
    let q := s.recd
    let a := sltTailBase + 32 * q.tailNext.toNat
    let d := withPass d q.tailPass
    let pri := tailPri s
    let s1 := slateAsk (slateAsk (slateAsk s pri (.raw a (List.replicate 8 0#8))) pri (.raw (a + 8) (slice d 8 24))) pri (.raw a (d.take 8))
    let n := q.tailCopies + 1
    let s2 := { s1 with recd.tailQueue := rest, recd.tailNext := q.tailNext + 1#16
                        recd.tailPass := if q.tailNext = 0xFFFF#16 then !q.tailPass else q.tailPass, recd.tailCopies := n
                        recd.tailUrgent := q.tailUrgent && !rest.isEmpty }
    let s3 := if n % 1024 = 0 then slateAsk s2 pri (.record 0x20 (tailPosition s2.recd)) else s2
    if s3.recd.tailSkipped > 0 then record { s3 with recd.tailSkipped := 0 } 0x0F13 [s3.recd.tailSkipped] else s3
/-- An operation that writes the tail or its position. -/
def isTailOp (o : SltOp) : Bool :=
  match o.work with
  | .raw a _ => decide (sltTailBase ≤ a) && decide (a < sltRawBase)
  | .record r _ => r == 0x20
  | _ => false
/-- At PFW the queue is written at priority 2, the copies that are on their way to slate first, and the position with it. -/
def tailAtPfw (s : State) : State :=
  let raised := s.slt.queue.map (fun o => if isTailOp o then { o with pri := 2 } else o)
  slateAsk { s with slt.queue := raised, recd.tailUrgent := !s.recd.tailQueue.isEmpty } 2 (.record 0x20 (tailPosition s.recd))
/-- BOOT step 5 reads forward from the kept position while slots hold records of the expected parity. -/
def tailForward (s : State) : Nat → Nat → Bool → Nat × Bool
  | 0, i, pass => (i, pass)
  | fuel + 1, i, pass =>
    let d := tailSlot s i
    if leAt d 0 2 ≠ 0 ∧ bitOf (leAt d 2 1) 6 = pass then tailForward s fuel ((i + 1) % 65536) (if i = 65535 then !pass else pass) else (i, pass)
def tailBoot (s : State) : State :=
  match recordNow s 0x20 with
  | none => { s with recd.tailNext := 0#16, recd.tailPass := false }
  | some d =>
    let x := tailForward s 65536 (leAt d 0 2) (bitOf (leAt d 2 1) 0)
    let read := 1 + (x.1 + 65536 - leAt d 0 2) % 65536
    noteRun { s with recd.tailNext := BitVec.ofNat 16 x.1, recd.tailPass := x.2 } (.readTail (leAt d 0 2) read)

/-! ### The archive (R501, R502) -/

def archiveOn (s : State) : Bool := cfgBit s 0x0F 0x100 16
/-- A full segment has passed since the last one. -/
def segmentDue (s : State) : Bool := archiveOn s && decide (s.recd.head ≥ s.recd.archNext + 2047)
/-- The slots of a segment as the CRC covers them: padded with empty ones. -/
def segmentSlots (slots : List (List Byte)) : List Byte := (slots ++ List.replicate (2047 - slots.length) (List.replicate 32 0#8)).flatten
/-- The segment that is due: up to 2,047 slots from the first one that is not archived and still held. -/
def nextSegment (s : State) : ArchSeg :=
  let q := s.recd
  let first := max q.archNext q.oldest
  let slots := (List.range (min 2047 (q.head - first))).map (fun i => (ringSlot q (first + i)).getD (List.replicate 32 0#8))
  { tally := tallyValue s 1, first := first, crc := crc32 (segmentSlots slots), slots := slots }
/-- ARCHIVE_SEGMENT_WRITE: a full segment, or the padded one of a flush. Slots that the ring overwrote before they were archived are
skipped, and recorded once the segment is taken (0x0F14). -/
def archiveSegmentWrite (s : State) : State :=
  if !segmentDue s && s.recd.flushes.isEmpty then s
  else
    let full := segmentDue s
    let seg := nextSegment s
    let s1 := { s with recd.archive := (seg :: s.recd.archive).take 3072, recd.archNext := seg.first + seg.slots.length }
    let s2 := if seg.first > s.recd.archNext then record s1 0x0F14 [seg.first - s.recd.archNext] else s1
    if full then s2
    else
      match s2.recd.flushes with
      | w :: rest => respond { s2 with recd.flushes := rest } w 0 []
      | [] => s2
/-- A segment whose CRC passes. -/
def segmentOk (g : ArchSeg) : Bool := g.crc == crc32 (segmentSlots g.slots)
/-- A segment as it stands in flash (log 16 for the header slot). -/
def segmentBytes (g : ArchSeg) : List Byte :=
  padTo 32 (leBytes 6 g.tally ++ leBytes 4 g.first ++ leBytes 4 g.crc) ++ padTo (2047 * 32) g.slots.flatten

/-! ### Commands (R504) -/

def doRecSeek (d : List Byte) (w : Who) (s : State) : State :=
  let q := s.recd
  let m := leAt d 0 1
  let at' : Option Nat :=
    match m with
    | 0 => match indexOf q (leAt d 4 4) with
      | some i => (ringRecAt q i).map (fun e => e.index)
      | none => none
    | 1 => some q.oldest
    | _ => some q.head
  refuseOr s w [(inBoot s, 0x0103), (d.length != 8 || decide (m > 2) || leAt d 1 3 != 0, 0x0F01), (at'.isNone, 0x0F02)] (fun s =>
    let i := at'.getD 0
    respond (raiseCursor (setPort s w.port (fun x => { x with cursor := i })) w.port) w 0 (leBytes 4 i))
def doRecRead (r : Req) (w : Who) (s : State) : State :=
  let q := s.recd
  let n := pay r 4 4
  let first := indexOf q (pay r 0 4)
  let ok := match first with | some i => decide (q.oldest ≤ i) && decide (i + n ≤ q.head) | none => false
  refuseShape s w r.payload [(inBoot s, 0x0103), (n == 0 || decide (n > 65536) || !ok, 0x0F02)] (fun s =>
    let data := (List.range n).flatMap (fun i => (ringSlot q (first.getD 0 + i)).getD (List.replicate 32 0#8))
    startXfer s w r (.toHost (padTo r.hostLen.toNat data)))
def doRecTailRead (d : List Byte) (w : Who) (s : State) : State :=
  let age := leAt d 0 2
  let n := leAt d 2 2
  refuseShape s w d [(inBoot s, 0x0103), (n == 0 || decide (n > 2048) || decide (n > age + 1), 0x0F02)]
    (fun s => askRead s w (.readTail (s.recd.tailNext.toNat + 2 * 65536 - 1 - age) n))
def doRecArchiveRead (r : Req) (w : Who) (s : State) : State :=
  let seg := s.recd.archive[pay r 0 2]?
  refuseShape s w r.payload [(inBoot s, 0x0103), (match seg with | some g => !segmentOk g | none => true, 0x0F03)] (fun s =>
    match seg with
    | some g => startXfer s w r (.toHost (padTo r.hostLen.toNat (segmentBytes g)))
    | none => s)
def doRecArchiveFlush (carried : Bool) (d : List Byte) (w : Who) (s : State) : State :=
  refuseShape s w d [(inBoot s, 0x0103)] (fun s =>
    forward carried { s with recd.flushes := s.recd.flushes ++ [w] } (nextEdge s) 0x0F05 [])

def execTailCopy (s : State) : Host.Outcome State Fault Refusal := .next (tailCopy s)
def execArchiveSegmentWrite (s : State) : Host.Outcome State Fault Refusal := .next (archiveSegmentWrite s)
def execRecWinStateRead (p : Port) (s : State) : Host.Outcome State Fault Refusal := .next (recWinStateRead s p)
def execRecWin7Read (p : Port) (s : State) : Host.Outcome State Fault Refusal := .next (recWin7Read s p)
def execRecSeek (r : Req) (s : State) : Host.Outcome State Fault Refusal := .next (command s r 0x0F01 (fun q => doRecSeek q.payload))
def execRecRead (r : Req) (s : State) : Host.Outcome State Fault Refusal := .next (command s r 0x0F02 doRecRead)
def execRecTailRead (r : Req) (s : State) : Host.Outcome State Fault Refusal := .next (command s r 0x0F03 (fun q => doRecTailRead q.payload))
def execRecArchiveRead (r : Req) (s : State) : Host.Outcome State Fault Refusal := .next (command s r 0x0F04 doRecArchiveRead)
def execRecArchiveFlush (r : Req) (s : State) : Host.Outcome State Fault Refusal := .next (command s r 0x0F05 (fun q => doRecArchiveFlush false q.payload))

end Sys2Proof.Machine
end

