-- ==== Sys2Proof/Machine/Time.lean ====
section
/-! DEFINITION. Device time: its advance, corrections, the PTP ports and servo, timed launch, the commands of block 0x09 (R358 to R379). -/
namespace Sys2Proof.Machine
open Sys2Proof

/-! ### Device time (R358 to R361, R367) -/

/-- Device time in ns from the epoch. -/
def timeNs (s : State) : Int := (s.ntm.sec * 1000000000 + s.ntm.ns : Nat)
def setTimeNs (s : State) (t : Int) : State :=
  { s with ntm.sec := (t / 1000000000).toNat, ntm.ns := (t % 1000000000).toNat }
/-- One ns of the oscillator: the rate correction, in 1/1,024 ppb, and a slew of at most 500 ppm; a slew takes no ns where the rate
correction has taken one, so that time never runs backward (R367). -/
def advanceTime (s : State) : State :=
  let a := s.ntm.rateAcc + s.ntm.rate
  let full : Int := 1024000000000
  let extra : Int := if a ≥ full then 1 else if a ≤ -full then -1 else 0
  let k := s.ntm.slewAcc + 1
  let slewing := s.ntm.slew ≠ 0
  let d : Int := if slewing ∧ k ≥ 2000 ∧ (extra = 0 ∨ s.ntm.slew > 0) then (if s.ntm.slew > 0 then 1 else -1) else 0
  let t := timeNs s + 1 + extra + d
  setTimeNs { s with ntm.rateAcc := a - extra * full, ntm.slew := s.ntm.slew - d, ntm.slewAcc := if slewing ∧ d = 0 then k else 0 } t
/-- Parameters of 0x0920 and 0x0921 (R368). -/
def stepParams (t : Int) (back : Bool) : List Nat :=
  let sec := (t / 1000000000).toNat
  let ns := (t % 1000000000).toNat
  [(sec / 2 ^ 24) % 2 ^ 24, sec % 2 ^ 24, ns / 64, ns % 64 + 256 * b2n back]
/-- The time quality changes; a trim window that counts device time does not outlast LOCKED (R393, log 21). -/
def setQuality (s : State) (q : BitVec 2) : State :=
  { s with ntm.quality := q, brk.winOk := s.brk.winOk && !(q != 0#2 && cfgField s 0x0A 0x100 0 2 == 2) }
/-- A LOCKED unit without its master goes into holdover (R366). -/
def enterHoldover (s : State) : State :=
  if s.ntm.quality = 0#2 then record { setQuality s 1#2 with ntm.holdAt := s.now } 0x0911 [] else s
/-- A slew begins (0x0922); one that runs takes the new offset. -/
def startSlew (s : State) (c : Int) : State :=
  let fresh := !s.ntm.slewing && c != 0
  let x := roundFreeInt s c 1000
  let s1 := { s with ntm.slew := c, ntm.slewAcc := if s.ntm.slew = 0 then 0 else s.ntm.slewAcc, ntm.slewing := s.ntm.slewing || c != 0 }
  if fresh then record { s1 with free := x.2.free } 0x0922 [toTwos 24 x.1] else s1
/-- A correction of more than 1 ms is a step. -/
def isStep (c : Int) : Bool := decide (c > 1000000) || decide (c < -1000000)
/-- Length of the tick that an edge opens: with SYNC 1 a unit that holds the claim, or is in STOP without one, takes up to 100 ns of the
edge error from it; every other unit counts the nominal period, which a standby then places on its partner's edges (R371 to R373). -/
def tickLength (s : State) : Nat :=
  if cfgField s 0x02 0x100 9 2 = 1 ∧ s.tck.mode ≠ .shadow ∧ (holdsClaim s ∨ s.tck.mode = .stop) then
    ((periodNs s : Int) - max (-100) (min 100 s.ntm.edgeErr)).toNat
  else periodNs s

/-- The supervisor keeps the calendar offset of the bedrock domain at a valid UTC offset (R389). -/
def calSync (s : State) : State :=
  if s.ntm.utc.getLsbD 16 && !s.brk.inReset then { s with brk.calOfs := BitVec.ofNat 16 s.ntm.utc.toNat } else s

/-! ### PTP ports (R362 to R366) -/

def ntmMode (s : State) : Nat := cfgField s 0x09 0x100 0 2
def slaveOnly (s : State) : Bool := cfgBit s 0x09 0x100 3
def peerDelay (s : State) : Bool := cfgBit s 0x09 0x100 5
def ptpDomain (s : State) : Nat := cfgField s 0x09 0x100 6 7
/-- PTP runs on a port: from the first tick edge, in the mode and on the port configured. -/
def ptpOn (s : State) (eth : Bool) : Bool :=
  ticking s && (ntmMode s == 2 || (ntmMode s == 1 && cfgBit s 0x09 0x100 2 == eth))
def ptpPort (s : State) (eth : Bool) : PtpPort := if eth then s.ntm.p1 else s.ntm.p0
def setPtp (s : State) (eth : Bool) (f : PtpPort → PtpPort) : State :=
  if eth then { s with ntm.p1 := f s.ntm.p1 } else { s with ntm.p0 := f s.ntm.p0 }
def ingressNs (s : State) (eth : Bool) : Nat := cfgField s 0x09 (if eth then 0x114 else 0x110) 0 16
def egressNs (s : State) (eth : Bool) : Nat := cfgField s 0x09 (if eth then 0x114 else 0x110) 16 16
/-- Fields of the default data set comparison by grandmaster, in order. -/
def gmRank (a : Announce) : List Nat :=
  [a.priority1.toNat, a.clockClass.toNat, a.accuracy.toNat, a.variance.toNat, a.priority2.toNat, a.grandmaster.toNat]
def fullRank (a : Announce) : List Nat := gmRank a ++ [a.stepsRemoved.toNat, a.sender.toNat]
/-- Lexicographic order of ranks. -/
def rankLess : List Nat → List Nat → Bool
  | x :: xs, y :: ys => if x = y then rankLess xs ys else decide (x < y)
  | _, _ => false
/-- The unit's own data set: the attributes of IEEE 1588-2019 for a clock without a reference (log 18). -/
def ownRank (s : State) : List Nat :=
  [cfgField s 0x09 0x100 16 8, 248, 0xFE, 0xFFFF, cfgField s 0x09 0x100 24 8, Config.clockIdentity.toNat]
/-- An interval of NTM_INTERVALS at a bit offset, in ns. -/
def intervalNs (s : State) (lo : Nat) : Nat :=
  let l := ofTwos 4 (cfgField s 0x09 0x104 lo 4)
  if l ≥ 0 then 1000000000 * 2 ^ l.toNat else 1000000000 / 2 ^ (-l).toNat
/-- The announce receipt timeout, in ns. -/
def announceNs (s : State) : Nat := cfgField s 0x09 0x104 12 4 * intervalNs s 4
/-- portIdentity of the unit's ports: its clockIdentity and the port number, 1 for E0. -/
def ownPort (eth : Bool) : BitVec 80 := BitVec.ofNat 80 (Config.clockIdentity.toNat * 65536 + (if eth then 2 else 1))
/-- A foreign master that a port may choose: two Announce messages within four intervals, or chosen already; not the unit itself, and fewer
than 255 steps away (PRESUMED: IEEE 1588-2019, log 125). -/
def qualified (s : State) (p : PtpPort) (x : Foreign) : Bool :=
  (match x.prev with | some t => decide (x.at' ≤ t + 4 * intervalNs s 4) | none => false) || (p.best.map (fun a => a.sender)) == some x.ann.sender
def eligible (x : Foreign) : Bool := x.ann.sender.toNat / 65536 != Config.clockIdentity.toNat && decide (x.ann.stepsRemoved.toNat < 255)
/-- The best of the foreign masters that a port may choose. -/
def chooseBest (s : State) (p : PtpPort) : Option Announce :=
  (p.foreign.filter (fun x => qualified s p x && eligible x)).foldl (fun best x =>
    match best with
    | some a => if rankLess (fullRank x.ann) (fullRank a) then some x.ann else some a
    | none => some x.ann) none
/-- A port has heard no Announce for that time. -/
def silent (s : State) (eth : Bool) : Bool := decide (s.now ≥ (ptpPort s eth).heardAt + announceNs s)
/-- The state of a port that is neither slave nor passive: a slave-only clock listens; another listens until it has heard an Announce or the
timeout has passed, and is master from then on (R362). -/
def idlePort (s : State) (eth : Bool) : Nat :=
  let p := ptpPort s eth
  if slaveOnly s || (p.st != 6 && p.best.isNone && !silent s eth) then 4 else 6
/-- The best master clock algorithm over the two ports: their states and the slave port (R365). -/
def decidePorts (s : State) : Nat × Nat × Option Bool :=
  let on0 := ptpOn s false
  let on1 := ptpOn s true
  let b0 := if on0 then s.ntm.p0.best else none
  let b1 := if on1 then s.ntm.p1.best else none
  let base (eth : Bool) : Nat := if ptpOn s eth then idlePort s eth else 0
  let beats (a : Announce) : Bool := slaveOnly s || rankLess (gmRank a) (ownRank s)
  let other (eth : Bool) (best : Option Announce) (mine : Announce) : Nat :=
    match best with
    | some a => if ptpOn s eth && gmRank a == gmRank mine then 7 else base eth
    | none => base eth
  match b0, b1 with
  | none, none => (base false, base true, none)
  | some a, none => if beats a then (9, other true none a, some false) else (base false, base true, none)
  | none, some b => if beats b then (other false none b, 9, some true) else (base false, base true, none)
  | some a, some b =>
    if rankLess (fullRank b) (fullRank a) then
      (if beats b then (other false (some a) b, 9, some true) else (base false, base true, none))
    else (if beats a then (9, other true (some b) a, some false) else (base false, base true, none))
/-- The master of the slave port is taken: parent, grandmaster, UTC fields (R366, R376). -/
def takeMaster (s : State) (a : Announce) : State :=
  let s1 := { s with ntm.parent := a.sender, ntm.stepsRemoved := a.stepsRemoved + 1#16
                     ntm.utc := if a.utcValid then BitVec.ofNat 20 (a.utcOffset.toNat + 2 ^ 16 + 2 ^ 17 * b2n a.leap61 + 2 ^ 18 * b2n a.leap59)
                       else if s.ntm.utc.getLsbD 19 then s.ntm.utc else s.ntm.utc &&& 0xEFFFF#20 }
  let s1 := calSync s1
  if s1.ntm.grandmaster = a.grandmaster then s1
  else
    let g := a.grandmaster.toNat
    record { s1 with ntm.grandmaster := a.grandmaster } 0x0913 [g / 2 ^ 40, (g / 2 ^ 16) % 2 ^ 24, g % 2 ^ 16]
/-- The unit is its own grandmaster (R366, R377; IEEE 1588-2019, log 125). -/
def takeOwn (s : State) : State :=
  let s1 := { s with ntm.parent := BitVec.ofNat 80 (Config.clockIdentity.toNat * 65536), ntm.stepsRemoved := 0#16 }
  if s1.ntm.grandmaster = Config.clockIdentity then s1
  else
    let g := Config.clockIdentity.toNat
    record { s1 with ntm.grandmaster := Config.clockIdentity } 0x0913 [g / 2 ^ 40, (g / 2 ^ 16) % 2 ^ 24, g % 2 ^ 16]
/-- A port goes where the algorithm sends it: a slave port with a new master is UNCALIBRATED first, and the master port of a boundary clock
that has a master is PRE_MASTER for (stepsRemoved + 1) Announce intervals (PRESUMED: IEEE 1588-2019, log 125). -/
def portNext (s : State) (p : PtpPort) (target : Nat) (steps : Option Nat) : PtpPort :=
  if target = 9 then
    (if (p.st = 8 ∨ p.st = 9) ∧ p.best.map (fun a => a.sender) = some s.ntm.parent then p else { p with st := 8, sync := none, syncIn := none, syncAt := s.now })
  else if target = 6 ∧ p.st ≠ 6 then
    match steps with
    | some n =>
      if p.st ≠ 5 then { p with st := 5, preAt := s.now + (n + 1) * intervalNs s 4 }
      else if s.now ≥ p.preAt then { p with st := 6 } else p
    | none => { p with st := 6 }
  else { p with st := target }
/-- The ports take the states that the algorithm gives. A unit without a slave port goes into holdover where it was LOCKED and is its own
grandmaster; one that has found a master acquires it as UNLOCKED (R366). -/
def updatePorts (s : State) : State :=
  let x := decidePorts s
  let steps := match x.2.2 with | some e => (ptpPort s e).best.map (fun a => a.stepsRemoved.toNat + 1) | none => none
  let s1 := { s with ntm.p0 := portNext s s.ntm.p0 x.1 steps, ntm.p1 := portNext s s.ntm.p1 x.2.1 steps, ntm.slave := x.2.2 }
  match x.2.2 with
  | some eth =>
    let s2 := if s.ntm.slave = some eth then s1 else { s1 with ntm.meanDelay := (ptpPort s eth).delay }
    let s3 := if s.ntm.slave = none then (let s4 := setQuality s2 (if s.ntm.quality = 3#2 then 3#2 else 2#2); { s4 with ntm.goodRun := 0 }) else s2
    match (ptpPort s3 eth).best with | some a => takeMaster s3 a | none => s3
  | none => takeOwn (if s.ntm.slave = none then s1 else enterHoldover { s1 with ntm.goodRun := 0 })
/-- PTP starts, or starts again after a change of its settings (R363, R376), its ports INITIALIZING until the next edge: a LOCKED unit whose
master goes with it is in holdover (R366); with PTP off it is UNLOCKED. -/
def restartPtp (s : State) (wasOff : Bool) : State :=
  let port (eth : Bool) : PtpPort := { PtpPort.reset with st := if ptpOn s eth then 1 else 0, heardAt := s.now, busyUntil := (ptpPort s eth).busyUntil }
  let s1 := { s with ntm.p0 := port false, ntm.p1 := port true, ntm.slave := none, ntm.goodRun := 0 }
  let silent' := { s1 with ntm.parent := BitVec.ofNat 80 (Config.clockIdentity.toNat * 65536), ntm.stepsRemoved := 0#16, ntm.grandmaster := Config.clockIdentity }
  if ntmMode s = 0 then (if s.ntm.quality.toNat < 2 then setQuality silent' 2#2 else silent')
  else if wasOff then setQuality silent' (if s.ntm.quality = 3#2 then 3#2 else 2#2)
  else takeOwn (enterHoldover s1)
/-- Settings of block 0x09 in force: MODE, PORT, TRANSPORT, DELAY and DOMAIN start PTP again, the others act from now on. -/
def ptpApply (s : State) (old : RegFile) : State :=
  let new := (blkCfg s 0x09).inForce
  let keys (f : RegFile) : Dword := fileReg f 0x09 0x100 &&& 0x1FF7#32
  if keys old ≠ keys new then restartPtp s (fileField old 0x09 0x100 0 2 == 0)
  else if fileReg old 0x09 0x100 = fileReg new 0x09 0x100 then s
  else updatePorts s

/-- The servo after a Sync exchange: the offset, its correction, the lock; its choice of the rate is left open (log 19). -/
def servo (s : State) (eth : Bool) (ofs : Int) : State :=
  let lock : Int := (cfgField s 0x09 0x108 0 16 : Nat)
  let within := decide (ofs ≤ lock) && decide (ofs ≥ -lock)
  let r := freeInt s
  let n := if within then s.ntm.goodRun + 1 else 0
  let s1 := { r.2 with ntm.offset := satInt 32 ofs, ntm.rate := satInt 32 r.1, ntm.goodRun := n }
  let s2 := if isStep (-ofs) then { s1 with ntm.step := some (.by (-ofs) true), ntm.slew := 0, ntm.slewAcc := 0, ntm.slewing := false } else startSlew s1 (-ofs)
  if within ∧ n ≥ 8 then
    (if s2.ntm.quality = 0#2 then s2 else record (setQuality s2 0#2) 0x0910 [b2n eth])
  else setQuality s2 2#2
/-- The stamp of a frame that arrives now, and of one whose first octet leaves d ns from now, on the line side of the PHY (R364). -/
def stampIn (s : State) (eth : Bool) : Int := timeNs s + (ingressNs s eth : Nat)
def stampOut (s : State) (eth : Bool) (d : Nat) : Int := timeNs s + (d + egressNs s eth : Nat)
/-- The data set that the unit announces: its own, or its master's one step on. -/
def ownAnnounce (s : State) (eth : Bool) : Announce :=
  let u := s.ntm.utc.toNat
  let own : Announce :=
    { grandmaster := Config.clockIdentity, priority1 := BitVec.ofNat 8 (cfgField s 0x09 0x100 16 8), clockClass := 248#8, accuracy := 0xFE#8
      variance := 0xFFFF#16, priority2 := BitVec.ofNat 8 (cfgField s 0x09 0x100 24 8), stepsRemoved := 0#16, sender := 0#80
      utcOffset := BitVec.ofNat 16 u, utcValid := bitOf u 16, leap61 := bitOf u 17, leap59 := bitOf u 18, domain := BitVec.ofNat 7 (ptpDomain s) }
  let a := match s.ntm.slave with
    | some e => (match (ptpPort s e).best with | some b => { own with grandmaster := b.grandmaster, priority1 := b.priority1, clockClass := b.clockClass, accuracy := b.accuracy, variance := b.variance, priority2 := b.priority2, stepsRemoved := s.ntm.stepsRemoved } | none => own)
    | none => own
  { a with sender := ownPort eth }
def emitPtp (s : State) (eth : Bool) (m : PtpOut) : State := emit s (.ptp eth (cfgBit s 0x09 0x100 4) (ptpDomain s) m)
/-- A message leaves d ns from now. -/
def ptpStart (s : State) (eth : Bool) (d : Nat) (j : PtpJob) : State :=
  let p := ptpPort s eth
  match j with
  | .own .announce => emitPtp s eth (.announce (ownAnnounce s eth))
  | .own .sync => emitPtp (setPtp s eth (fun p => { p with syncSeq := p.syncSeq + 1#16, syncOut := some (stampOut s eth d, p.syncSeq) })) eth (.sync p.syncSeq)
  | .own .followUp =>
    match p.syncOut with
    | some t1 => emitPtp (setPtp s eth (fun p => { p with syncOut := none })) eth (.followUp t1.2 t1.1)
    | none => s
  | .own .delayReq => emitPtp (setPtp s eth (fun p => { p with reqSeq := p.reqSeq + 1#16, reqOut := some (stampOut s eth d, p.reqSeq) })) eth (.delayReq p.reqSeq)
  | .own .pdelayReq => emitPtp (setPtp s eth (fun p => { p with reqSeq := p.reqSeq + 1#16, reqOut := some (stampOut s eth d, p.reqSeq) })) eth (.pdelayReq p.reqSeq)
  | .delayResp who seq t4 => emitPtp s eth (.delayResp who seq t4)
  | .pdelayResp who seq t2 => emitPtp (emitPtp s eth (.pdelayResp who seq t2)) eth (.pdelayFollowUp who seq (stampOut s eth d))
/-- Time on the line of a frame of n octets at 1 Gbit/s, its preamble and FCS with it, in ns (log 108). -/
def frameNs (n : Nat) : Nat := 8 * (8 + max 64 (n + 4))
/-- The longest that a message takes: headers of the transport and 64 octets. -/
def ptpNs (s : State) : Nat := frameNs (14 + (if cfgBit s 0x09 0x100 4 then 28 else 0) + 64)
/-- How long the line of a port still carries a frame that has started. -/
def lineBusy (s : State) (eth : Bool) : Nat := (ptpPort s eth).busyUntil - s.now
/-- A frame of that length that starts d ns from now would overlap the launch of the frame at the head of the queue (R374). -/
def overlapsLaunch (s : State) (eth : Bool) (d ns : Nat) : Bool :=
  match (if eth then s.ntm.queueE1 else s.ntm.queueE0) with
  | l :: _ => decide (timeNs s ≤ (l.sec * 1000000000 + l.ns : Nat)) && decide (((l.sec * 1000000000 + l.ns : Nat) : Int) < timeNs s + (d + ns : Nat))
  | [] => false
/-- A message leaves as soon as the line is free, or waits until the timed frame has left. -/
def ptpSend (s : State) (eth : Bool) (j : PtpJob) : State :=
  let d := lineBusy s eth
  if overlapsLaunch s eth d (ptpNs s) then setPtp s eth (fun p => { p with held := p.held ++ [j] })
  else ptpStart (setPtp s eth (fun p => { p with busyUntil := s.now + d + ptpNs s + 96 })) eth d j
/-- Messages that a timed frame held back leave after it. -/
def releaseHeld (s : State) (eth : Bool) : State :=
  (ptpPort s eth).held.foldl (fun s j => ptpSend s eth j) (setPtp s eth (fun p => { p with held := [] }))
/-- The offset of a Sync whose times are complete goes to the servo (R365); with the first one of a master its port is SLAVE. -/
def takeSync (s : State) (eth : Bool) (t1 t2 : Int) : State :=
  servo (setPtp s eth (fun p => { p with st := 9, sync := some (t1, t2), syncIn := none, syncAt := s.now })) eth (t2 - t1 - (ptpPort s eth).delay)
/-- A mean delay of a port, half of a sum of differences. -/
def takeDelay (s : State) (eth : Bool) (sum : Int) : State :=
  let x := roundFreeInt s sum 2
  let s1 := setPtp x.2 eth (fun p => { p with delay := x.1 })
  if s.ntm.slave = some eth then { s1 with ntm.meanDelay := x.1 } else s1
/-- The foreign masters of a port after an Announce. -/
def foreignAdd (now : Nat) (a : Announce) (xs : List Foreign) : List Foreign :=
  match xs.find? (fun x => x.ann.sender == a.sender) with
  | some _ => xs.map (fun x => if x.ann.sender == a.sender then { ann := a, at' := now, prev := some x.at' } else x)
  | none => xs ++ [{ ann := a, at' := now, prev := none }]
/-- A port chooses its best foreign master anew. -/
def rechoose (s : State) (eth : Bool) : State := setPtp s eth (fun p => { p with best := chooseBest s p })
/-- An Announce of the unit's domain. -/
def takeAnnounce (s : State) (eth : Bool) (a : Announce) : State :=
  updatePorts (rechoose (setPtp s eth (fun p => { p with heardAt := s.now, foreign := foreignAdd s.now a p.foreign })) eth)
/-- A PTP message, stamped as it arrives (R362, R364, R365): Sync, Follow_Up and Delay_Resp count from the port's master alone, answers by
the request that they name; a port that initializes takes none. -/
def ptpMessageReceived (s : State) (eth : Bool) (m : PtpMsg) : State :=
  let mine (d : BitVec 7) : Bool := d.toNat == ptpDomain s
  let p := ptpPort s eth
  let master (d : BitVec 7) (src : BitVec 80) : Bool := mine d && s.ntm.slave == some eth && src == s.ntm.parent
  if !ptpOn s eth || p.st == 1 then s
  else
    match m with
    | .management => { s with ntm.mgmt := satAdd s.ntm.mgmt 1 }
    | .announce a => if mine a.domain then takeAnnounce s eth a else s
    | .sync d src seq t1 =>
      if !master d src then s
      else match t1 with
        | some t1 => takeSync s eth t1 (stampIn s eth)
        | none => setPtp s eth (fun p => { p with syncIn := some (stampIn s eth, seq) })
    | .followUp d src seq t1 =>
      match p.syncIn with
      | some t2 => if master d src && seq == t2.2 then takeSync s eth t1 t2.1 else s
      | none => s
    | .delayReq d src seq => if mine d && p.st == 6 && !peerDelay s then ptpSend s eth (.delayResp src seq (stampIn s eth)) else s
    | .delayResp d src seq who t4 =>
      match p.sync, p.reqOut with
      | some (t1, t2), some t3 => if master d src && !peerDelay s && who == ownPort eth && seq == t3.2 then takeDelay s eth ((t2 - t1) + (t4 - t3.1)) else s
      | _, _ => s
    | .pdelayReq d src seq => if mine d && peerDelay s then ptpSend s eth (.pdelayResp src seq (stampIn s eth)) else s
    | .pdelayResp d _ seq who t2 t3 =>
      match p.reqOut with
      | some t1 => if mine d && peerDelay s && who == ownPort eth && seq == t1.2 then takeDelay s eth ((stampIn s eth - t1.1) - (t3 - t2)) else s
      | none => s
/-- A PTP message that the unit sends at its interval. -/
def ptpMessageSend (s : State) (eth : Bool) (k : PtpSend) : State :=
  let st := (ptpPort s eth).st
  let may := match k with
    | .announce | .sync | .followUp => st == 6
    | .delayReq => (st == 8 || st == 9) && !peerDelay s
    | .pdelayReq => st > 1 && peerDelay s
  if ptpOn s eth && may then ptpSend s eth (.own k) else s
/-- A foreign master that has not announced itself for the timeout; the loss of the slave port's own is PTP_MASTER_LOST. -/
def foreignOld (s : State) (eth : Bool) (x : Foreign) : Bool :=
  decide (s.now ≥ x.at' + announceNs s) && !(s.ntm.slave == some eth && x.ann.sender == s.ntm.parent)
/-- At a tick edge a port leaves INITIALIZING and PRE_MASTER, forgets foreign masters that are silent, and goes on without them. -/
def ptpEdge (s : State) : State :=
  let due (eth : Bool) : Bool :=
    let p := ptpPort s eth
    ptpOn s eth && (p.st == 1 || (p.st == 5 && decide (s.now ≥ p.preAt)) || p.foreign.any (foreignOld s eth) || (p.st == 4 && !slaveOnly s && silent s eth))
  if due false || due true then
    let drop (s : State) (eth : Bool) : State := rechoose (setPtp s eth (fun p => { p with foreign := p.foreign.filter (fun x => !foreignOld s eth x) })) eth
    updatePorts (drop (drop s false) true)
  else s
/-- The master of the slave port has been silent for the announce receipt timeout, or no Sync of it has been accepted for 4 intervals (R365). -/
def masterGone (s : State) (eth : Bool) : Bool :=
  let p := ptpPort s eth
  p.foreign.all (fun x => x.ann.sender != s.ntm.parent || decide (s.now ≥ x.at' + announceNs s)) || decide (s.now ≥ p.syncAt + 4 * intervalNs s 0)
/-- PTP_MASTER_LOST: the master of the slave port is lost (R366). -/
def ptpMasterLost (s : State) : State :=
  match s.ntm.slave with
  | none => s
  | some eth =>
    if !masterGone s eth then s
    else
      let s1 := setPtp { s with ntm.slave := none, ntm.goodRun := 0 } eth (fun p => { p with best := none, sync := none, syncIn := none
                                                                                             foreign := p.foreign.filter (fun x => x.ann.sender != s.ntm.parent) })
      updatePorts (rechoose (enterHoldover s1) eth)
/-- HOLDOVER_EXPIRY: HOLDOVER_MIN minutes without a master are over (R366). -/
def holdoverExpiry (s : State) : State :=
  if s.ntm.quality = 1#2 ∧ s.ntm.holdAt + 60000000000 * cfgField s 0x09 0x108 16 16 ≤ s.now then record (setQuality s 2#2) 0x0912 [] else s
/-- SLEW_COMPLETE: once a slew has removed its correction SLEWING ends; before that it runs on (R367). -/
def slewComplete (s : State) : State := if s.ntm.slew = 0 then { s with ntm.slewing := false } else s
/-- The end of a UTC day with an announced leap second (R378). -/
def leapSecond (s : State) : State :=
  let u := s.ntm.utc.toNat
  let d : Int := if bitOf u 17 then 1 else if bitOf u 18 then -1 else 0
  if d = 0 then s
  else
    let old := ofTwos 16 u
    calSync (record { s with ntm.utc := BitVec.ofNat 20 (toTwos 16 (old + d) + 2 ^ 16 * b2n (bitOf u 16) + 2 ^ 19 * b2n (bitOf u 19)) } 0x0932
      [toTwos 24 old, toTwos 24 (old + d)])
/-- A read of NTM_NOW_NS latches the seconds and the UTC fields of its instant (R361). -/
def ntmNowNsRead (s : State) (p : Port) : State :=
  access s p (fun s =>
    let v := stampNow s
    readDone { s with ntm.nowNs := v, ntm.nowSecLo := BitVec.ofNat 32 s.ntm.sec, ntm.nowSecHi := BitVec.ofNat 32 ((s.ntm.sec / 2 ^ 32) % 2 ^ 16)
                      ntm.utcSnap := s.ntm.utc } p v)

/-! ### Timed launch (R374) -/

def launchQueue (s : State) (eth : Bool) : List Launch := if eth then s.ntm.queueE1 else s.ntm.queueE0
def setLaunchQueue (s : State) (eth : Bool) (q : List Launch) : State :=
  if eth then { s with ntm.queueE1 := q } else { s with ntm.queueE0 := q }
/-- A frame in its place: by launch time, after those of the same time. -/
def insertLaunch (l : Launch) : List Launch → List Launch
  | [] => [l]
  | x :: r => if l.sec * 1000000000 + l.ns < x.sec * 1000000000 + x.ns then l :: x :: r else x :: insertLaunch l r
/-- A frame goes into its place in a queue that has room. -/
def launchPut (s : State) (w : Who) (eth : Bool) (sec ns : Nat) (frame : List Byte) : State :=
  if (launchQueue s eth).length ≥ 16 then s
  else setLaunchQueue s eth (insertLaunch { sec := sec, ns := ns, frame := frame, who := w } (launchQueue s eth))
/-- The frame of an NTM_LAUNCH has been read from the host; the standby queues it as well (R339, log 74). -/
def launchEnd (s : State) (x : Xfer) (eth : Bool) (sec ns : Nat) (res : TransferResult) : State :=
  match res with
  | .error => respond s x.who 0x0106 []
  | .done d =>
    let f := padTo x.len d
    if (launchQueue s eth).length ≥ 16 then respond s x.who 0x0905 []
    else sendControl (launchPut s x.who eth sec ns f) (nextEdge s) 0x0903 (leBytes 1 (b2n eth) ++ leBytes 1 0 ++ leBytes 6 sec ++ leBytes 4 ns ++ f)
def launchNs (l : Launch) : Nat := l.sec * 1000000000 + l.ns
/-- A frame leaves with its FCS; its command is answered with its transmit stamp, which is d ns on from now (log 126). -/
def launchOut (s : State) (eth : Bool) (l : Launch) (d : Nat) : State :=
  let t := (timeNs s).toNat + d
  let s1 := setPtp s eth (fun p => { p with busyUntil := s.now + d + frameNs l.frame.length + 96 })
  respond (emit s1 (.eth eth (l.frame ++ leBytes 4 (crc32 l.frame)))) l.who 0 (leBytes 6 (t / 1000000000) ++ leBytes 4 (packNs (t % 1000000000) s.ntm.quality).toNat)
/-- Frames of one launch time leave back to back. -/
def launchAll (s : State) (eth : Bool) : Nat → List Launch → State
  | _, [] => s
  | d, l :: r => launchAll (launchOut s eth l d) eth (d + frameNs l.frame.length + 96) r
/-- A frame that reaches the head more than 8 ns late is dropped. -/
def launchLate (s : State) (eth : Bool) (l : Launch) : State :=
  let s1 := if eth then { s with ntm.droppedE1 := satAdd s.ntm.droppedE1 1 } else { s with ntm.droppedE0 := satAdd s.ntm.droppedE0 1 }
  respond (record s1 0x0930 [b2n eth]) l.who 0x0930 []
/-- LAUNCH_TIME: device time has reached the launch time of the frame at the head: within 8 ns of it the frame leaves, with those of the
same time behind it, later it is dropped; before it nothing happens. Its first bit crosses at most 8 ns after the launch time (R374). A frame
whose turn has not come because the line still carries one waits, and is late when it comes (log 108). -/
def launchTime (s : State) (eth : Bool) (late : Nat) : State :=
  match launchQueue s eth with
  | [] => s
  | l :: rest =>
    if timeNs s < (launchNs l : Nat) then s
    else if timeNs s > (launchNs l + 8 : Nat) then releaseHeld (launchLate (setLaunchQueue s eth rest) eth l) eth
    else if 0 < lineBusy s eth then s
    else
      let same := l :: rest.takeWhile (fun x => launchNs x == launchNs l)
      releaseHeld (launchAll (setLaunchQueue s eth (rest.drop (same.length - 1))) eth (min late (launchNs l + 8 - (timeNs s).toNat)) same) eth

/-! ### Steps (R367 to R372) -/

/-- Every frame in both launch queues is dropped at a step (R375), and what waited for one leaves. -/
def flushLaunches (s : State) : State :=
  let a := s.ntm.queueE0
  let b := s.ntm.queueE1
  let s1 := { s with ntm.queueE0 := [], ntm.queueE1 := []
                     ntm.droppedE0 := satAdd s.ntm.droppedE0 a.length, ntm.droppedE1 := satAdd s.ntm.droppedE1 b.length }
  releaseHeld (releaseHeld ((a ++ b).foldl (fun s l => respond s l.who 0x0931 []) (record s1 0x0931 [a.length + b.length])) false) true
/-- A step by c at the edge (R368 to R370). -/
def stepBy (s : State) (c : Int) (servo : Bool) : State :=
  let old := timeNs s
  let back := decide (c < 0)
  let s0 := if servo && s.ntm.quality == 0#2 then setQuality s 2#2 else s
  let s1 := record s0 0x0920 (stepParams old back)
  let s2 := setTimeNs { s1 with ntm.slew := 0, ntm.slewAcc := 0, ntm.slewing := false
                                ntm.goodRun := if servo then 0 else s.ntm.goodRun
                                ntm.stepsFwd := if back then s.ntm.stepsFwd else satAdd s.ntm.stepsFwd 1
                                ntm.stepsBack := if back then satAdd s.ntm.stepsBack 1 else s.ntm.stepsBack } (old + c)
  flushLaunches (record s2 0x0921 (stepParams (old + c) back))
/-- A step to a stated time that lies c ns away, taken or slewed into at an edge, and the answers to the commands that asked for it (R371, R378). -/
def stepTo (s : State) (c : Int) : State :=
  let who := s.ntm.stepWho
  let s1 := { setQuality s 2#2 with ntm.step := none, ntm.stepWho := [], brk.followDue := true }
  let s2 := if isStep c then stepBy s1 c false else startSlew s1 c
  who.foldl (fun s w => respond s w 0 []) s2

/-- What an ordered correction does at the edge (R367, R377). -/
def applyStep (s : State) : State :=
  match s.ntm.step with
  | none => s
  | some (.by c servo) => stepBy { s with ntm.step := none } c servo
  | some (.to sec ns) => stepTo s (((sec * 1000000000 + ns : Nat) : Int) - timeNs s)

/-- Error e of R372 against the nearest ideal edge, in half ns: between two equally near ones the later counts. -/
def edgeErrHalf (s : State) : Int :=
  let p2 : Nat := 2 * periodNs s
  let r := (2 * timeNs s - 125 * (cfgField s 0x09 0x10C 0 18 : Nat)) % (p2 : Int)
  if 2 * r ≥ (p2 : Int) then r - p2 else r
/-- An ordered correction and the edge error after it (R367, R371, R372). -/
def correctEdge (s : State) : State :=
  let s1 := applyStep s
  let e2 := edgeErrHalf s1
  let x := roundFreeInt s1 e2 2
  { x.2 with ntm.edgeErr := satInt 16 x.1, ntm.inPhase := decide (e2 ≤ 200) && decide (e2 ≥ -200) }
/-- Device time at an edge: the edge time before any step, the step, the edge error (R368, R371, R372). -/
def timeEdge (s : State) : State := correctEdge { s with ntm.edgeTime := stampNow s }

/-! ### Commands (R377) -/

def doNtmSetTime (carried : Bool) (d : List Byte) (w : Who) (s : State) : State :=
  refuseOr s w [(notHere s carried, 0x0103), (ntmMode s != 0, 0x0903),
      (d.length != 12 || leAt d 6 2 != 0 || decide (leAt d 8 4 > 999999999), 0x0904)] (fun s =>
    forward carried { s with ntm.step := some (.to (leAt d 0 6) (leAt d 8 4)), ntm.stepWho := s.ntm.stepWho ++ [w] } (nextEdge s) 0x0901 d)
def doNtmSetUtc (carried : Bool) (d : List Byte) (w : Who) (s : State) : State :=
  refuseOr s w [(notHere s carried, 0x0103), (decide (s.ntm.quality.toNat < 2), 0x0903),
      (d.length != 4 || leAt d 3 1 != 0 || decide (leAt d 2 1 > 3), 0x0904)] (fun s =>
    let f := leAt d 2 1
    let s1 := calSync { s with ntm.utc := BitVec.ofNat 20 (leAt d 0 2 + 2 ^ 16 + 2 ^ 17 * b2n (bitOf f 0) + 2 ^ 18 * b2n (bitOf f 1) + 2 ^ 19) }
    respond (forward carried s1 (nextEdge s1) 0x0902 d) w 0 [])
/-- NTM_LAUNCH. Nothing in the spec shows the part whether a port is down: 0x0906 is free (log 45). -/
def doNtmLaunch (r : Req) (w : Who) (s : State) : State :=
  let d := r.payload
  let eth := leAt d 0 1 == 1
  let n := r.hostLen.toNat
  refuseOr s w [(inBoot s, 0x0103),
      (d.length != 12 || decide (leAt d 0 1 > 1) || leAt d 1 1 != 0 || decide (leAt d 8 4 > 999999999), 0x0904),
      (decide ((launchQueue s eth).length ≥ 16), 0x0905)] (fun s =>
    if n < 60 ∨ n > 1514 then respondFree s w
    else
      let down := freeBool s
      if down.1 then respond down.2 w 0x0906 [] else startXfer down.2 w r (.launch eth (leAt d 2 6) (leAt d 8 4)))
def doNtmPtpState (d : List Byte) (w : Who) (s : State) : State :=
  refuseShape s w d [(inBoot s, 0x0103)] (fun s =>
    respond s w 0 (leBytes 8 Config.clockIdentity.toNat ++ leBytes 1 s.ntm.p0.st ++ leBytes 1 s.ntm.p1.st ++ leBytes 10 s.ntm.parent.toNat ++
      leBytes 8 s.ntm.grandmaster.toNat ++ leBytes 2 s.ntm.stepsRemoved.toNat))

def execPtpMessageReceived (eth : Bool) (m : PtpMsg) (s : State) : Host.Outcome State Fault Refusal := .next (ptpMessageReceived s eth m)
def execPtpMessageSend (eth : Bool) (k : PtpSend) (s : State) : Host.Outcome State Fault Refusal := .next (ptpMessageSend s eth k)
def execPtpMasterLost (s : State) : Host.Outcome State Fault Refusal := .next (ptpMasterLost s)
def execHoldoverExpiry (s : State) : Host.Outcome State Fault Refusal := .next (holdoverExpiry s)
def execSlewComplete (s : State) : Host.Outcome State Fault Refusal := .next (slewComplete s)
def execLeapSecond (s : State) : Host.Outcome State Fault Refusal := .next (leapSecond s)
def execNtmNowNsRead (p : Port) (s : State) : Host.Outcome State Fault Refusal := .next (ntmNowNsRead s p)
def execLaunchTime (eth : Bool) (late : Fin 9) (s : State) : Host.Outcome State Fault Refusal := .next (launchTime s eth late)
def execNtmSetTime (r : Req) (s : State) : Host.Outcome State Fault Refusal := .next (command s r 0x0901 (fun q => doNtmSetTime false q.payload))
def execNtmSetUtc (r : Req) (s : State) : Host.Outcome State Fault Refusal := .next (command s r 0x0902 (fun q => doNtmSetUtc false q.payload))
def execNtmLaunch (r : Req) (s : State) : Host.Outcome State Fault Refusal := .next (command s r 0x0903 doNtmLaunch)
def execNtmPtpState (r : Req) (s : State) : Host.Outcome State Fault Refusal := .next (command s r 0x0904 (fun q => doNtmPtpState q.payload))

end Sys2Proof.Machine
end

