-- ==== Sys2Proof/Machine/Staging.lean ====
section
/-! DEFINITION. The start of a consistency check, and its apply edge (R71, R72, R79, R80). -/
namespace Sys2Proof.Machine
open Sys2Proof

/-- A check begins on a copy. -/
def startCheck (s : State) (b : Nat) (copy : RegFile) (k : CfgWork) : State :=
  setBlk s b (fun c => { c with check := some { copy := copy, work := k, discard := false } })
/-- A command that is checked as a change of a block, and changes no register of it (R316, R390, R462; log 20). -/
def startOpCheck (s : State) (w : Who) (b : Nat) (k : CfgWork) : State :=
  refuseOr s w [(inBootOrShadow s, 0x0103), (blkBusy s b, 256 * b + 0xF0), (transPending s, 256 * b + 0xF1)] (fun s =>
    startCheck s b (blkCfg s b).inForce k)

end Sys2Proof.Machine
end

