-- ==== Sys2Proof/Machine/Bedrock.lean ====
section
/-! DEFINITION. The bedrock domain: RTC count, trim, calendar, wake, countdown, EV pins, PWRON, the commands of block 0x0A (R380 to R404). -/
namespace Sys2Proof.Machine
open Sys2Proof

/-! ### The count (R385 to R388) -/

/-- The count T of R396. -/
def rtcCount (b : Brk) : Nat := b.sec * 32768 + b.sub
def setRtc (b : Brk) (t : Nat) : Brk := { b with sec := t / 32768, sub := t % 32768 }
/-- One cycle of the raw oscillator (R386); a trim computed for the next count is written first (R393). -/
def rtcCycle (b : Brk) : Brk :=
  let b := match b.trimNext with | some t => { b with trim := t.1, trimSrc := t.2, trimNext := none } | none => b
  let a := b.acc + b.trim
  let step : Nat := if a ≥ 1000000000 then 2 else if a ≤ -1000000000 then 0 else 1
  let a' := if a ≥ 1000000000 then a - 1000000000 else if a ≤ -1000000000 then a + 1000000000 else a
  setRtc { b with acc := a', cd := if b.cdRun then b.cd - step else b.cd, winCounts := b.winCounts + step } (rtcCount b + step)
/-- One ns of the 32.768 kHz oscillator. -/
def brkAdvance (s : State) : State :=
  if s.brk.inReset then s
  else
    let p := s.brk.phase + 32768
    if p ≥ 1000000000 then { s with brk := rtcCycle { s.brk with phase := p - 1000000000 } } else { s with brk.phase := p }

/-- Whether a year of the calendar view is a leap year (R388). -/
def leapYear (y : Nat) : Bool := y % 4 == 0 && y != 2100 && y != 2200 && y != 2300
def yearDays (y : Nat) : Nat := if leapYear y then 366 else 365
def monthDays (y : Nat) : List Nat := [31, if leapYear y then 29 else 28, 31, 30, 31, 30, 31, 31, 30, 31, 30, 31]
/-- Year and day of the year (from 0) of a day counted from 2000-01-01. -/
def yearOf : Nat → Nat → Nat → Nat × Nat
  | 0, y, d => (y, d)
  | fuel + 1, y, d => if d < yearDays y then (y, d) else yearOf fuel (y + 1) (d - yearDays y)
/-- Month (from 1) and day (from 1) of a day of the year. -/
def monthOf : List Nat → Nat → Nat → Nat × Nat
  | [], m, d => (m, d + 1)
  | n :: r, m, d => if d < n then (m, d + 1) else monthOf r (m + 1) (d - n)
/-- C of R388, and whether the view is valid. -/
def calSeconds (b : Brk) : Int := (b.sec : Int) - b.calOfs.toInt
def calValid (b : Brk) : Bool := decide (calSeconds b ≥ 946684800) && decide (calSeconds b ≤ 13569465599)
/-- BRK_SNAP_DATE and BRK_SNAP_CLOCK of a count (R402). -/
def calendar (b : Brk) : Dword × Dword :=
  if !calValid b then (0#32, 0#32)
  else
    let c := (calSeconds b).toNat - 946684800
    let day := c / 86400
    let sod := c % 86400
    let y := yearOf 400 2000 day
    let m := monthOf (monthDays y.1) 1 y.2
    let weekday := (day + 5) % 7 + 1
    (BitVec.ofNat 32 (y.1 + 2 ^ 12 * m.1 + 2 ^ 16 * m.2 + 2 ^ 21 * weekday),
     BitVec.ofNat 32 (sod / 3600 + 2 ^ 5 * ((sod / 60) % 60) + 2 ^ 11 * (sod % 60) + 2 ^ 17 * (y.2 + 1) + 2 ^ 26))
/-- BRK_CAL_SNAP: sub-second count and TIME_LOST. -/
def calSnap (b : Brk) : Dword := BitVec.ofNat 32 (b.sub + 2 ^ 15 * b2n b.timeLost)
/-- The snapshot that a read latches (R387). -/
def snapOf (b : Brk) : BrkSnap :=
  let c := calendar b
  { sub := calSnap b, secLo := BitVec.ofNat 32 b.sec, secHi := BitVec.ofNat 32 ((b.sec / 2 ^ 32) % 2 ^ 16), date := c.1, clock := c.2 }
def brkCalSnapRead (s : State) (p : Port) : State :=
  access s p (fun s => readDone (setPort s p (fun q => { q with snap := snapOf s.brk })) p (calSnap s.brk))

/-! ### Pins, wake and countdown (R396 to R399) -/

def evField (s : State) (k lo n : Nat) : Nat := cfgField s 0x0A (0x114 + 4 * k) lo n
/-- PWRON is driven on EV3. -/
def pwronDriven (s : State) : Bool := evField s 3 0 2 == 2
/-- The PWRON request set or cleared; the pin follows where EV3 drives it. -/
def setPwron (s : State) (b : Bool) : State :=
  let s1 := { s with brk.pwron := b }
  if s.brk.pwron != b && pwronDriven s then emit s1 (.pwron b) else s1
/-- The parameters of 0x0A32 and 0x0A33: DORMANT in bit 19 of parameter 3 (R398, log 118). -/
def dormantParams (s : State) : List Nat := [0, 0, if s.tck.mode = .dormant then 2 ^ 19 else 0]
/-- An event of the bedrock domain is recorded, or held in DORMANT until BOOT step 5 (R398). -/
def brkRecord (s : State) (code : Nat) (ps : List Nat) : State :=
  if s.tck.mode = .dormant then { s with brk.held := s.brk.held ++ [(code, ps)] } else record s code ps

/-- The count has reached a wake instant that has not fired: a multiple of 128 x PERIOD above those that are done with. A shift that
jumps over several leaves one to fire; a shift back leaves none (R396). -/
def wakeDue (s : State) : Bool :=
  let p := 128 * cfgField s 0x0A 0x10C 0 25
  p != 0 && decide (s.brk.wakeDone / p < rtcCount s.brk / p)
/-- WAKE_INSTANT. -/
def wakeInstant (s : State) : State :=
  if s.brk.inReset || !wakeDue s then s
  else
    let s1 := brkRecord { s with brk.wakeSeen := true, brk.wakeDone := rtcCount s.brk } 0x0A32 (dormantParams s)
    if cfgBit s1 0x0A 0x100 6 then setPwron s1 true else s1
/-- Wake instants begin with the count at which a new period applies; those up to the highest count reached do not fire again
(R396, log 110). -/
def wakeApplied (s : State) : State := { s with brk.wakeDone := max s.brk.wakeDone (rtcCount s.brk) }
/-- COUNTDOWN_EXPIRY: the countdown has reached 0. -/
def countdownExpiry (s : State) : State :=
  if s.brk.inReset || !s.brk.cdRun || s.brk.cd != 0 then s
  else
    let s1 := brkRecord { s with brk.cdRun := false, brk.cd := 0, brk.cdSeen := true } 0x0A33 (dormantParams s)
    if cfgBit s1 0x0A 0x100 7 then setPwron s1 true else s1
/-- The countdown loads at the edge after its write (R397). -/
def countdownLoad (s : State) : State :=
  if !s.brk.cdWritten then s
  else
    let v := cfgField s 0x0A 0x110 0 24
    { s with brk.cdWritten := false, brk.cdRun := v != 0, brk.cd := 32768 * v }

/-- Parameters of 0x0A30 (R404). -/
def stampParams (x : EvStamp) (dormant : Nat) : List Nat :=
  [(x.sec / 2 ^ 24) % 2 ^ 24, x.sec % 2 ^ 24, x.sub + 2 ^ 16 * x.pin + 2 ^ 18 * b2n x.rising + dormant]
/-- EV_EDGE: an edge that the pin's filter accepts (R399). -/
def evEdge (s : State) (k : Fin 4) (rising : Bool) : State :=
  let edge := evField s k.val 2 2
  if s.brk.inReset || evField s k.val 0 2 != 1 || !bitOf edge (if rising then 0 else 1) then s
  else
    let t := rtcCount s.brk - evField s k.val 4 4
    let x : EvStamp := { pin := k.val, rising := rising, sec := t / 32768, sub := t % 32768 }
    let s1 :=
      if s.tck.mode ≠ .dormant then record s 0x0A30 (stampParams x 0)
      else if (s.brk.stamps.filter (fun y => y.pin = k.val)).length < 8 then { s with brk.stamps := s.brk.stamps ++ [x] }
      else if s.brk.ovfNoted.getLsbD k.val then s
      else brkRecord { s with brk.evOvf := s.brk.evOvf ||| (1#4 <<< k.val), brk.ovfNoted := s.brk.ovfNoted ||| (1#4 <<< k.val) } 0x0A31 [k.val]
    if bitOf (evField s k.val 8 1) 0 then setPwron s1 true else s1
/-- BOOT step 5 records what DORMANT held, and a bedrock reset (R383, R398). -/
def brkBoot (s : State) : State :=
  let stamps := s.brk.stamps
  let held := s.brk.held
  let s1 := if s.brk.resetSeen then record s 0x0A10 [] else s
  let s2 := held.foldl (fun s e => record s e.1 e.2) { s1 with brk.held := [] }
  stamps.foldl (fun s x => record s 0x0A30 (stampParams x (2 ^ 19))) { s2 with brk.stamps := [], brk.ovfNoted := 0#4 }

/-! ### Trim windows and following (R393, R395) -/

def trimSource (s : State) : Nat := cfgField s 0x0A 0x100 0 2
def trimFeeder (s : State) : Nat := cfgField s 0x0A 0x100 2 2
def feederAt (s : State) (f : Nat) : Feeder := s.mtr.feeders.toArray.getD f Feeder.reset
def nominalHz (s : State) : Nat := if cfgBit s 0x0D 0x100 4 then 60 else 50
/-- The reference of the trim source is valid. -/
def trimRefValid (s : State) : Bool :=
  match trimSource s with
  | 1 => (feederAt s (trimFeeder s)).freqValid
  | 2 => s.ntm.quality == 0#2
  | _ => false
/-- A window begins. -/
def trimWindowStart (s : State) : State :=
  { s with brk.winTime := timeNs s, brk.winCycles := (feederAt s (trimFeeder s)).cycles, brk.winCounts := 0, brk.winOk := trimRefValid s }
/-- The reference must stay valid throughout a window; looked at every edge (log 21). -/
def trimWindowEdge (s : State) : State := { s with brk.winOk := s.brk.winOk && trimRefValid s }
/-- A value limited to ±b. -/
def limitInt (b : Int) (x : Int) : Int := if x > b then b else if x < -b then -b else x
/-- The window has run for BRK_TRIM_WINDOW seconds of RTC time, counted by trimmed counts (R393, log 110). -/
def trimWindowOver (s : State) : Bool := decide (32768 * cfgField s 0x0A 0x108 0 17 ≤ s.brk.winCounts)
/-- (t_ref - t_rtc) / t_rtc in ppb, as a numerator and a denominator: the reference counts ns of device time or mains cycles, RTC time
1/32768 s (R393). -/
def trimError (s : State) : Int × Nat :=
  let c := s.brk.winCounts
  if trimSource s = 2 then ((timeNs s - s.brk.winTime) * 32768 - (1000000000 * c : Nat), c)
  else
    let n := nominalHz s * c
    (((((feederAt s (trimFeeder s)).cycles - s.brk.winCycles) * 32768 : Nat) - (n : Nat) : Int) * 1000000000, n)
/-- TRIM_WINDOW_END. The rounding to ppb is left open (log 12). -/
def trimWindowEnd (s : State) : State :=
  let src := trimSource s
  if s.tck.mode = .dormant ∨ s.brk.inReset ∨ (src ≠ 1 ∧ src ≠ 2) ∨ trimWindowOver s = false then s
  else if !(s.brk.winOk && trimRefValid s) then trimWindowStart (record s 0x0A21 [src])
  else
    let q := roundFreeInt s (trimError s).1 (trimError s).2
    let new := limitInt 200000 (s.brk.trim + q.1)
    let s1 := { q.2 with brk.trimNext := some (new, BitVec.ofNat 2 src) }
    trimWindowStart (record s1 0x0A20 [toTwos 24 s.brk.trim, toTwos 24 new, src])
/-- A set that R390 accepts. -/
def setRange (sec sub : Nat) : Bool := decide (946684800 ≤ sec) && decide (sec ≤ 13569465599) && decide (sub ≤ 32767)
/-- A set or a shift of the RTC that has passed its check: it waits for its edge, or it is handed over (R390). -/
def brkOpOr (s : State) (handed : Option BrkOp) : Option BrkOp :=
  match (blkCfg s 0x0A).pend with
  | some p => (match p.work with | .brkOp _ op => some op | _ => handed)
  | none => handed
def brkOpBusy (s : State) : Option BrkOp := brkOpOr s s.brk.handed
/-- What SET_PENDING and SHIFT_PENDING show: an operation handed over before a reset is not shown (R7, log 86). -/
def brkOpShown (s : State) : Option BrkOp := brkOpOr s (if s.brk.handedShown then s.brk.handed else none)
/-- An operation is handed to the bedrock domain. -/
def handOver (s : State) (op : BrkOp) : State := { s with brk.handed := some op, brk.handedShown := true }
/-- Network time less RTC time, in ns times 32768 (R395). -/
def followGap (s : State) : Int := timeNs s * 32768 - ((s.brk.sec * 32768 + s.brk.sub) * 1000000000 : Nat)
/-- Following hands the bedrock domain a set to network time, n / 1000000000 counts past its second, where the count can hold it (R395). -/
def followSet (s1 : State) (d : Int) (n : Nat) : State :=
  let sub := roundFree s1 n 1000000000
  let t := s1.ntm.sec * 32768 + sub.1
  if setRange (t / 32768) (t % 32768) then
    record (handOver sub.2 (.set (t / 32768) (t % 32768))) 0x0A22 [1, toTwos 24 (limitInt 8388607 d)]
  else s1
/-- What following does with a difference of d microseconds (R395). -/
def followAct (s1 : State) (d : Int) : State :=
  if d < 100 ∧ d > -100 then s1
  else if d < 1000000 ∧ d > -1000000 then
    record (handOver s1 (.shift ((2 * d * 32768 + 1000000) / 2000000))) 0x0A22 [0, toTwos 24 (limitInt 8388607 d)]
  else followSet s1 d (s1.ntm.ns * 32768)
/-- A comparison, which is not made while FOLLOW is 0 or a set or shift is pending. -/
def compareTimes (s : State) : State :=
  if s.brk.inReset || !cfgBit s 0x0A 0x100 4 || (brkOpBusy s).isSome then s
  else
    let x := roundFreeInt s (followGap s) 32768000
    followAct x.2 x.1
/-- FOLLOW_COMPARE: the comparison of every 10 s while device time is LOCKED. -/
def followCompare (s : State) : State := if s.tck.mode = .dormant || s.ntm.quality != 0#2 then s else compareTimes s
/-- The first edge after an NTM_SET_TIME makes one comparison whatever the quality. -/
def followEdge (s : State) : State := if s.brk.followDue then compareTimes { s with brk.followDue := false } else s
/-- RTC_SET_APPLY: the first count after the edge (R391). -/
def rtcSetApply (s : State) : State :=
  match s.brk.handed with
  | some (.set sec sub) =>
    let old := s.brk.sec
    brkRecord { s with brk := { s.brk with handed := none, sec := sec, sub := sub, timeLost := false, wakeDone := sec * 32768 + sub } } 0x0A11
      [(old / 2 ^ 24) % 2 ^ 24, old % 2 ^ 24, (sec / 2 ^ 24) % 2 ^ 24, sec % 2 ^ 24]
  | _ => s
/-- RTC_SHIFT_APPLY. -/
def rtcShiftApply (s : State) : State :=
  match s.brk.handed with
  | some (.shift n) =>
    brkRecord { s with brk := setRtc { s.brk with handed := none } ((rtcCount s.brk : Int) + n).toNat } 0x0A12 [toTwos 24 n]
  | _ => s

/-! ### Reset and supply (R382 to R384) -/

/-- A bedrock reset: every kept field at its bedrock-reset value (R383). -/
def bedrockReset (s : State) : State :=
  let b := s.brk
  let s1 := { s with brk := { Brk.reset with inReset := true, backupLow := b.backupLow, backupMv := b.backupMv, pwronOps := b.pwronOps, codeVersion := b.codeVersion } }
  setBlk s1 0x0A (fun c => { c with inForce := [], stage := [], written := [] })
/-- The bedrock domain leaves reset; outside DORMANT the supervisor sets its calendar offset anew (R389). -/
def bedrockResetEnd (s : State) : State :=
  let s1 := { s with brk.inReset := false }
  if s.tck.mode = .dormant then s1 else calSync s1
/-- BACKUP_SAMPLE. -/
def backupSample (s : State) (mv : BitVec 12) : State :=
  if s.tck.mode = .dormant then s
  else
    let low := decide (mv.toNat < 2000)
    let s1 := { s with brk.backupMv := mv, brk.backupLow := low }
    if low && !s.brk.backupLow then record s1 0x0A34 [mv.toNat] else s1

/-! ### Commands (R390, R403) -/

/-- The reason a set or shift fails its check with, but for one already pending. -/
def brkOpWrong (op : BrkOp) : Option Nat :=
  match op with
  | .set sec sub => if setRange sec sub then none else some 0x0A06
  | .shift n => if n = 0 ∨ n > 32767 ∨ n < -32767 then some 0x0A07 else none
/-- A set or shift; while one is pending the check of R390 fails at once. -/
def startBrkOp (op : BrkOp) (w : Who) (s : State) : State :=
  if !inBootOrShadow s && (brkOpBusy s).isSome then respond s w ((brkOpWrong op).getD 0x0A08) []
  else startOpCheck s w 0x0A (.brkOp w op)
/-- The operation that a BRK_SET_TIME payload names; a malformed one is out of range. -/
def setOfPay (d : List Byte) : BrkOp := if d.length = 8 then .set (leAt d 0 6) (leAt d 6 2) else .set 0 0
def shiftOfPay (d : List Byte) : BrkOp := if d.length = 4 ∧ leAt d 2 2 = 0 then .shift (ofTwos 16 (leAt d 0 2)) else .shift 0
/-- BRK_PWRON waits for the next edge (R403). -/
def doBrkPwron (carried : Bool) (d : List Byte) (w : Who) (s : State) : State :=
  refuseOr s w [(notHere s carried, 0x0103), (d.length != 4 || decide (leAt d 0 1 > 1) || leAt d 1 3 != 0, 0x0A07)] (fun s =>
    forward carried { s with brk.pwronOps := s.brk.pwronOps ++ [(leAt d 0 1 == 1, w)] } (nextEdge s) 0x0A03 d)
/-- The edge of BRK_PWRON. -/
def pwronEdge (s : State) : State :=
  s.brk.pwronOps.foldl (fun s e => respond (setPwron s e.1) e.2 0 []) { s with brk.pwronOps := [] }
/-- BRK_STATUS, without REASON (R402). -/
def brkStatus (s : State) : Nat :=
  let op := brkOpShown s
  b2n s.brk.timeLost + 2 * b2n s.brk.resetSeen + 4 * b2n s.brk.backupLow +
  8 * b2n (match op with | some (.set _ _) => true | _ => false) + 16 * b2n (match op with | some (.shift _) => true | _ => false) +
  32 * b2n (calValid s.brk)
def doBrkGetTime (d : List Byte) (w : Who) (s : State) : State :=
  refuseShape s w d [(inBoot s, 0x0103)] (fun s =>
    let c := calendar s.brk
    respond s w 0 (leBytes 6 s.brk.sec ++ leBytes 2 s.brk.sub ++ leBytes 4 c.1.toNat ++ leBytes 4 c.2.toNat ++ leBytes 4 (brkStatus s)))

def execBedrockReset (s : State) : Host.Outcome State Fault Refusal := .next (bedrockReset s)
def execBedrockResetEnd (s : State) : Host.Outcome State Fault Refusal := .next (bedrockResetEnd s)
def execBackupSample (mv : BitVec 12) (s : State) : Host.Outcome State Fault Refusal := .next (backupSample s mv)
def execWakeInstant (s : State) : Host.Outcome State Fault Refusal := .next (wakeInstant s)
def execCountdownExpiry (s : State) : Host.Outcome State Fault Refusal := .next (countdownExpiry s)
def execEvEdge (pin : Fin 4) (rising : Bool) (s : State) : Host.Outcome State Fault Refusal := .next (evEdge s pin rising)
def execTrimWindowEnd (s : State) : Host.Outcome State Fault Refusal := .next (trimWindowEnd s)
def execFollowCompare (s : State) : Host.Outcome State Fault Refusal := .next (followCompare s)
def execRtcSetApply (s : State) : Host.Outcome State Fault Refusal := .next (rtcSetApply s)
def execRtcShiftApply (s : State) : Host.Outcome State Fault Refusal := .next (rtcShiftApply s)
def execBrkCalSnapRead (p : Port) (s : State) : Host.Outcome State Fault Refusal := .next (brkCalSnapRead s p)
def execBrkSetTime (r : Req) (s : State) : Host.Outcome State Fault Refusal := .next (command s r 0x0A01 (fun q => startBrkOp (setOfPay q.payload)))
def execBrkShift (r : Req) (s : State) : Host.Outcome State Fault Refusal := .next (command s r 0x0A02 (fun q => startBrkOp (shiftOfPay q.payload)))
def execBrkPwron (r : Req) (s : State) : Host.Outcome State Fault Refusal := .next (command s r 0x0A03 (fun q => doBrkPwron false q.payload))
def execBrkGetTime (r : Req) (s : State) : Host.Outcome State Fault Refusal := .next (command s r 0x0A04 (fun q => doBrkGetTime q.payload))

end Sys2Proof.Machine
end

