-- ==== Sys2Proof/Machine/Signature.lean ====
section
/-! DEFINITION. SHA-384 of FIPS 180-4 and ECDSA P-384 verification of FIPS 186-5, which the signature of a package names (R524, R525). -/
namespace Sys2Proof.Machine
open Sys2Proof

/-! ### SHA-384 -/

/-- The first n primes below 410, of which there are 80. -/
def shaPrimes (n : Nat) : List Nat :=
  ((List.range 410).filter (fun p => decide (2 ≤ p) && (List.range 21).all (fun q => decide (q < 2 ∨ q + 1 > p) || decide (q = p) || p % q != 0))).take n
/-- The largest x below 2^bits with x^k at most n, found bit by bit. -/
def rootFloor (k n : Nat) : Nat → Nat → Nat
  | 0, x => x
  | bits + 1, x => rootFloor k n bits (if (x + 2 ^ bits) ^ k ≤ n then x + 2 ^ bits else x)
/-- The first 64 bits of the fraction of the k-th root of p. -/
def rootFraction (k p : Nat) : Nat := rootFloor k (p * 2 ^ (64 * k)) 70 0 % 2 ^ 64
/-- Round constants: the fractions of the cube roots of the first 80 primes. -/
def shaRoundKeys : List Nat := (shaPrimes 80).map (rootFraction 3)
/-- Initial value: the fractions of the square roots of the 9th to the 16th prime. -/
def sha384Start : List Nat := ((shaPrimes 16).drop 8).map (rootFraction 2)
def w64 (n : Nat) : Nat := n % 2 ^ 64
def rotr64 (n x : Nat) : Nat := x / 2 ^ n + w64 (x * 2 ^ (64 - n))
/-- The number that bytes spell, most significant first. -/
def beNat (bs : List Byte) : Nat := bs.foldl (fun a b => 256 * a + b.toNat) 0
/-- n bytes of a number, most significant first. -/
def beBytes (n v : Nat) : List Byte := (leBytes n v).reverse
/-- The next word of the message schedule; the list is newest first, with at least 16 words. -/
def shaNextW (ws : List Nat) : Nat :=
  let a := ws.getD 1 0
  let b := ws.getD 14 0
  let near := rotr64 19 a ^^^ rotr64 61 a ^^^ (a / 2 ^ 6)
  let far := rotr64 1 b ^^^ rotr64 8 b ^^^ (b / 2 ^ 7)
  w64 (ws.getD 15 0 + far + ws.getD 6 0 + near)
def shaSchedule : Nat → List Nat → List Nat
  | 0, ws => ws
  | k + 1, ws => shaSchedule k (shaNextW ws :: ws)
/-- The exclusive or of a word rotated by each of three amounts. -/
def rotXor (i j k x : Nat) : Nat := rotr64 i x ^^^ rotr64 j x ^^^ rotr64 k x
/-- One round on the eight working variables, for a round constant and a word of the schedule. The first four variables move down
by one place behind a new first one, and so do the last four. -/
def shaRound (v : List Nat) (kw : Nat × Nat) : List Nat :=
  let hi := v.take 4
  let lo := v.drop 4
  let pick (l : List Nat) (i : Nat) : Nat := l.getD i 0
  let chosen := (pick lo 0 &&& pick lo 1) ||| ((2 ^ 64 - 1 - pick lo 0) &&& pick lo 2)
  let voted := (pick hi 0 &&& (pick hi 1 ||| pick hi 2)) ||| (pick hi 1 &&& pick hi 2)
  let mixed := pick lo 3 + rotXor 14 18 41 (pick lo 0) + chosen + kw.1 + kw.2
  w64 (mixed + rotXor 28 34 39 (pick hi 0) + voted) :: hi.take 3 ++ w64 (pick hi 3 + mixed) :: lo.take 3
/-- One block of 128 bytes. -/
def shaBlock (v : List Nat) (blk : List Byte) : List Nat :=
  let first := (List.range 16).map (fun i => beNat (slice blk (8 * i) 8))
  let ws := (shaSchedule 64 first.reverse).reverse
  List.zipWith (fun x y => w64 (x + y)) v ((shaRoundKeys.zip ws).foldl shaRound v)
/-- The padded message. -/
def shaPad (m : List Byte) : List Byte :=
  m ++ [0x80#8] ++ List.replicate ((239 - m.length % 128) % 128) 0#8 ++ beBytes 16 (8 * m.length)
/-- The blocks of a padded message in turn. -/
def shaBlocks : Nat → List Nat → List Byte → List Nat
  | 0, v, _ => v
  | k + 1, v, bs => shaBlocks k (shaBlock v (bs.take 128)) (bs.drop 128)
/-- SHA-384: 48 bytes. -/
def sha384 (m : List Byte) : List Byte :=
  let p := shaPad m
  ((shaBlocks (p.length / 128) sha384Start p).take 6).flatMap (beBytes 8)

/-! ### ECDSA P-384 -/

def p384 : Nat := 2 ^ 384 - 2 ^ 128 - 2 ^ 96 + 2 ^ 32 - 1
def p384B : Nat := 0xB3312FA7E23EE7E4988E056BE3F82D19181D9C6EFE8141120314088F5013875AC656398D8A2ED19D2A85C8EDD3EC2AEF
def p384N : Nat := 0xFFFFFFFFFFFFFFFFFFFFFFFFFFFFFFFFFFFFFFFFFFFFFFFFC7634D81F4372DDF581A0DB248B0A77AECEC196ACCC52973
def p384G : Nat × Nat := (0xAA87CA22BE8B05378EB1C71EF320AD746E1D3B628BA79B9859F741E082542A385502F25DBF55296C3A545E3872760AB7,
  0x3617DE4A96262C6F5D9E98BF9292DC29F8F41DBD289A147CE9DA3113B5F0B8C00A60B1CE1D7E819D7A431D7C90EA0E5F)
/-- a^e modulo m, by the low k bits of e. -/
def powMod (m : Nat) : Nat → Nat → Nat → Nat
  | 0, _, _ => 1 % m
  | k + 1, a, e => let r := powMod m k (a * a % m) (e / 2); if e % 2 = 1 then r * a % m else r
/-- The inverse modulo a prime of 384 bits. -/
def invMod (m a : Nat) : Nat := powMod m 384 (a % m) (m - 2)
def subMod (m a b : Nat) : Nat := (a % m + m - b % m) % m
/-- A point in Jacobian coordinates; z = 0 is the point at infinity. -/
structure JPoint where
  x : Nat
  y : Nat
  z : Nat
deriving DecidableEq, Repr
def jDouble (q : JPoint) : JPoint :=
  if q.z = 0 ∨ q.y = 0 then ⟨1, 1, 0⟩
  else
    let y2 := q.y * q.y % p384
    let z2 := q.z * q.z % p384
    let s := 4 * q.x * y2 % p384
    let m := 3 * subMod p384 q.x z2 * (q.x + z2) % p384
    let x := subMod p384 (m * m) (2 * s)
    ⟨x, subMod p384 (m * subMod p384 s x) (8 * y2 * y2), 2 * q.y * q.z % p384⟩
def jAdd (a b : JPoint) : JPoint :=
  if a.z = 0 then b
  else if b.z = 0 then a
  else
    let z1 := a.z * a.z % p384
    let z2 := b.z * b.z % p384
    let u1 := a.x * z2 % p384
    let u2 := b.x * z1 % p384
    let s1 := a.y * z2 * b.z % p384
    let s2 := b.y * z1 * a.z % p384
    if u1 = u2 then (if s1 = s2 then jDouble a else ⟨1, 1, 0⟩)
    else
      let h := subMod p384 u2 u1
      let r := subMod p384 s2 s1
      let h2 := h * h % p384
      let h3 := h2 * h % p384
      let v := u1 * h2 % p384
      let x := subMod p384 (r * r) (h3 + 2 * v)
      ⟨x, subMod p384 (r * subMod p384 v x) (s1 * h3), h * a.z * b.z % p384⟩
/-- k × point, by the low bits of k. -/
def jMul : Nat → Nat → JPoint → JPoint
  | 0, _, _ => ⟨1, 1, 0⟩
  | n + 1, k, q => let r := jMul n (k / 2) (jDouble q); if k % 2 = 1 then jAdd r q else r
/-- A public key is a point of the curve. -/
def onCurve (x y : Nat) : Bool :=
  decide (x < p384) && decide (y < p384) && y * y % p384 == (subMod p384 (x * x * x) (3 * x) + p384B) % p384
/-- ECDSA verification of a message hash of 48 bytes. -/
def ecdsaVerify (x y r s : Nat) (hash : List Byte) : Bool :=
  if !onCurve x y || r == 0 || decide (r ≥ p384N) || s == 0 || decide (s ≥ p384N) then false
  else
    let w := invMod p384N s
    let q := jAdd (jMul 384 (beNat hash * w % p384N) ⟨p384G.1, p384G.2, 1⟩) (jMul 384 (r * w % p384N) ⟨x, y, 1⟩)
    if q.z = 0 then false
    else
      let zi := invMod p384 q.z
      q.x * zi * zi % p384 % p384N == r

end Sys2Proof.Machine
end

