-- ==== Sys2Proof/Machine/Can.lean ====
section
/-! DEFINITION. The CAN FD controllers: reception, sending, errors and bus-off, detection, time-triggered operation (R405 to R422). -/
namespace Sys2Proof.Machine
open Sys2Proof

/-! ### Settings and state -/

def canObjSt (c : CanCtl) (n : Nat) : CanObj := smGetD c.objs n CanObj.reset
def setCanObj (s : State) (k n : Nat) (f : CanObj → CanObj) : State :=
  setCan s k (fun c => { c with objs := smPut c.objs n (f (canObjSt c n)) })
/-- Bits of a register of controller k, and of a register of object n. -/
def canField (s : State) (k ofs lo n : Nat) : Nat := cfgField s 0x0B (0x140 + 0x40 * k + ofs) lo n
def objField (s : State) (k n ofs lo w : Nat) : Nat := cfgField s 0x0B (canObjBase k n + ofs) lo w
def objSend (s : State) (k n : Nat) : Bool := objField s k n 0 30 2 == 3
def objReceive (s : State) (k n : Nat) : Bool := objField s k n 0 30 2 == 1
def objTt (s : State) (k n : Nat) : Bool := objField s k n 8 11 1 == 1
def canEnabled (s : State) (k : Nat) : Bool := cfgBit s 0x0B 0x100 k && ticking s
/-- Listen-only operation: by MODE, without the claim, and in SHADOW up to the edge of a takeover (R322, R407, R408). -/
def canListen (s : State) (k : Nat) : Bool := canField s k 0 0 2 == 1 || !holdsClaim s || s.tck.mode == .shadow
def ttRole (s : State) (k : Nat) : Nat := canField s k 0xC 0 2
/-- The controller may put frames into its queue. -/
def canSends (s : State) (k : Nat) : Bool := canEnabled s k && !canListen s k && !(canAt s k).busOff && (canAt s k).det.isNone
/-- The identifier as the object registers hold it: base identifiers in [28:18] (R421). -/
def wideId (ide : Bool) (id : BitVec 29) : Nat := if ide then id.toNat else (id.toNat * 2 ^ 18) % 2 ^ 29
/-- Objects of a controller with HP 1, in ascending number (R418). -/
def hpRank (s : State) (k n : Nat) : Option Nat := (hpObjects (blkCfg s 0x0B).inForce k).findIdx? (fun m => m == n)

/-! ### Errors and bus-off (R417) -/

/-- A one-shot or time-triggered frame is dropped with a cause (0x0B40); no other drop is recorded. -/
def dropFrame (s : State) (k : Nat) (f : CanTxF) (cause : Nat) : State :=
  if f.oneShot then record s 0x0B40 [k, f.obj, cause] else s
/-- The error state follows the counters: bus-off empties the queue, 128 makes the controller error passive. -/
def canErrState (s : State) (k : Nat) : State :=
  let c := canAt s k
  if c.txErr ≥ 256 ∧ !c.busOff then
    let frames := c.cur.toList ++ c.queue
    let s1 := setCan s k (fun c => { c with busOff := true, passive := false, queue := [], cur := none, recovering := canField s k 0 3 1 == 1 })
    let s2 := record s1 0x0B21 [k]
    frames.foldl (fun s f => dropFrame s k f 5) s2
  else if c.busOff then s
  else
    let p := decide (c.txErr ≥ 128) || decide (c.rxErr ≥ 128)
    if p && !c.passive then record (setCan s k (fun c => { c with passive := true })) 0x0B20 [k]
    else if !p && c.passive then record (setCan s k (fun c => { c with passive := false })) 0x0B23 [k]
    else s
/-- CAN_RX_ERROR: a stuff, form or CRC error of a received frame counts in SFC; a severe one, a dominant bit behind the controller's own
error flag, does not (log 119). In listen-only operation REC stays (R407). -/
def canRxError (s : State) (k : Nat) (severe : Bool) : State :=
  if !canEnabled s k || (canAt s k).busOff then s
  else
    let s1 := if severe then s else setCan s k (fun c => { c with errSfc := satAdd c.errSfc 1 })
    if canListen s k then s1 else canErrState (setCan s1 k (fun c => { c with rxErr := min 255 (c.rxErr + if severe then 8 else 1) })) k
/-- A frame received without error lowers REC; above 127 to a value from 119 to 127 that the standard leaves open. -/
def canRxGood (s : State) (k : Nat) : State :=
  if canListen s k then s
  else
    let r := (canAt s k).rxErr
    if r > 127 then
      let f := freeNat s
      canErrState (setCan f.2 k (fun c => { c with rxErr := 119 + f.1 % 9 })) k
    else setCan s k (fun c => { c with rxErr := r - 1 })
/-- CAN_RECOVERY_DONE. -/
def canRecoveryDone (s : State) (k : Nat) : State :=
  let c := canAt s k
  if c.busOff && c.recovering then
    record (setCan s k (fun c => { c with busOff := false, recovering := false, passive := false, txErr := 0, rxErr := 0 })) 0x0B22 [k]
  else s

/-! ### Sending (R413 to R416) -/

/-- Order of arbitration (R414). -/
def canRank (f : CanTxF) : List Nat := [f.id.toNat / 2 ^ 18, b2n f.ide, f.id.toNat % 2 ^ 18]
def insertFrame (f : CanTxF) : List CanTxF → List CanTxF
  | [] => [f]
  | x :: r => if rankLess (canRank f) (canRank x) then f :: x :: r else x :: insertFrame f r
/-- The frame that an attempt concerns: the one in transmission, else the head of the queue, which starts only while the controller sends (R408). -/
def takeAttempt (s : State) (k : Nat) : Option CanTxF × State :=
  let c := canAt s k
  match c.cur, c.queue with
  | some f, _ => (some f, setCan s k (fun c => { c with cur := none }))
  | none, f :: rest => if canListen s k then (none, s) else (some f, setCan s k (fun c => { c with queue := rest }))
  | none, [] => (none, s)
/-- A word of a mapped point as it was last launched. -/
def launchedValue (s : State) (p : Nat) : Nat := let o := outPt s p; if o.everSent then o.sent.toNat else 0
/-- Data of a send object, built from the values launched (R409, R413). -/
def canBuild (s : State) (k n : Nat) : List Byte :=
  let len := objField s k n 8 0 7
  let total := (pointTable s).foldl (fun a e =>
    match e.2.source with
    | .can k' n' i =>
      if k' = k ∧ n' = n ∧ e.2.output then
        (if e.2.word then a ||| (launchedValue s e.1 * 2 ^ (24 * i)) else a ||| ((launchedValue s e.1 % 2) * 2 ^ i))
      else a
    | _ => a) 0
  leBytes len total
/-- The frame of a send object. -/
def canFrameOf (s : State) (k n : Nat) (data : List Byte) : CanTxF :=
  let sel := objField s k n 4 29 2
  { obj := n, id := BitVec.ofNat 29 (objField s k n 0 0 29), ide := objField s k n 0 29 1 == 1, fdf := sel != 0, brs := sel == 2
    oneShot := objField s k n 8 10 1 == 1 || objTt s k n, data := data }
/-- A frame joins the queue, or replaces the object's frame that waits there (R414). -/
def canQueue (s : State) (k : Nat) (f : CanTxF) : State :=
  let c := canAt s k
  match c.queue.find? (fun x => x.obj = f.obj) with
  | some old =>
    let s1 := setCan s k (fun c => { c with queue := c.queue.map (fun x => if x.obj = f.obj then f else x), replaced := satAdd c.replaced 1 })
    let s2 := setCanObj s1 k f.obj (fun o => { o with hits := 0 })
    dropFrame s2 k old 6
  | none => setCan s k (fun c => { c with queue := insertFrame f c.queue })
/-- Whether a send object is due at edge m (R413), given the data built. -/
def canDue (s : State) (k n m : Nat) (data : List Byte) : Bool :=
  let trig := objField s k n 8 7 2
  let period := objField s k n 8 12 12 + 1
  (bitOf trig 0 && (m + objField s k n 0xC 0 16) % period == 0) || (bitOf trig 1 && (canObjSt (canAt s k) n).last != some data)
/-- FD frames are sent and received only while CAN_CFG_k.FD is 1 (log 111). -/
def canFormatOn (s : State) (k : Nat) (fdf : Bool) : Bool := !fdf || canField s k 0 2 1 == 1
def canSendObject (s : State) (k m n : Nat) : State :=
  if !objSend s k n || objTt s k n || !canFormatOn s k (objField s k n 4 29 2 != 0) then s
  else
    let data := canBuild s k n
    if canDue s k n m data then
      canQueue (setCanObj s k n (fun o => { o with last := some data })) k (canFrameOf s k n data)
    else s
/-- The reference message of a time master (R420). -/
def canReference (s : State) (k m : Nat) : State :=
  let c := canField s k 0xC 5 12
  if ttRole s k == 2 && c != 0 && m % c == 0 then
    let cc := ((canAt s k).cycle + 1) % 2 ^ canField s k 0xC 2 3
    let f : CanTxF := { obj := 128, id := BitVec.ofNat 29 (canField s k 0x10 0 29), ide := canField s k 0x10 29 1 == 1, fdf := false, brs := false
                        oneShot := false, data := leBytes 1 cc }
    setCan s k (fun q => { q with queue := insertFrame f (q.queue.filter (fun x => x.obj ≠ 128)) })
  else s
/-- What a controller does at edge m with the values launched there (R408, R413, R420). -/
def canEdge (s : State) (k m : Nat) : State :=
  let s1 := maybeStart s k
  if !canSends s1 k then setCan s1 k (fun c => { c with queue := [] })
  else (List.range 128).foldl (fun s n => canSendObject s k m n) (canReference s1 k m)

/-- A reference message has been sent or taken: cycle time restarts, the cycle count is its own (R420). -/
def canReferenceSeen (s : State) (k cc : Nat) : State :=
  let lost := (canAt s k).ttLost
  let s1 := setCan s k (fun c => { c with cycle := cc, ttSync := true, ttLost := false, lastRef := s.tck.tick.toNat })
  if lost then record s1 0x0B51 [k, cc] else s1
/-- CAN_TX_DONE: the frame is on the bus, an FD frame with the ESI of the error state (R405); TEC falls by one, the collisions of its object are forgotten (R416, R417). A controller that
has gone to listen-only operation completes a frame that it has started (R408). -/
def canTxDone (s : State) (k : Nat) : State :=
  if !canEnabled s k then s
  else
    let x := takeAttempt s k
    match x.1 with
    | none => s
    | some f =>
      let s1 := emit x.2 (.can (if k = 0 then 0 else 1) (if f.ide then f.id else f.id >>> 18) f.ide f.fdf f.brs (f.fdf && (canAt s k).passive) f.data)
      let s2 := if canListen s1 k then s1 else canErrState (setCan s1 k (fun c => { c with txErr := c.txErr - 1 })) k
      if f.obj = 128 then canReferenceSeen s2 k (leAt f.data 0 1 % 64) else setCanObj s2 k f.obj (fun o => { o with hits := 0 })
/-- A frame that was not sent waits for its next attempt, or is dropped (R415); listen-only operation makes no further attempt. A newer
frame of its object that waits replaces it, and its collisions are forgotten (R415, R416). -/
def canRetry (s : State) (k : Nat) (f : CanTxF) (cause : Nat) : State :=
  if (canAt s k).busOff then dropFrame s k f 5
  else if f.oneShot || canListen s k then dropFrame s k f cause
  else if (canAt s k).queue.any (fun x => x.obj = f.obj) then setCanObj s k f.obj (fun o => { o with hits := 0 })
  else setCan s k (fun c => { c with queue := insertFrame f c.queue })
/-- CAN_TX_ERROR. -/
def canTxError (s : State) (k : Nat) (cause : CanTxErr) : State :=
  if !canEnabled s k then s
  else
    let x := takeAttempt s k
    match x.1 with
    | none => s
    | some f =>
      let s1 := x.2
      let up (s : State) : State := if canListen s k then s else canErrState (setCan s k (fun c => { c with txErr := min 256 (c.txErr + 8) })) k
      match cause with
      | .arbitrationLost => canRetry s1 k f 0
      | .bitError => canRetry (up (setCan s1 k (fun c => { c with errBit := satAdd c.errBit 1 }))) k f 2
      | .stuffFormCrc => canRetry (up (setCan s1 k (fun c => { c with errSfc := satAdd c.errSfc 1 }))) k f 3
      | .noAck =>
        let s2 := setCan s1 k (fun c => { c with errAck := satAdd c.errAck 1 })
        canRetry (if (canAt s2 k).passive then s2 else up s2) k f 4
      | .collision =>
        let s2 := up (setCan s1 k (fun c => { c with errCollide := satAdd c.errCollide 1 }))
        if f.obj = 128 ∨ f.oneShot then canRetry s2 k f 1
        else
          let hits := (canObjSt (canAt s2 k) f.obj).hits + 1
          let limit := canField s2 k 0 8 8
          if limit ≠ 0 ∧ hits ≥ limit ∧ !(canAt s2 k).busOff then record (setCanObj s2 k f.obj (fun o => { o with hits := 0 })) 0x0B41 [k, f.obj]
          else canRetry (setCanObj s2 k f.obj (fun o => { o with hits := hits })) k f 1

/-! ### Reception (R410 to R412, R418) -/

/-- Whether an object's rule holds but for the length, and whether it holds. -/
def objMatches (s : State) (k n : Nat) (f : CanFrame) : Bool × Bool :=
  let sel := objField s k n 4 29 2
  let m := objReceive s k n && ((wideId f.ide f.id) ^^^ objField s k n 0 0 29) &&& objField s k n 4 0 29 == 0 &&
    (objField s k n 0 29 1 == 1) == f.ide && (sel == 0 || (sel == 1 && !f.fdf) || (sel == 2 && f.fdf))
  (m && f.data.length != objField s k n 8 0 7, m && f.data.length == objField s k n 8 0 7)
/-- The first object that takes a frame, and the objects before it that only its length fails. -/
def canMatch (s : State) (k : Nat) (f : CanFrame) : Nat → Nat → Option Nat × Nat
  | 0, _ => (none, 0)
  | left + 1, n =>
    let m := objMatches s k n f
    if m.2 then (some n, 0)
    else
      let r := canMatch s k f left (n + 1)
      (r.1, r.2 + b2n m.1)
/-- An HP object stores its frame, latches its trigger, records it: of an extended identifier a parameter holds the low 24 bits (R418,
log 112). -/
def hpTake (s : State) (k n idx : Nat) (f : CanFrame) : State :=
  let fr := freeNat s
  let t := timeNs s - (f.sofAgo : Int) - ((fr.1 % 13 : Nat) : Int)
  let e : CanHp := { sec := (t / 1000000000).toNat, nsq := packNs (t % 1000000000).toNat s.ntm.quality, frame := f }
  let full := decide ((canObjSt (canAt s k) n).hp.length ≥ 16)
  let s1 := setCanObj fr.2 k n (fun o => { o with hp := (if full then o.hp.drop 1 else o.hp) ++ [e] })
  let s2 := if full then setCan s1 k (fun c => { c with overwrite := satAdd c.overwrite 1 }) else s1
  let s3 := latchTrigger s2 (0x300000 + 0x100 * k + idx)
  if canField s3 k 0 5 1 == 1 then record s3 0x0B30 [k, idx, f.id.toNat % 2 ^ 24] else s3
/-- A receive object takes a frame. -/
def objTake (s : State) (k n : Nat) (f : CanFrame) : State :=
  let o := canObjSt (canAt s k) n
  let s1 := if o.recv.isSome then setCan s k (fun c => { c with overwrite := satAdd c.overwrite 1 }) else s
  let s2 := setCanObj s1 k n (fun o => { o with recv := some f.data, seen := s.tck.tick.toNat + 1, failed := false })
  let s3 := if o.failed then record s2 0x0B32 [k, n] else s2
  match hpRank s3 k n with
  | some idx => if idx < 8 then hpTake s3 k n idx f else s3
  | none => s3
/-- A reference message: any for a slave, and for a master that listens only, which takes those of the active unit and goes on from their
cycle count after a takeover; for a master that sends, one with a lower identifier (R420, log 113). It counts when an object takes it (R410). -/
def isReference (s : State) (k : Nat) (f : CanFrame) : Bool :=
  let ref := canField s k 0x10 0 29
  let id := wideId f.ide f.id
  let sh := if f.ide then 8 else 8 * 2 ^ 18
  ttRole s k != 0 && (canField s k 0x10 29 1 == 1) == f.ide && id / sh == ref / sh && (ttRole s k == 1 || canListen s k || decide (id < ref))
/-- CAN_FRAME_RECEIVED. -/
def canFrameReceived (s : State) (k : Nat) (f : CanFrame) : State :=
  if !canEnabled s k || (canAt s k).busOff || (canAt s k).det.isSome || !canFormatOn s k f.fdf then s
  else
    let s0 := canRxGood s k
    let none1 (s : State) : State := setCan s k (fun c => { c with unmatched := satAdd c.unmatched 1 })
    if f.remote then none1 s0
    else
      let m := canMatch s0 k f 128 0
      let s1 := setCan s0 k (fun c => { c with dlc := satAdd c.dlc m.2 })
      match m.1 with
      | some n =>
        let s2 := if isReference s1 k f then
            canReferenceSeen (setCan s1 k (fun c => { c with queue := c.queue.filter (fun x => x.obj ≠ 128) })) k (leAt f.data 0 1 % 64)
          else s1
        objTake s2 k n f
      | none => none1 s1
/-- A source's points of the cut read their substitutes at once, in the view too (a failure that counts from the edge just passed). -/
def substituteNow (s : State) (src : Source → Bool) : State :=
  let s1 := { s with img.ins := s.img.ins.map (fun e =>
      match smGet (pointTable s) e.1 with
      | some pt => if src pt.source then (e.1, cutPoint pt e.2 true true false none) else e
      | none => e) }
  refreshView s1 (fun pt => src pt.source)
/-- A trigger latched as if before the edge just passed: it releases its tasks in the running tick, if that computes (R412). -/
def releaseIdent (s : State) (ident : Nat) : State :=
  match bankInForce s with
  | none => s
  | some b =>
    (b.tasks.filter (fun t => taskTakes t ident)).foldl (fun s t =>
      match s.tasks.released.find? (fun r => r.task = t.id) with
      | some _ => { s with tasks.released := s.tasks.released.map (fun r => if r.task = t.id then { r with count := satN 0xFFFFFF (r.count + 1) } else r) }
      | none => { s with tasks.released := s.tasks.released ++ [{ task := t.id, count := 1, first := ident }] }) s
def latchAtEdge (s : State) (ident : Nat) : State :=
  if s.tck.computing ∧ s.tck.phase = .edge then releaseIdent s ident else latchTrigger s ident
/-- CAN_RX_TIMEOUT at the edge just passed. -/
def canRxTimeout (s : State) (k n : Nat) : State :=
  let o := canObjSt (canAt s k) n
  let t := objField s k n 8 12 12
  if !canEnabled s k || !objReceive s k n || t == 0 || o.failed || decide (s.tck.tick.toNat < o.seen + t) then s
  else
    let s1 := record (setCanObj s k n (fun o => { o with failed := true, recv := none })) 0x0B31 [k, n]
    let s2 := substituteNow s1 (fun src => match src with | .can k' n' _ => k' == k && n' == n | _ => false)
    latchAtEdge s2 (0x900B00 + 128 * k + n)
/-- What an object offers a point at the cut: failed, and the value of the frame taken. -/
def canOffer (s : State) (k n i : Nat) (word : Bool) : Bool × Option Word :=
  let o := canObjSt (canAt s k) n
  (o.failed, o.recv.map (fun d =>
    let v := leNat d
    BitVec.ofNat 24 (if word then (v / 2 ^ (24 * i)) % 2 ^ 24 else (v / 2 ^ i) % 2)))
/-- The receiving copies have entered the cut. -/
def canCutDone (s : State) : State :=
  { s with can := s.can.map (fun c => { c with objs := c.objs.map (fun e => (e.1, { e.2 with recv := none })) }) }

/-! ### Time-triggered operation (R420) -/

/-- CAN_TIME_MARK. -/
def canTimeMark (s : State) (k n : Nat) (busIdle : Bool) : State :=
  let c := canAt s k
  if !canSends s k || !objSend s k n || !objTt s k n || !canFormatOn s k (objField s k n 4 29 2 != 0) || ttRole s k == 0 || !c.ttSync ||
     c.cycle % 2 ^ objField s k n 0xC 22 3 != objField s k n 0xC 16 6 then s
  else if busIdle && c.cur.isNone then
    setCan s k (fun c => { c with cur := some (canFrameOf s k n (canBuild s k n)) })
  else record s 0x0B40 [k, n, 7]
/-- CAN_TT_SYNC_LOST. -/
def canTtSyncLost (s : State) (k : Nat) : State :=
  let c := canAt s k
  if canEnabled s k && ttRole s k != 0 && c.ttSync && decide (s.tck.tick.toNat ≥ c.lastRef + 3 * canField s k 0xC 5 12) then
    record (setCan s k (fun c => { c with ttSync := false, ttLost := true })) 0x0B50 [k]
  else s

/-! ### Detection, settings, commands (R417 to R419, R422) -/

def nominalRates : List Nat := [1000, 800, 500, 250, 125, 100, 50, 20, 10]
def dataRates : List Nat := [8000, 5000, 4000, 2000, 1000]
/-- CAN_DETECT_DWELL_END. -/
def canDwellEnd (s : State) (k : Nat) (res : DwellResult) : State :=
  match (canAt s k).det with
  | none => s
  | some d =>
    let stop (s : State) : State := setCan s k (fun c => { c with det := none })
    let answer (nom dat : Nat) : State := respond (stop s) d.who 0 (leBytes 2 nom ++ leBytes 2 dat)
    match d.nominal with
    | none =>
      let rate := nominalRates.getD d.index 0
      match res with
      | .none => if d.index + 1 ≥ nominalRates.length then respond (stop s) d.who 0x0B08 []
        else setCan s k (fun c => { c with det := some { d with index := d.index + 1 } })
      | .found => answer rate 0
      | .foundBrs => setCan s k (fun c => { c with det := some { d with nominal := some rate, index := 0 } })
    | some nom =>
      match res with
      | .foundBrs => answer nom (dataRates.getD d.index 0)
      | _ => if d.index + 1 ≥ dataRates.length then answer nom 0
        else setCan s k (fun c => { c with det := some { d with index := d.index + 1 } })
/-- Registers of object n of controller k. -/
def objRegs (f : RegFile) (k n : Nat) : List Dword := (List.range 4).map (fun i => fileReg f 0x0B (canObjBase k n + 4 * i))
/-- Settings that make a controller listen only discard the frames that it has not started (R408), and another ROLE starts the
synchronisation anew (R420). -/
def canModeApplied (s : State) (old : RegFile) (k : Nat) : State :=
  let s1 := if canListen s k then let s0 := maybeStart s k; setCan s0 k (fun c => { c with queue := [] }) else s
  if fileField old 0x0B (0x14C + 0x40 * k) 0 2 = ttRole s k then s1 else setCan s1 k (fun c => { c with ttSync := false, ttLost := false })
/-- A change of settings at edge m: objects that changed come into force anew; a controller switched on or off starts afresh,
its RC counters kept. -/
def canApply (s : State) (old : RegFile) (m : Nat) : State :=
  let new := (blkCfg s 0x0B).inForce
  [0, 1].foldl (fun s k =>
    let was := bitOf (fileReg old 0x0B 0x100).toNat k
    let is := bitOf (fileReg new 0x0B 0x100).toNat k
    let c := canAt s k
    let fresh := (List.range 128).foldl (fun (a : SMap CanObj) n =>
      if !canObjUsed new k n then a
      else if was ∧ is ∧ objRegs old k n = objRegs new k n then smPut a n (canObjSt c n)
      else smPut a n { CanObj.reset with seen := m }) []
    let s1 := if was = is then setCan s k (fun c => { c with objs := fresh, queue := c.queue.filter (fun f => f.obj = 128 ∨ canObjUsed new k f.obj) }) |> (canModeApplied · old k)
      else setCan s k (fun c => { CanCtl.reset with objs := fresh, errBit := c.errBit, errSfc := c.errSfc, errAck := c.errAck, errCollide := c.errCollide
                                                    unmatched := c.unmatched, dlc := c.dlc, replaced := c.replaced, overwrite := c.overwrite })
    match c.det with
    | some d => if is ∧ fileField new 0x0B (0x140 + 0x40 * k) 0 2 = 1 then s1
      else respond (setCan s1 k (fun c => { c with det := none })) d.who 0x0B07 []
    | none => s1) s

def doCanRecover (carried : Bool) (d : List Byte) (w : Who) (s : State) : State :=
  refuseShape s w d [(inBoot s, 0x0103)] (fun s =>
    if leAt d 0 1 > 1 then respondFree s w
    else
      let s1 := setCan s (leAt d 0 1) (fun c => { c with recovering := c.recovering || c.busOff })
      respond (forward carried s1 (nextEdge s1) 0x0B01 d) w 0 [])
def doCanDetect (carried : Bool) (d : List Byte) (w : Who) (s : State) : State :=
  let k := leAt d 0 1
  let dwell := leAt d 2 2
  refuseShape s w d [(inBoot s, 0x0103)] (fun s =>
    if k > 1 ∨ dwell < 10 ∨ dwell > 10000 ∨ (canAt s k).det.isSome then respondFree s w
    else if !(canEnabled s k) || canField s k 0 0 2 != 1 then respond s w 0x0B07 []
    else
      let s1 := setCan s k (fun c => { c with det := some { who := w, dwell := dwell, nominal := none, index := 0 } })
      forward carried s1 (nextEdge s1) 0x0B02 d)
/-- An entry of an HP buffer as a response gives it (log 15). -/
def hpBytes (e : CanHp) : List Byte :=
  let f := e.frame
  leBytes 6 e.sec ++ leBytes 4 e.nsq.toNat ++ leBytes 4 (wideId f.ide f.id + 2 ^ 29 * b2n f.ide + 2 ^ 30 * b2n f.fdf + 2 ^ 31 * b2n f.brs) ++
  leBytes 1 (b2n f.esi) ++ leBytes 1 f.data.length ++ padTo 64 f.data
def doCanHpRead (carried : Bool) (d : List Byte) (w : Who) (s : State) : State :=
  let k := leAt d 0 1
  refuseShape s w d [(inBoot s, 0x0103)] (fun s =>
    if k > 1 then respondFree s w
    else
      match (hpObjects (blkCfg s 0x0B).inForce k)[leAt d 1 1]? with
      | none => respond s w 0x0B09 []
      | some n =>
        let s1 := setCanObj s k n (fun o => { o with hp := [] })
        respond (forward carried s1 (nextEdge s1) 0x0B03 d) w 0 ((canObjSt (canAt s k) n).hp.flatMap hpBytes))

def execCanFrameReceived (k : Fin 2) (f : CanFrame) (s : State) : Host.Outcome State Fault Refusal := .next (canFrameReceived s k.val f)
def execCanRxTimeout (k : Fin 2) (obj : Fin 128) (s : State) : Host.Outcome State Fault Refusal := .next (canRxTimeout s k.val obj.val)
def execCanTxDone (k : Fin 2) (s : State) : Host.Outcome State Fault Refusal := .next (canTxDone s k.val)
def execCanTxError (k : Fin 2) (cause : CanTxErr) (s : State) : Host.Outcome State Fault Refusal := .next (canTxError s k.val cause)
def execCanRecoveryDone (k : Fin 2) (s : State) : Host.Outcome State Fault Refusal := .next (canRecoveryDone s k.val)
def execCanTimeMark (k : Fin 2) (obj : Fin 128) (busIdle : Bool) (s : State) : Host.Outcome State Fault Refusal := .next (canTimeMark s k.val obj.val busIdle)
def execCanTtSyncLost (k : Fin 2) (s : State) : Host.Outcome State Fault Refusal := .next (canTtSyncLost s k.val)
def execCanDetectDwellEnd (k : Fin 2) (res : DwellResult) (s : State) : Host.Outcome State Fault Refusal := .next (canDwellEnd s k.val res)
def execCanRecover (r : Req) (s : State) : Host.Outcome State Fault Refusal := .next (command s r 0x0B01 (fun q => doCanRecover false q.payload))
def execCanDetect (r : Req) (s : State) : Host.Outcome State Fault Refusal := .next (command s r 0x0B02 (fun q => doCanDetect false q.payload))
def execCanHpRead (r : Req) (s : State) : Host.Outcome State Fault Refusal := .next (command s r 0x0B03 (fun q => doCanHpRead false q.payload))
def execCanRxError (k : Fin 2) (severe : Bool) (s : State) : Host.Outcome State Fault Refusal := .next (canRxError s k.val severe)

end Sys2Proof.Machine
end

