-- ==== Sys2Proof/Machine/Local.lean ====
section
/-! DEFINITION. The local 24 V channels: groups, inputs, wire break, outputs, counters, and what an edge does to them (R423 to R441). -/
namespace Sys2Proof.Machine
open Sys2Proof

/-! ### Groups and channels -/

/-- Mode and gang of a channel in force. -/
def chMode (s : State) (ch : Nat) : Nat := lchMode (blkCfg s 0x0C).inForce ch
def chGang (s : State) (ch : Nat) : Nat := lchGang (blkCfg s 0x0C).inForce ch
def groupFailed (s : State) (g : Nat) : Bool := s.lch.groupFail.getLsbD g
def groupEnabled (s : State) (g : Nat) : Bool := cfgBit s 0x0C 0x100 g
/-- The group of a channel is enabled and has not failed (R423, R424). -/
def chWorks (s : State) (ch : Nat) : Bool := groupEnabled s (ch / 8) && !groupFailed s (ch / 8)
/-- First channel and size of the output that a channel belongs to (R434). -/
def gangOf (f : RegFile) (ch : Nat) : Nat × Nat :=
  if lchGang f ch = 1 then (ch, 2)
  else if lchGang f ch = 2 then (ch, 4)
  else if lchGang f ch = 3 then
    (if lchGang f (ch / 4 * 4) = 2 then (ch / 4 * 4, 4) else (ch / 2 * 2, 2))
  else (ch, 1)
def outputOf (s : State) (ch : Nat) : Nat × Nat := gangOf (blkCfg s 0x0C).inForce ch
/-- The bits of n channels from a channel on. -/
def chBits (first n : Nat) : BitVec 32 := BitVec.ofNat 32 ((2 ^ n - 1) * 2 ^ first)
def chBit (ch : Nat) : BitVec 32 := chBits ch 1

/-- The DIAG value of a channel (R425). -/
def diagBit (s : State) (ch : Nat) : Bool :=
  decide (1 ≤ chMode s ch) && decide (chMode s ch ≤ 6) &&
  (s.lch.breaks.getLsbD ch || s.lch.overload.getLsbD ch || groupFailed s (ch / 8))
/-- What a channel offers a point at the cut: failed, and the value (R424, R426, R427, R431). -/
def localOffer (s : State) (ch item : Nat) : Bool × Option Word :=
  let bit (b : Bool) : Option Word := some (BitVec.ofNat 24 (b2n b))
  match item with
  | 0 =>
    let v := s.lch.level.getLsbD ch || (cfgField s 0x0C (0x200 + 4 * ch) 9 1 == 1 && s.lch.caught.getLsbD ch)
    (groupFailed s (ch / 8) || s.lch.breaks.getLsbD ch, if groupEnabled s (ch / 8) then bit v else none)
  | 1 => (groupFailed s (ch / 8), if groupEnabled s (ch / 8) then some (s.lch.count.toArray.getD ch 0#24) else none)
  | _ => (false, bit (diagBit s ch))

/-- L+ of a group in mV: measured every 100 µs, so that what a command reports is shown that long, and then a free value (R424, R440, log 120). -/
def lplusMv (s : State) (g : Nat) : BitVec 16 :=
  if s.now ≤ s.lch.mvAt.toArray.getD g 0 + 100000 then s.lch.mv.toArray.getD g 0#16 else Config.lplusMv s.now g
def setMv (s : State) (g : Nat) (mv : BitVec 16) : State := { s with lch.mv := s.lch.mv.setIfInBounds g mv, lch.mvAt := s.lch.mvAt.setIfInBounds g s.now }
/-- Outputs go off at once; they stay off where a later fault of the tick takes the place of the first one (R185, R433). -/
def outsOff (s : State) (b : BitVec 32) : State :=
  { s with lch.outs := s.lch.outs &&& ~~~b, tck.pend := s.tck.pend.map (fun f => { f with outs := f.outs &&& ~~~b }) }
/-- LPLUS_GROUP_FAIL (R424). -/
def lplusGroupFail (s : State) (g : Nat) (mv : BitVec 16) : State :=
  if s.tck.mode = .dormant then s
  else
    let s0 := setMv s g mv
    if groupFailed s g then s0
    else
      let s1 := record (outsOff { s0 with lch.groupFail := s0.lch.groupFail ||| (1#4 <<< g) } (chBits (8 * g) 8)) 0x0C20 [g, mv.toNat]
      latchTrigger s1 (0x900C20 + g)
/-- LPLUS_GROUP_RESTORE (R424). -/
def lplusGroupRestore (s : State) (g : Nat) (mv : BitVec 16) : State :=
  if s.tck.mode = .dormant then s
  else
    let s0 := setMv s g mv
    if groupFailed s g then record { s0 with lch.groupFail := s0.lch.groupFail &&& ~~~(1#4 <<< g) } 0x0C21 [g] else s0

/-! ### Inputs and counters (R427 to R431, R437, R438) -/

/-- A counter advances, modulo 2^24. -/
def countUp (s : State) (ch : Nat) : State :=
  { s with lch.count := s.lch.count.setIfInBounds ch (s.lch.count.toArray.getD ch 0#24 + 1#24) }
def setLevel (s : State) (ch : Nat) (on : Bool) : State :=
  if on then { s with lch.level := s.lch.level ||| chBit ch, lch.caught := s.lch.caught ||| chBit ch }
  else { s with lch.level := s.lch.level &&& ~~~chBit ch }
/-- Modes whose filter accepts edges (R428). -/
def edgeMode (m : Nat) : Bool := m == 1 || m == 2 || m == 3 || m == 5 || m == 6
/-- LOCAL_EDGE: the filter accepts an edge, also while the group has failed or a wire break stands: those substitute points and no more
(R424, R428, R431). -/
def localEdge (s : State) (ch : Nat) (rising : Bool) : State :=
  let m := chMode s ch
  if !groupEnabled s (ch / 8) || !edgeMode m || s.lch.level.getLsbD ch == rising then s
  else
    let s1 := setLevel s ch rising
    let s2 := if m == 5 && rising then countUp s1 ch else s1
    latchTrigger s2 (0x200000 + ch + 64 * b2n rising)
/-- WIRE_BREAK. -/
def wireBreak (s : State) (ch : Nat) : State :=
  if !groupEnabled s (ch / 8) || chMode s ch != 3 || s.lch.breaks.getLsbD ch then s
  else latchTrigger (record { s with lch.breaks := s.lch.breaks ||| chBit ch } 0x0C30 [ch]) (0x900C00 + ch)
/-- WIRE_BREAK_CLEAR. -/
def wireBreakClear (s : State) (ch : Nat) (on : Bool) : State :=
  if !groupEnabled s (ch / 8) || !s.lch.breaks.getLsbD ch then s
  else record (setLevel { s with lch.breaks := s.lch.breaks &&& ~~~chBit ch } ch on) 0x0C31 [ch]
/-- S0_PULSE: ms is how long the pulse was ON. -/
def s0Pulse (s : State) (ch ms : Nat) : State :=
  if !groupEnabled s (ch / 8) || chMode s ch != 6 || decide (ch > 7) || decide (ms < 2) then s
  else if ms ≥ 25 then countUp s ch
  else
    let s1 := { s with lch.shortCnt := satAdd s.lch.shortCnt 1, lch.shortCh := BitVec.ofNat 3 ch }
    let may := match s.lch.shortAt with | some t => decide (s.now ≥ t + 1000000000) | none => true
    if may then record { s1 with lch.shortAt := some s.now } 0x0C34 [ch, ms] else s1

/-! ### Outputs (R433 to R435) -/

/-- The output of a leader as launched last; off without a point. -/
def launchedOut (s : State) (leader : Nat) : Bool :=
  match (pointTable s).find? (fun e => match e.2.source with | .local c i => c == leader && i == 3 && e.2.output | _ => false) with
  | some e => let o := outPt s e.1; o.everSent && o.sent.getLsbD 0
  | none => false
/-- An output that may be on: its group works, no member is latched, and the part launches and holds the claim (R322, R433). -/
def outMay (s : State) (leader n : Nat) : Bool :=
  (s.tck.mode == .run || s.tck.mode == .hold || s.tck.mode == .stop) && holdsClaim s && chWorks s leader && s.lch.overload &&& chBits leader n == 0#32
/-- The outputs of mode 4, by leader. -/
def leaders (s : State) : List Nat := (List.range 32).filter (fun ch => chMode s ch == 4 && chGang s ch != 3)
/-- Every output follows the launch. -/
def localLaunch (s : State) : State :=
  { s with lch.outs := (leaders s).foldl (fun a ch =>
      let n := (outputOf s ch).2
      if outMay s ch n && launchedOut s ch then a ||| chBits ch n else a) 0#32 }
/-- OUTPUT_OVERLOAD: the whole output goes off and latches; thermal shutdown may find it off already (R435). -/
def outputOverload (s : State) (ch : Nat) : State :=
  let o := outputOf s ch
  let b := chBits o.1 o.2
  if s.tck.mode = .dormant ∨ chMode s ch ≠ 4 then s
  else
    let at' := (List.range o.2).foldl (fun v i => v.setIfInBounds (o.1 + i) s.now) s.lch.overAt
    record (outsOff { s with lch.overload := s.lch.overload ||| b, lch.overAt := at' } b) 0x0C32 [o.1, o.2]
/-- The channels that a latch is cleared for: the leaders, and a channel that is no output any more (R435, log 121). -/
def latchUnits (s : State) : List Nat := (List.range 32).filter (fun ch => chMode s ch != 4 || chGang s ch != 3)
/-- Latches cleared: each output with one of them records 0x0C33 (kind 0 command or write, 1 retry). -/
def clearLatches (s : State) (bits : BitVec 32) (kind : Nat) : State :=
  let hit := s.lch.overload &&& bits
  (latchUnits s).foldl (fun s ch =>
    if hit &&& chBits ch (outputOf s ch).2 == 0#32 then s else record s 0x0C33 [ch, kind]) { s with lch.overload := s.lch.overload &&& ~~~bits }
/-- The edge just passed came at least 100 ms after the overload of a leader's output (R435). -/
def retryDue (s : State) (leader : Nat) : Bool := decide (s.lch.overAt.toArray.getD leader 0 + 100000000 + s.tck.ofs ≤ s.now)
/-- OVERLOAD_RETRY at the edge just passed: the latch clears and the output follows its launch. -/
def overloadRetry (s : State) (ch : Nat) : State :=
  let o := outputOf s ch
  let b := chBits o.1 o.2
  if !cfgBit s 0x0C 0x100 4 || s.lch.overload &&& b == 0#32 || !retryDue s o.1 then s
  else
    let s1 := clearLatches s b 1
    if chMode s1 ch == 4 && outMay s1 o.1 o.2 && launchedOut s1 o.1 then { s1 with lch.outs := s1.lch.outs ||| b } else s1
/-- A write to LCH_OVERLOAD: its clears wait for the edge. -/
def lchAskClear (s : State) (v : BitVec 32) : State := { s with lch.clearBits := s.lch.clearBits ||| v }
/-- At an edge: the clears asked for (before the launch). -/
def localClearEdge (s : State) : State :=
  let who := s.lch.clearWho
  let s1 := clearLatches { s with lch.clearBits := 0#32, lch.clearWho := [] } s.lch.clearBits 0
  who.foldl (fun s w => respond s w 0 []) s1
/-- After a cut: what was caught before it is past. -/
def localCutDone (s : State) : State := { s with lch.caught := 0#32 }
/-- A change of settings applies: a channel that changes mode or gang is off and starts afresh; so does its counter (R438, R439). Its overload
latch stays (R435). -/
def localApply (s : State) (old : RegFile) : State :=
  let new := (blkCfg s 0x0C).inForce
  let changed := (List.range 32).filter (fun ch => lchMode old ch != lchMode new ch || lchGang old ch != lchGang new ch)
  let off := (List.range 4).filter (fun g => !groupEnabled s g)
  let bits := changed.foldl (fun a ch => a ||| chBit ch) 0#32
  let gone := off.foldl (fun a g => a ||| chBits (8 * g) 8) 0#32
  let keep := ~~~bits
  { s with lch.level := s.lch.level &&& keep, lch.caught := s.lch.caught &&& keep, lch.breaks := s.lch.breaks &&& keep
           lch.outs := s.lch.outs &&& keep &&& ~~~gone
           lch.count := Vector.ofFn (fun (i : Fin 8) => if lchMode old i.val = lchMode new i.val then s.lch.count.get i else 0#24) }

/-! ### Consistency checks (R430, R434, R439, R440) -/

/-- GANG rules: leaders aligned, members complete, nothing across. -/
def gangBad (f : RegFile) : Bool :=
  (List.range 32).any (fun ch =>
    let g := lchGang f ch
    let members (n : Nat) : Bool := (List.range n).all (fun i => i == 0 || (lchGang f (ch + i) == 3 && lchMode f (ch + i) == 4))
    if g == 0 then false
    else if lchMode f ch != 4 then true
    else if g == 1 then ch % 2 != 0 || !members 2
    else if g == 2 then ch % 4 != 0 || !members 4
    else
      let q := ch / 4 * 4
      !((lchGang f q == 2 && ch != q) || (ch % 2 == 1 && lchGang f (ch - 1) == 1)))
/-- Points that a change must leave alone: of the bank in force and of ADMITTED banks. -/
def guardedPoints (s : State) : List Point :=
  ([BankId.a, BankId.b].filter (fun b => s.ldr.inForce == some b || (bankSt s b).phase == .admitted)).flatMap (fun b =>
    match (bankSt s b).prog with
    | some p => p.points.map (fun e => e.2)
    | none => [])
/-- The first reason of block 0x0C that a copy fails with. -/
def localCheck (s : State) (f : RegFile) : Option Nat :=
  let now := (blkCfg s 0x0C).inForce
  let chs := List.range 32
  let touched (ch : Nat) : Bool := lchMode f ch != lchMode now ch || lchGang f ch != lchGang now ch ||
    bitOf (fileReg f 0x0C 0x100).toNat (ch / 8) != bitOf (fileReg now 0x0C 0x100).toNat (ch / 8)
  firstReason [
    (chs.any (fun ch => lchMode f ch == 7 || (decide (ch ≥ 8) && decide (lchMode f ch ≥ 5))), 0x0C01),
    (gangBad f, 0x0C02),
    (chs.any (fun ch => lchMode f ch == 5 && decide (fileField f 0x0C (0x200 + 4 * ch) 5 4 > 1)), 0x0C03),
    ((guardedPoints s).any (fun p => match p.source with | .local ch _ => touched ch | _ => false), 0x0C04)]

/-! ### LCH_CLEAR (R441) -/

def doLchClear (carried : Bool) (d : List Byte) (w : Who) (s : State) : State :=
  refuseShape s w d [(notHere s carried, 0x0103)] (fun s =>
    let s1 := lchAskClear s (BitVec.ofNat 32 (leAt d 0 4))
    forward carried { s1 with lch.clearWho := s1.lch.clearWho ++ [w] } (nextEdge s1) 0x0C01 d)

def execLplusGroupFail (g : Fin 4) (mv : BitVec 16) (s : State) : Host.Outcome State Fault Refusal := .next (lplusGroupFail s g.val mv)
def execLplusGroupRestore (g : Fin 4) (mv : BitVec 16) (s : State) : Host.Outcome State Fault Refusal := .next (lplusGroupRestore s g.val mv)
def execLocalEdge (ch : Fin 32) (rising : Bool) (s : State) : Host.Outcome State Fault Refusal := .next (localEdge s ch.val rising)
def execWireBreak (ch : Fin 32) (s : State) : Host.Outcome State Fault Refusal := .next (wireBreak s ch.val)
def execWireBreakClear (ch : Fin 32) (on : Bool) (s : State) : Host.Outcome State Fault Refusal := .next (wireBreakClear s ch.val on)
def execOutputOverload (ch : Fin 32) (s : State) : Host.Outcome State Fault Refusal := .next (outputOverload s ch.val)
def execOverloadRetry (ch : Fin 32) (s : State) : Host.Outcome State Fault Refusal := .next (overloadRetry s ch.val)
def execS0Pulse (ch : Fin 32) (ms : Nat) (s : State) : Host.Outcome State Fault Refusal := .next (s0Pulse s ch.val ms)
def execLchClear (r : Req) (s : State) : Host.Outcome State Fault Refusal := .next (command s r 0x0C01 (fun q => doLchClear false q.payload))

end Sys2Proof.Machine
end

