-- ==== Sys2Proof/Machine/Meter.lean ====
section
/-! DEFINITION. Metering and energy: samples and gain, line cycles, voltage events, energy, latches, slate records, commands (R442 to R466). -/
namespace Sys2Proof.Machine
open Sys2Proof

/-! ### Configuration -/

def setFeeder (s : State) (f : Nat) (x : Feeder → Feeder) : State :=
  { s with mtr.feeders := s.mtr.feeders.setIfInBounds f (x (feederAt s f)) }
def fdrField (s : State) (f ofs lo n : Nat) : Nat := cfgField s 0x0D (0x200 + 0x40 * f + ofs) lo n
/-- TYPE of a feeder in force, 0 when it is not enabled. -/
def typeOf (s : State) (f : Nat) : Nat := feederType (blkCfg s 0x0D).inForce f
def feederOn (s : State) (f : Nat) : Bool := typeOf s f == 1 || typeOf s f == 2
/-- A channel that its feeder uses. -/
def channelUsed (s : State) (c : Nat) : Bool := typeOf s (c / 6) == 1 || (typeOf s (c / 6) == 2 && c % 6 != 1 && c % 6 != 4)
/-- A channel of the feeder has failed. -/
def feederFailed (s : State) (f : Nat) : Bool :=
  (List.range 6).any (fun i => s.mtr.chFail.getLsbD (6 * f + i) && channelUsed s (6 * f + i))
/-- A finite ratio as mantissa and exponent. -/
def ratioOf (v : Nat) : Nat × Int := match fdecode f32 v with | .fin false m e => (m, e) | _ => (0, 0)
/-- VRATIO × IRATIO of a feeder in a copy. -/
def ratioIn (c : RegFile) (f : Nat) : Nat × Int :=
  let v := ratioOf (fileReg c 0x0D (0x204 + 0x40 * f)).toNat
  let i := ratioOf (fileReg c 0x0D (0x208 + 0x40 * f)).toNat
  (v.1 * i.1, v.2 + i.2)
/-- a × 2^e / b as numerator and denominator. -/
def scaleBy (a b : Nat) (e : Int) : Nat × Nat := if e ≥ 0 then (a * 2 ^ e.toNat, b) else (a, b * 2 ^ (-e).toNat)
/-- Energy over ns, in units of 2^-16 LSB, of a mean power whose numerator over n samples is p2 / 2 (see `PhaseSum`): an LSB is
1.5 × VRATIO × IRATIO × 2^-22 Ws, so that the ratios cancel (R456, R457; log 12). -/
def energyUnits (s : State) (p2 n ns : Nat) : Nat × State := roundFree s (p2 * ns * 2 ^ 38) (3 * 10 ^ 9 * n * 2 ^ 94)
/-- The LSB of a feeder in Wh as binary32; the direction of its rounding is left open (log 12). -/
def elsbOf (s : State) (f : Nat) : Nat × State :=
  let r := ratioIn (blkCfg s 0x0D).inForce f
  let m := r.1 * 2 ^ 64
  let at' (mode : Nat) : Nat := fpack f32 mode false (m / 1200) (r.2 - 87) (m % 1200 != 0)
  let b := freeBool s
  if at' 1 = at' 3 then (at' 1, s) else ((if b.1 then at' 3 else at' 1), b.2)
/-- MTR_ELSB_f of every feeder follows the ratios in force. -/
def setElsb (s : State) : State :=
  [0, 1, 2, 3].foldl (fun s f => let e := elsbOf s f; { e.2 with mtr.elsb := e.2.mtr.elsb.setIfInBounds f (BitVec.ofNat 32 e.1) }) s
def elsb (s : State) (f : Nat) : Nat := (s.mtr.elsb.toArray.getD f 0#32).toNat
/-- Pulse register: base, and whole multiples of WH in the import energy since (R463). -/
def pulsesIn (c : RegFile) (f : Nat) (x : Feeder) : Nat :=
  let wh := fileField c 0x0D (0x214 + 0x40 * f) 0 24
  if wh = 0 then x.pulseBase
  else
    let r := ratioIn c f
    let y := scaleBy (x.pulseAcc * 3 * r.1) (2 ^ 39 * 3600 * wh) r.2
    (x.pulseBase + y.1 / y.2) % 2 ^ 24

/-! ### Samples and gain (R442 to R445) -/

/-- Gain code of current channel j = 3 f + phase in force. -/
def gainCode (s : State) (j : Nat) : Nat := if fdrField s (j / 3) 0 2 1 == 1 then s.mtr.gain.toArray.getD j 0 else fdrField s (j / 3) 0 3 2
def setGain (s : State) (j v : Nat) : State := { s with mtr.gain := s.mtr.gain.setIfInBounds j v }
/-- A sample corrected for its channel, in units of 2^-47 V at the pin: by the gain at which it was taken, by MTR_CAL_c.GAIN in units of
2^-20, and by MTR_CAL_c.DELAY, whose interpolation the spec does not give: a free value where it is not 0 (R442, log 122). -/
def correctSample (s : State) (c g : Nat) (x : Int) : Int × State :=
  let cal (lo n : Nat) : Int := ofTwos n (cfgField s 0x0D (0x400 + 4 * c) lo n)
  let y := if cal 16 12 = 0 then (x, s) else freeInt s
  (y.1 * (16 / 4 ^ g : Nat) * (2 ^ 20 + cal 0 16), y.2)
/-- What one sample of channel c, a signed word with full scale 2^23, does to clip bits and gain (R444). -/
def sampleGain (s : State) (c : Nat) (x : Int) : State :=
  let f := c / 6
  let a := x.natAbs
  let cur := decide (c % 6 ≥ 3)
  let j := 3 * f + (c % 6 - 3)
  let auto := cur && fdrField s f 0 2 1 == 1
  let g := if cur then gainCode s j else 0
  let full := decide (x ≥ 8388607) || decide (x ≤ -8388608)
  let s1 := if full && (!auto || g == 0) then
      setFeeder { s with mtr.clip := s.mtr.clip ||| (1#24 <<< c) } f (fun y => { y with clip := true })
    else s
  let s2 := if cur && decide (20 * a ≥ 8388608) then { s1 with mtr.high := s1.mtr.high ||| (1#12 <<< j) } else s1
  if auto && decide (10 * a ≥ 9 * 8388608) && decide (g > 0) then
    { setGain s2 j (g - 1) with mtr.low := s2.mtr.low.setIfInBounds j 0 }
  else s2
/-- One sample of channel c: its corrected value; 0 for a channel that is not used. -/
def sampleOne (s : State) (c : Nat) (x : Int) : Int × State :=
  if !channelUsed s c then (0, s)
  else
    let g := if c % 6 ≥ 3 then gainCode s (3 * (c / 6) + (c % 6 - 3)) else 0
    let y := correctSample s c g x
    (y.1, sampleGain y.2 c x)
/-- Voltage and current of a phase in one sample of six channels: in 3P3W the line-to-line voltages A-B, B-C, C-A, and the currents of
which B is derived (15, the table of channels). -/
def phaseVI (type : Nat) (xs : List Int) (i : Nat) : Int × Int :=
  let x (k : Nat) : Int := xs.getD k 0
  if type = 2 then
    match i with
    | 0 => (x 0, x 3)
    | 1 => (-x 2, -(x 3 + x 5))
    | _ => (x 2 - x 0, x 5)
  else (x i, x (3 + i))
/-- A sample joins the sum of its half cycle. -/
def halfAdd (h : HalfSum) (type : Nat) (xs : List Int) : HalfSum :=
  { n := h.n + 1, sq := (List.range 3).map (fun i => h.sq.getD i 0 + (phaseVI type xs i).1.natAbs ^ 2) }
/-- The six channels of a feeder sample. -/
def sampleFeeder (s : State) (ws : List Word) (f : Nat) : State :=
  if !feederOn s f then s
  else
    let r := (List.range 6).foldl (fun (a : List Int × State) i =>
      let y := sampleOne a.2 (6 * f + i) (ofTwos 24 (ws.getD (6 * f + i) 0#24).toNat)
      (a.1 ++ [y.1], y.2)) ([], s)
    setFeeder r.2 f (fun x => { x with wave := (s.now, r.1) :: x.wave, half := halfAdd x.half (typeOf s f) r.1 })
/-- SAMPLE_INSTANT: every channel samples (R443). -/
def sampleInstant (s : State) (ws : List Word) : State := if !ticking s then s else [0, 1, 2, 3].foldl (sampleFeeder · ws) s
/-- The end of a line cycle looks for gains to step up (R444); without GAIN_AUTO nothing counts. -/
def gainUp (s : State) (f : Nat) : State :=
  [3 * f, 3 * f + 1, 3 * f + 2].foldl (fun s j =>
    let g := gainCode s j
    let auto := fdrField s f 0 2 1 == 1
    let n := if !auto || s.mtr.high.getLsbD j || g ≥ 2 then 0 else s.mtr.low.toArray.getD j 0 + 1
    let s1 := { s with mtr.high := s.mtr.high &&& ~~~(1#12 <<< j) }
    if n ≥ 16 then { setGain s1 j (g + 1) with mtr.low := s1.mtr.low.setIfInBounds j 0 }
    else { s1 with mtr.low := s1.mtr.low.setIfInBounds j n }) s

/-! ### Voltage events (R453 to R455) -/

/-- Code of the beginning of an event: 0 sag, 1 swell, 2 interruption. -/
def eventCode (kind : Nat) : Nat := 0x0D10 + 2 * kind
def eventAt (x : Feeder) (kind : Nat) : Option VEvent := match kind with | 0 => x.sag | 1 => x.swell | _ => x.intr
def setEvent (x : Feeder) (kind : Nat) (e : Option VEvent) : Feeder :=
  match kind with
  | 0 => { x with sag := e }
  | 1 => { x with swell := e }
  | _ => { x with intr := e }
/-- Declared voltage in mV. -/
def udinMv (s : State) (f : Nat) : Nat := 100 * fdrField s f 0xC 0 24
/-- The root of a / b, or that plus one where it is not whole: the rounding is left open (log 12). -/
def rootFree (s : State) (a b : Nat) : Nat × State :=
  let r := isqrt (a / b) ((a / b).log2 / 2 + 1) 0
  if r * r * b = a then (r, s) else let f := freeBool s; (r + b2n f.1, f.2)
/-- An event ends: duration in ms and depth in 0.01 % of U_DIN (rounding: log 12). -/
def endEvent (s : State) (f kind : Nat) : State :=
  match eventAt (feederAt s f) kind with
  | none => s
  | some e =>
    let ms := roundFree s (s.now - e.began) 1000000
    let d := rootFree ms.2 (e.depth * 10 ^ 8) (2 * (udinMv s f) ^ 2)
    let s1 := setFeeder d.2 f (fun x => setEvent { x with lastMs := BitVec.ofNat 16 (min 0xFFFF ms.1) } kind none)
    record s1 (eventCode kind + 1) [f, e.mask, ms.1, d.1]
def endEvents (s : State) (f : Nat) : State := [0, 1, 2].foldl (fun s k => endEvent s f k) s
/-- Voltages below, or above, a percentage of U_DIN, as a phase mask. -/
def phasesWhere (vs : List Nat) (p : Nat → Bool) : Nat := ofBits ((List.range vs.length).filter (fun i => p (vs.getD i 0)))
/-- One kind of event at a boundary: begins and ends are tests on one voltage in mV. -/
def judge (s : State) (f kind : Nat) (vs : List Nat) (begins ends : Nat → Bool) (anyBegins anyEnds : Bool) (deeper : Nat → Nat → Nat) : State :=
  let worst := vs.foldl deeper (vs.getD 0 0)
  match eventAt (feederAt s f) kind with
  | none =>
    if (if anyBegins then vs.any begins else !vs.isEmpty && vs.all begins) then
      let mask := phasesWhere vs begins
      setFeeder s f (fun x => setEvent { x with trig := x.trig ++ [kind + 4 * mask] } kind (some { began := s.now, mask := mask, depth := worst }))
    else s
  | some e =>
    let s1 := setFeeder s f (fun x => setEvent x kind (some { e with mask := e.mask ||| phasesWhere vs begins, depth := deeper e.depth worst }))
    if (if anyEnds then vs.any ends else vs.all ends) then endEvent s1 f kind else s1
/-- Results that wait until they are ready. -/
def putResult (s : State) (f item phase : Nat) (v : Nat) : State :=
  setFeeder s f (fun x => { x with pend := smPut x.pend (4 * item + phase) (BitVec.ofNat 24 v) })
/-- An unsigned result in units of 10^k of its measure, saturated. -/
def scaledResult (s : State) (v k : Nat) : Nat × State :=
  let x := roundFree s v (10 ^ k)
  (min 0xFFFFFF x.1, x.2)
def scaledSigned (s : State) (v : Int) (d : Nat) : Nat × State :=
  let x := roundFreeInt s v d
  (toTwos 24 (satInt 24 x.1), x.2)
/-- Twice the square of a half-cycle voltage in mV, plus 1 where that square is not whole (see `halfSquares`), against n percent of U_DIN. -/
def pctSquare (s : State) (f p : Nat) : Nat := 2 * (p * fdrField s f 0xC 0 24) ^ 2
/-- The three event judgements of a half cycle, and the bits that show them (R453, R454). -/
def judgeHalf (s1 : State) (f : Nat) (vs : List Nat) : State :=
  let th (lo n : Nat) : Nat := fdrField s1 f 0x10 lo n
  let below (v p : Nat) : Bool := decide (v < pctSquare s1 f p)
  let above (v p : Nat) : Bool := decide (v > pctSquare s1 f p)
  let h := th 19 4
  let s2 := judge s1 f 0 vs (fun v => below v (th 0 7)) (fun v => !below v (th 0 7 + h)) true false Nat.min
  let s3 := judge s2 f 1 vs (fun v => above v (th 7 7)) (fun v => !above v (th 7 7 - h)) true false Nat.max
  let s4 := judge s3 f 2 vs (fun v => below v (th 14 5)) (fun v => !below v (th 14 5 + h)) false true Nat.min
  let x := feederAt s4 f
  [(10, x.sag), (11, x.swell), (12, x.intr)].foldl (fun s e => putResult s f e.1 0 (b2n e.2.isSome)) s4
/-- A ratio as numerator and denominator. -/
def ratioFrac (r : Nat × Int) : Nat × Nat := scaleBy r.1 1 r.2
/-- The ratio of the voltages of a feeder, or of its currents. -/
def oneRatio (s : State) (f ofs : Nat) : Nat × Nat := ratioFrac (ratioOf (fileReg (blkCfg s 0x0D).inForce 0x0D (0x200 + 0x40 * f + ofs)).toNat)
/-- The square of an RMS value over n samples whose squares sum to sq, in units of 10^-3 primary: numerator and denominator. -/
def meanSquare (s : State) (f ofs sq n : Nat) : Nat × Nat :=
  let r := oneRatio s f ofs
  (sq * r.1 ^ 2 * 10 ^ 6, n * r.2 ^ 2 * 2 ^ 94)
/-- A result of 24 bits saturates. -/
def cap24 : Nat × State → Nat × State
  | (v, s) => (min 0xFFFFFF v, s)
/-- An RMS result in units of 10^k of 10^-3, saturated (R449, R452). -/
def rmsResult (s : State) (f ofs sq n k : Nat) : Nat × State :=
  let m := meanSquare s f ofs sq n
  cap24 (rootFree s m.1 (m.2 * 10 ^ (2 * k)))
/-- Twice the square of each half-cycle voltage in mV, plus 1 where it is not whole. -/
def halfSquares (s : State) (f : Nat) (h : HalfSum) : List Nat :=
  h.sq.map (fun q => let m := meanSquare s f 4 q h.n; 2 * (m.1 / m.2) + b2n (m.1 % m.2 != 0))
/-- The samples of a full line cycle: those of the half cycle that ends and of the one before it. -/
def halfSumAdd (a b : HalfSum) : HalfSum := { n := a.n + b.n, sq := (List.range 3).map (fun i => a.sq.getD i 0 + b.sq.getD i 0) }
/-- HALF_CYCLE_BOUNDARY: the RMS of each voltage over the cycle that ends here is computed and judged (R450, R453). A crossing while the
reference is lost is no boundary: those are timed (R446). Before a full cycle has been sampled there is no result (log 122). -/
def halfCycleBoundary (s : State) (f : Nat) (timed : Bool) : State :=
  let x := feederAt s f
  if !feederOn s f || (x.lost && !timed) then s
  else
    let s0 := setFeeder s f (fun x => { x with half := HalfSum.reset, halfPrev := some x.half })
    match x.halfPrev with
    | none => s0
    | some p =>
      let h := halfSumAdd p x.half
      if h.n = 0 then s0
      else
        let s1 := (List.range 3).foldl (fun s i =>
          let v := rmsResult s f 4 (h.sq.getD i 0) h.n (fdrField s f 0 5 3)
          putResult v.2 f 1 i v.1) s0
        if feederFailed s1 f then s1 else judgeHalf s1 f (halfSquares s1 f h)

/-! ### Line cycles (R446 to R449, R456) -/

/-- The frequency lies within ±15 % of nominal. -/
def nearNominal (s : State) (ns : Nat) : Bool := decide (850 * nominalHz s * ns ≤ 10 ^ 12) && decide (10 ^ 12 ≤ 1150 * nominalHz s * ns)
/-- A frequency that becomes invalid spoils a trim window that counts its cycles (R448). -/
def spoilWindow (s : State) (f : Nat) : State := if trimSource s = 1 ∧ trimFeeder s = f then { s with brk.winOk := false } else s
/-- Frequency becomes valid or invalid. -/
def setFreq (s : State) (f : Nat) (valid : Bool) : State :=
  let x := feederAt s f
  let s1 := setFeeder s f (fun x => { x with freqValid := valid, cycles := if valid then x.cycles + 1 else x.cycles })
  let s2 := if valid then s1 else spoilWindow s1 f
  if x.freqValid && !valid then record s2 0x0D20 [f]
  else if !x.freqValid && valid && decide (x.cycles > 0) then record s2 0x0D21 [f]
  else s2
/-- REFERENCE_LOST. -/
def referenceLost (s : State) (f : Nat) : State :=
  if !feederOn s f || (feederAt s f).lost then s else setFreq (setFeeder s f (fun x => { x with lost := true, good := 0 })) f false
/-! #### The one-bin DFT (R449) -/

/-- π / 2 in units of 2^-60. -/
def halfPi : Nat := 1811004864519280710
/-- Terms of the series of sine and cosine from degree k on, in units of 2^-60. -/
def trigSeries (x2 : Int) : Nat → Nat → Int → Int
  | 0, _, _ => 0
  | n + 1, k, t => t + trigSeries x2 n (k + 2) (-(t * x2 / 2 ^ 60) / ((k + 1) * (k + 2) : Nat))
/-- Cosine and sine of num / den of a turn, in units of 2^-60. -/
def turnOf (num den : Nat) : Int × Int :=
  let x : Int := ((halfPi * (4 * num % den) / den : Nat) : Int)
  let c := trigSeries (x * x / 2 ^ 60) 14 0 (2 ^ 60)
  let n := trigSeries (x * x / 2 ^ 60) 14 1 x
  match 4 * num / den % 4 with
  | 0 => (c, n)
  | 1 => (-n, c)
  | 2 => (-c, -n)
  | _ => (n, -c)
/-- The fundamental of a signal over a cycle of T ns that began at t0: real and imaginary part. -/
def fundamental (t0 period : Nat) (xs : List (Nat × Int)) : Int × Int :=
  xs.foldl (fun a x => let w := turnOf (x.1 - t0) (max 1 period); (a.1 + x.2 * w.1, a.2 - x.2 * w.2)) (0, 0)
/-- A fundamental against another: the first times the conjugate of the second. -/
def against (a b : Int × Int) : Int × Int := (a.1 * b.1 + a.2 * b.2, a.2 * b.1 - a.1 * b.2)
/-- The largest angle below 90°, in 0.001°, at or below that of (x, y) in the first quadrant, from the bits below 2^n on. -/
def angleBits (x y : Int) : Nat → Nat → Nat
  | 0, m => m
  | n + 1, m =>
    let t := m + 2 ^ n
    let w := turnOf t 360000
    if t < 90000 ∧ w.2 * x ≤ y * w.1 then angleBits x y n t else angleBits x y n m
/-- The angle of a vector in 0.001°, from -180,000 to 179,999; that of a zero vector is left open, and so is the rounding (log 12, log 122). -/
def angleOf (s : State) (z : Int × Int) : Int × State :=
  let x := z.1
  let y := z.2
  if x = 0 ∧ y = 0 then let f := freeInt s; (f.1 % 360000 - 180000, f.2)
  else
    let q : Int × Int × Int := if x > 0 ∧ y ≥ 0 then (0, x, y) else if x ≤ 0 ∧ y > 0 then (90000, y, -x) else if x < 0 ∧ y ≤ 0 then (-180000, -x, -y) else (-90000, -y, x)
    let m := angleBits q.2.1 q.2.2 17 0
    if q.2.2 = 0 then (q.1, s)
    else
      let f := freeBool s
      let a := q.1 + m + b2n f.1
      (if a = 180000 then -180000 else a, f.2)

/-! #### Powers (R449) -/

/-- What a line cycle of n samples gives for one phase: the sums of v², i² and v × i, and the fundamentals of both. Means and the scale of
a sample (2^-47 V at the pin) make them primary values: a power is its number × VRATIO × IRATIO / (n × 2^94) W. -/
structure PhaseSum where
  vv : Nat
  ii : Nat
  vi : Int
  fv : Int × Int
  fi : Int × Int
deriving DecidableEq, Repr
/-- The sums over pairs of voltage and current. -/
def phaseSumOf (t0 period : Nat) (xs : List (Nat × Int × Int)) : PhaseSum :=
  { vv := xs.foldl (fun a x => a + x.2.1.natAbs ^ 2) 0, ii := xs.foldl (fun a x => a + x.2.2.natAbs ^ 2) 0
    vi := xs.foldl (fun a x => a + x.2.1 * x.2.2) 0
    fv := fundamental t0 period (xs.map (fun x => (x.1, x.2.1))), fi := fundamental t0 period (xs.map (fun x => (x.1, x.2.2))) }
/-- The sums of a phase, and of the wattmeter of phase C in 3P3W: V(C-B) with I(C). -/
def phaseSum (x : Feeder) (type period i : Nat) : PhaseSum :=
  phaseSumOf x.cycStart period (x.wave.map (fun w => let q := phaseVI type w.2 i; (w.1, q.1, q.2)))
def wattmeterC (x : Feeder) (period : Nat) : PhaseSum :=
  phaseSumOf x.cycStart period (x.wave.map (fun w => (w.1, w.2.getD 2 0, w.2.getD 5 0)))
/-- Twice the square root of n, plus 1 when it is not exact: an exact square stays exact under the rounding of a result. -/
def sqrtTwice (n : Nat) : Nat :=
  let r := isqrt n (n.log2 / 2 + 1) 0
  2 * r + b2n (r * r != n)
/-- The square root of n made odd when it is not exact: twice √(n / 4). -/
def sqrtOdd (n : Nat) : Nat :=
  let r := isqrt n (n.log2 / 2 + 1) 0
  if r * r = n then r else r / 2 * 2 + 1
/-- Power of an element: P, twice Q, twice S; Q is positive when the fundamental current lags the voltage. -/
def elementPower (x : PhaseSum) : Int × Int × Nat :=
  let q := sqrtTwice (x.vv * x.ii - x.vi.natAbs ^ 2)
  (x.vi, (if (against x.fi x.fv).2 < 0 then (q : Int) else -(q : Int)), sqrtTwice (x.vv * x.ii))
/-- P, twice Q, twice S of each phase and in total (R449). In 3P3W the totals are those of the two wattmeters A and C, and S is √(P² + Q²). -/
def cyclePowers (type period : Nat) (x : Feeder) : List (Int × Int × Nat) :=
  let a := elementPower (phaseSum x type period 0)
  if type = 2 then
    let c := elementPower (wattmeterC x period)
    let p := a.1 + c.1
    let q := a.2.1 + c.2.1
    [(0, 0, 0), (0, 0, 0), (0, 0, 0), (p, q, sqrtOdd (4 * p.natAbs ^ 2 + q.natAbs ^ 2))]
  else
    let b := elementPower (phaseSum x type period 1)
    let c := elementPower (phaseSum x type period 2)
    [a, b, c, (a.1 + b.1 + c.1, a.2.1 + b.2.1 + c.2.1, a.2.2 + b.2.2 + c.2.2)]
/-- A signed power of n samples in units of LSB_P, saturated: v / d of its number (R452). -/
def powerResult (s : State) (f : Nat) (v : Int) (d n : Nat) : Nat × State :=
  let r := ratioFrac (ratioIn (blkCfg s 0x0D).inForce f)
  scaledSigned s (v * (r.1 * 1000 : Nat)) (d * n * r.2 * 2 ^ 94 * 10 ^ fdrField s f 0 11 3)
/-- RMS values and angles of a phase. -/
def phaseResults (s : State) (f n i : Nat) (x : PhaseSum) (ref : Int × Int) : State :=
  let v := rmsResult s f 4 x.vv n (fdrField s f 0 5 3)
  let c := rmsResult (putResult v.2 f 0 i v.1) f 8 x.ii n (fdrField s f 0 8 3)
  let av := angleOf (putResult c.2 f 2 i c.1) (against x.fv ref)
  let ai := angleOf (putResult av.2 f 7 i (toTwos 24 av.1)) (against x.fi ref)
  putResult ai.2 f 8 i (toTwos 24 ai.1)
/-- P, Q, S and PF of a phase or of the total. -/
def powerResults (s : State) (f n i : Nat) (e : Int × Int × Nat) : State :=
  let p := powerResult s f e.1 1 n
  let q := powerResult (putResult p.2 f 3 i p.1) f e.2.1 2 n
  let a := powerResult (putResult q.2 f 4 i q.1) f (e.2.2 : Int) 2 n
  let k : Nat × State := if e.2.2 = 0 then (0, putResult a.2 f 5 i a.1) else scaledSigned (putResult a.2 f 5 i a.1) (e.1 * 2000000) e.2.2
  putResult k.2 f 6 i k.1
/-- Results of the cycle, except FREQ; per-phase powers are not offered in 3P3W. -/
def cycleResults (s : State) (f type period : Nat) (x : Feeder) (ps : List (Int × Int × Nat)) : State :=
  let ref := (phaseSum x type period 0).fv
  let s1 := (List.range 3).foldl (fun s i => phaseResults s f x.wave.length i (phaseSum x type period i) ref) s
  ((List.range 4).filter (fun i => type == 1 || i == 3)).foldl (fun s i => powerResults s f x.wave.length i (ps.getD i (0, 0, 0))) s1
/-- Energy added to accumulator a, in units of 2^-16 LSB; a wrap is counted and recorded (0x0D42). -/
def addEnergy (s : State) (f a n : Nat) : State :=
  let x := feederAt s f
  let v := x.acc.toArray.getD a 0 + n
  let w := x.wraps.toArray.getD a 0
  let s1 := setFeeder s f (fun x => { x with acc := x.acc.setIfInBounds a (v % 2 ^ 64), pulseAcc := if a = 0 then x.pulseAcc + n else x.pulseAcc })
  if v < 2 ^ 64 then s1
  else record (setFeeder s1 f (fun x => { x with wraps := x.wraps.setIfInBounds a ((w + 1) % 256) })) 0x0D42 [f, a, (w + 1) % 256]
/-- Twice a signed power adds to its import or its export accumulator. -/
def addSigned (s : State) (f a : Nat) (p2 : Int) (n ns : Nat) : State :=
  let e := energyUnits s p2.natAbs n ns
  addEnergy e.2 f (if p2 < 0 then a + 1 else a) e.1
def cycleEnergy (s : State) (f n ns : Nat) (ps : List (Int × Int × Nat)) : State :=
  let t := ps.getD 3 (0, 0, 0)
  addSigned (addSigned (addSigned s f 0 (2 * t.1) n ns) f 2 t.2.1 n ns) f 4 (t.2.2 : Int) n ns
/-- The line cycle that ends now lay wholly after the start of the tick (R461). -/
def fullCycle (s : State) (ns : Nat) : Bool := match s.tck.begun with | some t => decide (t + ns ≤ s.now) | none => false
/-- The samples of a line cycle are worked on, and the next cycle begins; without a sample there is nothing to compute (log 122). -/
def cycleCompute (s : State) (f ns : Nat) : State :=
  let x := feederAt s f
  let s1 := setFeeder s f (fun x => { x with wave := [], cycStart := s.now })
  if x.wave.isEmpty then s1
  else
    let type := typeOf s f
    let ps := cyclePowers type ns x
    let s2 := cycleResults s1 f type ns x ps
    if feederFailed s2 f || !fullCycle s2 ns then s2 else cycleEnergy s2 f x.wave.length ns ps
/-- LINE_CYCLE_END. A crossing while the reference is lost only helps the reference to return, and at its return a new line cycle begins
(R446, log 122). -/
def lineCycleEnd (s : State) (f : Nat) (m : CycleMeas) : State :=
  let x := feederAt s f
  if !feederOn s f then s
  else if x.lost && !m.timed then
    let n := if nearNominal s m.periodNs then x.good + 1 else 0
    let s1 := setFeeder s f (fun x => { x with good := n, lost := decide (n < 2) })
    if n < 2 then s1 else setFeeder s1 f (fun x => { x with wave := [], cycStart := s.now, half := HalfSum.reset, halfPrev := none })
  else
    let s1 := gainUp (setFeeder s f (fun x => { x with cyc := x.cyc + 1 })) f
    let valid := !m.timed && !x.lost && nearNominal s m.periodNs
    let hz := roundFree s1 (10 ^ 12) m.periodNs
    let s2 := setFreq (setFeeder hz.2 f (fun x => { x with mhz := hz.1 })) f valid
    let s3 := if valid then putResult s2 f 9 0 (min 0xFFFFFF hz.1) else setFeeder s2 f (fun x => { x with pend := smDel x.pend 36 })
    let s4 := cycleCompute s3 f m.periodNs
    let s5 := setFeeder (putResult s4 f 13 0 (b2n (feederAt s4 f).clip)) f (fun x => { x with clip := false })
    putResult s5 f 18 0 (pulsesIn (blkCfg s5 0x0D).inForce f (feederAt s5 f))
/-- RESULT_READY: what the last boundary computed may enter the next cut; events that began latch their triggers (R451, R454, R458). -/
def resultReady (s : State) (f : Nat) : State :=
  let x := feederAt s f
  let s0 := match x.latchPend, x.latchRecv with
    | some _, some old => record s 0x0D44 [f, old.seq]
    | _, _ => s
  let s1 := setFeeder s0 f (fun x => { x with recv := x.pend.foldl (fun m e => smPut m e.1 e.2) x.recv, pend := [], trig := []
                                              latchRecv := match x.latchPend with | some l => some l | none => x.latchRecv, latchPend := none })
  x.trig.foldl (fun s t => latchTrigger (record s (eventCode (t % 4)) [f, t / 4]) (0x400000 + 16 * f + t % 4)) s1

/-- What a feeder offers a point at the cut: failed, and the value. -/
def meterOffer (s : State) (f item phase : Nat) : Bool × Option Word :=
  let x := feederAt s f
  let failed := feederFailed s f || (item == 9 && !x.freqValid)
  let latched (g : Latched → Nat) : Option Word := x.latchRecv.map (fun l => BitVec.ofNat 24 (g l))
  (failed, match item with
    | 14 => latched (fun l => l.acc.getD phase 0)
    | 15 => latched (fun l => l.acc.getD phase 0 / 2 ^ 24)
    | 16 => latched (fun l => l.wraps.getD phase 0)
    | 17 => latched (fun l => l.seq)
    | _ => smGet x.recv (4 * item + phase))
/-- The receiving copies have entered cut n. -/
def meterCutDone (s : State) : State :=
  { s with mtr.feeders := s.mtr.feeders.map (fun x =>
      { x with recv := [], latchRecv := none
               latchCut := match x.latchRecv with | some l => some (l, s.tck.tick) | none => x.latchCut }) }

/-! ### Channels that fail (R445, R455) -/

/-- Events whose beginning has not been recorded yet are dropped with their triggers: a feeder with a failed channel records none (R445, log 123). -/
def dropPendingEvents (x : Feeder) : Feeder :=
  { x.trig.foldl (fun x t => setEvent x (t % 4) none) x with trig := [] }
/-- METER_CHANNEL_FAIL (R445, R455). -/
def meterChannelFail (s : State) (c : Nat) : State :=
  if !ticking s || s.mtr.chFail.getLsbD c then s
  else
    let s1 := record { s with mtr.chFail := s.mtr.chFail ||| (1#24 <<< c) } 0x0D30 [c]
    let s2 := latchTrigger s1 (0x900D00 + c)
    if channelUsed s2 c then endEvents (setFeeder s2 (c / 6) dropPendingEvents) (c / 6) else s2
def meterChannelRecover (s : State) (c : Nat) : State :=
  if s.mtr.chFail.getLsbD c then record { s with mtr.chFail := s.mtr.chFail &&& ~~~(1#24 <<< c) } 0x0D31 [c] else s

/-! ### Latches, captures and slate records (R458 to R462, R481) -/

/-- Payload of an energy record. -/
def energyPayload (acc wraps : List Nat) (seq kind tick : Nat) : List Byte :=
  acc.flatMap (leBytes 6) ++ wraps.flatMap (leBytes 1) ++ leBytes 3 seq ++ leBytes 1 kind ++ leBytes 1 0 ++ leBytes 4 tick
/-- Accumulators without their fraction. -/
def wholeAcc (x : Feeder) : List Nat := x.acc.toList.map (fun v => v / 2 ^ 16)
/-- A save of a feeder's record waits or runs. -/
def saveRuns (s : State) (f : Nat) : Bool :=
  let mine (o : SltOp) : Bool := match o.work with | .record r _ => r == 0x10 + f | _ => false
  s.slt.queue.any mine || (match s.slt.run with | some r => mine r.op | none => false)
/-- ENERGY_LATCH: at the end of the LATCH_N-th line cycle. -/
def energyLatch (s : State) (f : Nat) : State :=
  let x := feederAt s f
  if !feederOn s f || decide (x.cyc < fdrField s f 0 14 16) then s
  else
    let l : Latched := { acc := wholeAcc x, wraps := x.wraps.toList, seq := (x.seq + 1) % 2 ^ 24 }
    let s0 := match x.latchPend with | some old => record s 0x0D44 [f, old.seq] | none => s
    let s1 := setFeeder s0 f (fun x => { x with seq := l.seq, cyc := 0, latchPend := some l })
    if s.pwr.pfw || saveRuns s f then s1
    else slateAsk s1 4 (.record (0x10 + f) (energyPayload l.acc l.wraps l.seq 0 (s.tck.tick.toNat % 2 ^ 32)))
/-- Energies of the sums over n samples and ns, each with its sign. -/
def signedEnergies (s : State) (n ns : Nat) : List Int → List Int × State
  | [] => ([], s)
  | p2 :: rest =>
    let u := energyUnits s p2.natAbs n ns
    let r := signedEnergies u.2 n ns rest
    ((if p2 < 0 then -(u.1 : Int) else (u.1 : Int)) :: r.1, r.2)
/-- The energies of the line cycle in progress up to now, active, reactive, apparent, in units of 2^-16 LSB (R460). -/
def openEnergies (s : State) (f : Nat) : List Int × State :=
  let x := feederAt s f
  if feederFailed s f ∨ x.wave = [] ∨ !fullCycle s (s.now - x.cycStart) then ([0, 0, 0], s)
  else
    let ns := s.now - x.cycStart
    let e := (cyclePowers (typeOf s f) ns x).getD 3 (0, 0, 0)
    signedEnergies s x.wave.length ns [2 * e.1, e.2.1, (e.2.2 : Int)]
/-- The energy payload of a feeder as it stands at PFW: the open line cycle's energies are added (R460). -/
def pfwPayload (s : State) (part : List Int) (f : Nat) : List Byte :=
  let x := feederAt s f
  let sum (a i : Nat) (neg : Bool) : Nat :=
    let p := part.getD i 0
    x.acc.toArray.getD a 0 + (if (decide (p < 0)) == neg then p.natAbs else 0)
  let five (g : Nat → Nat → Bool → Nat) : List Nat := [g 0 0 false, g 1 0 true, g 2 1 false, g 3 1 true, g 4 2 false]
  energyPayload (five (fun a i neg => sum a i neg % 2 ^ 64 / 2 ^ 16)) (five (fun a i neg => (x.wraps.toArray.getD a 0 + sum a i neg / 2 ^ 64) % 256)) x.seq 1
    (s.tck.tick.toNat % 2 ^ 32)
/-- A feeder's capture goes to slate. -/
def captureFeeder (s : State) (f : Nat) : State :=
  if feederOn s f then
    let e := openEnergies s f
    slateAsk e.2 2 (.record (0x10 + f) (pfwPayload s e.1 f))
  else s
/-- PFW_CAPTURE, also after PFW has deasserted (R42): the sample instant brings its samples; accumulators with the energy of the cycle in
progress go to slate at priority 2. -/
def pfwCapture (s : State) (ws : List Word) : State :=
  if s.pwr.pfwAt.isNone || s.mtr.captured || !ticking s then s
  else [0, 1, 2, 3].foldl captureFeeder { sampleInstant s ws with mtr.captured := true }
/-- From PFW on no latch save starts (R460). -/
def dropLatchSaves (s : State) : State :=
  { s with slt.queue := s.slt.queue.filter (fun o => match o.work with | .record r _ => !(decide (0x10 ≤ r) && decide (r ≤ 0x13) && o.pri == 4) | _ => true) }
/-- PFW_RECORDS_COMPLETE: 2 ms after PFW asserted with every rail in its window. -/
def pfwRecordsComplete (s : State) : State :=
  if s.mtr.captured && (match s.pwr.pfwAt with | some t => decide (t + 2000000 ≤ s.now) | none => false) then
    record { s with pwr.pfwAt := none } 0x0D51 [ofBits ([0, 1, 2, 3].filter (feederOn s))]
  else s
/-- BOOT step 5: every enabled feeder restores its energy (R461). -/
def meterBoot (s : State) : State :=
  [0, 1, 2, 3].foldl (fun s f =>
    if !feederOn s f then s
    else
      match recordNow s (0x10 + f) with
      | some d =>
        let src := leAt d 38 1 + 1
        let s1 := setFeeder s f (fun x => { x with acc := Vector.ofFn (fun i => leAt d (6 * i.val) 6 * 2 ^ 16), wraps := Vector.ofFn (fun i => leAt d (30 + i.val) 1)
                                                   seq := leAt d 35 3, restored := BitVec.ofNat 2 src })
        record s1 0x0D50 [f, src, leAt d 35 3]
      | none => record s 0x0D50 [f, 0, (feederAt s f).seq]) (setElsb s)
/-- Accumulators, wraps and pulse register of a feeder cleared (R462). -/
def clearEnergy (s : State) (f : Nat) : State :=
  record (setFeeder s f (fun x => { x with acc := Vector.replicate 5 0, wraps := Vector.replicate 5 0, pulseBase := 0, pulseAcc := 0 })) 0x0D43 [f, 0xFF, 1]
/-- A change of settings applies (R455, R462, R463); the events end under the old U_DIN. -/
def meterBeforeApply (s : State) : State := [0, 1, 2, 3].foldl endEvents s
def meterApply (s : State) (old : RegFile) : State :=
  let new := (blkCfg s 0x0D).inForce
  [0, 1, 2, 3].foldl (fun s f =>
    let at' (c : RegFile) (ofs : Nat) : Dword := fileReg c 0x0D (0x200 + 0x40 * f + ofs)
    let moved := fileField old 0x0D (0x200 + 0x40 * f) 0 2 != fileField new 0x0D (0x200 + 0x40 * f) 0 2 || at' old 4 != at' new 4 || at' old 8 != at' new 8
    let s0 := if (feederAt s f).freqValid then record s 0x0D20 [f] else s
    let s1 := if feederType old f = feederType new f then s
      else setFeeder (spoilWindow s0 f) f (fun x => { x with pend := [], recv := [], latchPend := none, latchRecv := none, lost := false, good := 0
                                                             freqValid := false, cyc := 0, wave := [], cycStart := s.now, half := HalfSum.reset, halfPrev := none })
    let s2 := if moved then clearEnergy s1 f else s1
    if at' old 0x14 = at' new 0x14 ∨ moved then s2
    else setFeeder s2 f (fun x => { x with pulseBase := pulsesIn old f x, pulseAcc := 0 })) (setElsb s)
/-- MTR_ENERGY_PRESET applies. -/
def presetApply (s : State) (f a value wraps : Nat) : State :=
  let hit (i : Nat) : Bool := a == 0xFF || a == i
  record (setFeeder s f (fun x => { x with acc := Vector.ofFn (fun i => if hit i.val then value * 2 ^ 16 else x.acc.get i)
                                           wraps := Vector.ofFn (fun i => if hit i.val then wraps else x.wraps.get i) })) 0x0D43 [f, a, 0]

/-! ### Consistency checks (R464) -/

/-- A ratio from 10^-3 to 10^7. -/
def ratioOk (v : Nat) : Bool :=
  match fdecode f32 v with
  | .fin false m e =>
    let x := scaleBy m 1 e
    decide (1000 * x.1 ≥ x.2) && decide (x.1 ≤ 10 ^ 7 * x.2)
  | _ => false
def threshBad (t : Nat) : Bool :=
  let sag := field t 0 7
  let swell := field t 7 7
  let intr := field t 14 5
  let h := field t 19 4
  decide (sag < 50) || decide (sag > 99) || decide (swell < 101) || decide (intr < 1) || decide (intr > 20) || decide (h < 1) || decide (h > 10) ||
  decide (intr + h ≥ sag)
/-- The first reason of block 0x0D that a copy fails with. -/
def meterCheck (s : State) (c : RegFile) : Option Nat :=
  let fs := [0, 1, 2, 3]
  let r (f ofs : Nat) : Nat := (fileReg c 0x0D (0x200 + 0x40 * f + ofs)).toNat
  let now := (blkCfg s 0x0D).inForce
  firstReason [
    (fs.any (fun f => field (r f 0) 0 2 == 3 || field (r f 0) 3 2 == 3), 0x0D01),
    (fs.any (fun f => !ratioOk (r f 4) || !ratioOk (r f 8)), 0x0D02),
    (fs.any (fun f => field (r f 0xC) 0 24 == 0 || threshBad (r f 0x10)), 0x0D03),
    (fs.any (fun f => field (r f 0) 14 16 == 0), 0x0D04),
    ((guardedPoints s).any (fun p => match p.source with
      | .meter f item phase => meterOffers (feederType now f) item phase && !meterOffers (feederType c f) item phase
      | _ => false), 0x0D05),
    (fs.any (fun f => field (r f 0) 5 3 == 7 || field (r f 0) 8 3 == 7), 0x0D06),
    (trimSource s == 1 && feederType c (trimFeeder s) == 0, 0x0A02)]

/-! ### Commands (R465) -/

def doMtrEnergyGet (d : List Byte) (w : Who) (s : State) : State :=
  let f := leAt d 0 1
  refuseShape s w d [(inBoot s, 0x0103)] (fun s =>
    if f > 3 then respondFree s w
    else
      let l := (feederAt s f).latchCut.getD ({ acc := List.replicate 5 0, wraps := List.replicate 5 0, seq := 0 }, 0#64)
      respond s w 0 (l.1.acc.flatMap (leBytes 6) ++ l.1.wraps.flatMap (leBytes 1) ++ leBytes 3 l.1.seq ++ leBytes 4 (elsb s f) ++ leBytes 8 l.2.toNat))
/-- The preset that a payload names. -/
def doMtrEnergyPreset (d : List Byte) (w : Who) (s : State) : State :=
  startOpCheck s w 0x0D (.preset w (leAt d 0 1) (leAt d 1 1) (leAt d 2 6) (leAt d 8 1))
/-- The reason a preset fails its check with. -/
def presetWrong (s : State) (f a : Nat) : Option Nat := if f > 3 ∨ !feederOn s f ∨ (a > 4 ∧ a ≠ 0xFF) then some 0x0D07 else none

def execLineCycleEnd (f : Fin 4) (m : CycleMeas) (s : State) : Host.Outcome State Fault Refusal := .next (lineCycleEnd s f.val m)
def execHalfCycleBoundary (f : Fin 4) (timed : Bool) (s : State) : Host.Outcome State Fault Refusal := .next (halfCycleBoundary s f.val timed)
def execReferenceLost (f : Fin 4) (s : State) : Host.Outcome State Fault Refusal := .next (referenceLost s f.val)
def execResultReady (f : Fin 4) (s : State) : Host.Outcome State Fault Refusal := .next (resultReady s f.val)
def execEnergyLatch (f : Fin 4) (s : State) : Host.Outcome State Fault Refusal := .next (energyLatch s f.val)
def execMeterChannelFail (c : Fin 24) (s : State) : Host.Outcome State Fault Refusal := .next (meterChannelFail s c.val)
def execMeterChannelRecover (c : Fin 24) (s : State) : Host.Outcome State Fault Refusal := .next (meterChannelRecover s c.val)
def execMtrEnergyGet (r : Req) (s : State) : Host.Outcome State Fault Refusal := .next (command s r 0x0D01 (fun q => doMtrEnergyGet q.payload))
def execMtrEnergyPreset (r : Req) (s : State) : Host.Outcome State Fault Refusal := .next (command s r 0x0D02 (fun q => doMtrEnergyPreset q.payload))
def execSampleInstant (samples : List Word) (s : State) : Host.Outcome State Fault Refusal := .next (sampleInstant s samples)
def execPfwCapture (samples : List Word) (s : State) : Host.Outcome State Fault Refusal := .next (pfwCapture s samples)
def execPfwRecordsComplete (s : State) : Host.Outcome State Fault Refusal := .next (pfwRecordsComplete s)

end Sys2Proof.Machine
end

