-- ==== Sys2Proof/Machine/Resets.lean ====
section
/-! DEFINITION. Resets: what they keep, the rows that make one, the loss of the rails, the reset of a host port, and the slate operations that can end in a reset (R25, R36, R37, R63, R470, R530). -/
namespace Sys2Proof.Machine
open Sys2Proof

/-- A configuration block after a reset, with the fields that it keeps. -/
def keptBlk (f : RegFile) : BlkCfg := { BlkCfg.reset with inForce := f, stage := f, written := f }
/-- The kept fields of block 0x05, from slate record 4 (R480). -/
def keptLoader (s : State) : RegFile :=
  match recordNow s 4 with
  | some d => fileSet [] 0x05 0x100 (BitVec.ofNat 32 (leAt d 0 1 % 4))
  | none => []
/-- The kept fields of block 0x08, from slate record 3 (R480). -/
def keptPair (s : State) : RegFile :=
  match recordNow s 3 with
  | some d => fileSet [] 0x08 0x100 (maskWrite (regReset 0x08 0x100) (BitVec.ofNat 32 (leAt d 0 4)) 0xFFFF0003#32)
  | none => []
/-- The claim that slate record 2 holds; 0 when it is absent (R479). -/
def claimStored (s : State) : BitVec 24 := BitVec.ofNat 24 (match recordNow s 2 with | some d => leAt d 0 3 | none => 0)
/-- Configuration after a reset: only the fields that the bedrock domain and slate memory keep (R7, R380, R480). -/
def cfgReset (s : State) : Vector BlkCfg 20 :=
  (((Vector.replicate 20 BlkCfg.reset).setIfInBounds 0x0A (keptBlk (blkCfg s 0x0A).inForce)).setIfInBounds 0x05 (keptBlk (keptLoader s))).setIfInBounds
    0x08 (keptBlk (keptPair s))
/-- The end of the expert access that a port holds, as the boot buffer of the reset that ends it reports it (R66, R494; log 87). -/
def expertEnd (s : State) (p : Port) : List BootReport :=
  let x := (portSt s p).expert
  if x = 0#20 then [] else [{ code := 0x0121#16, fault := false, params := [portNo p, x.toNat], var := none, sec := s.ntm.sec, nsq := stampNow s }]
def expertVector (s : State) (p : Port) : State := if (portSt s p).expert = 0#20 then s else raiseVector s p 4
/-- Everything that a reset brings to its reset value; the bedrock domain, slate memory and store flash stay, and with slate memory the
fields that read from it until BOOT step 5 (R7, R36). A slate operation that runs is cut (R469); ends of expert access raise vector 4 (R66). -/
def coldState (s : State) (t : Tck) : State :=
  let c := cutSlate (expertVector (expertVector s .a) .b)
  { State.reset with
    pending := c.pending, tx := c.tx, free := c.free, now := c.now
    tck := t
    pwr := { Pwr.reset with pfw := c.pwr.pfw }
    host := { HostSt.reset with a := { PortState.reset with perst := s.host.a.perst }, b := { PortState.reset with perst := s.host.b.perst } }
    cfg := cfgReset c
    slt := { Slt.reset with mem := c.slt.mem, ecc := c.slt.ecc, sel := c.slt.sel, heads := c.slt.heads }
    cry := { Cry.reset with stored := claimStored c }
    lch := { Lch.reset with mvAt := Vector.replicate 4 c.now }
    recd := { RecSt.reset with archive := c.recd.archive, bootBuf := expertEnd s .a ++ expertEnd s .b, tailNext := c.recd.tailNext, tailPass := c.recd.tailPass }
    ldr := { Ldr.reset with a := { BankSt.reset with stored := c.ldr.a.stored }, b := { BankSt.reset with stored := c.ldr.b.stored } }
    brk := { c.brk with cdWritten := false, pwronOps := [], winOk := false, followDue := false, backupLow := false, backupMv := 0#12, handedShown := false }
    wdt := { Wdt.reset with since := c.now }
    fwu := { c.fwu with card := none, running := none, trial := false, staging := none, noSlot := false } }
/-- A reset of R36: BOOT begins, with its cause and the mode it ended; the change of mode raises vector 2 of each port (R54). -/
def coldReset (s : State) (cause : Nat) (joining : Bool) : State :=
  coldState (raiseBoth s 2) { Tck.reset with cause := BitVec.ofNat 4 cause, prevMode := BitVec.ofNat 3 (modeNo s.tck.mode), joining := joining }
/-- A reset that comes from outside; in DORMANT there is nothing to reset. -/
def resetUnless (s : State) (cause : Nat) : State := if s.tck.mode = .dormant then s else coldReset s cause false

/-- POWER_ON: the rails come good. -/
def powerOn (s : State) : State := if s.tck.mode = .dormant then coldReset s 1 false else s
/-- RAIL_LOSS: the part is DORMANT at once. -/
def railLoss (s : State) : State :=
  if s.tck.mode = .dormant then s
  else
    let s1 := coldState s { Tck.reset with mode := .dormant, cause := s.tck.cause }
    { s1 with pwr := Pwr.reset }

/-- RESET, after its answer; an active unit signals it (R334). -/
def doReset (w : Who) (s : State) : State :=
  refuseOr s w (modeRefusals s true) (fun s => coldReset (pairFault (respond s w 0 []) 0 3) 3 false)
/-- JOIN. -/
def doJoin (w : Who) (s : State) : State :=
  refuseOr s w (modeRefusals s (s.tck.mode == .stop && isPair s)) (fun s => coldReset (pairFault (respond s w 0 []) 0 3) 3 true)

/-! ### Expert access and the port reset (R63, R66, R74) -/

/-- The stage copy reloaded as by a DISCARD. -/
def reloadStage (s : State) (b : Nat) : State :=
  setBlk s b (fun c =>
    match c.check, c.pend with
    | some k, _ => { c with check := some { k with discard := true } }
    | none, some p => { c with stage := p.copy }
    | none, none => { c with stage := c.inForce })
/-- Expert access of a port to the blocks of a mask ends; recorded when it ended for any. -/
def endExpert (s : State) (p : Port) (mask : BitVec 20) : State :=
  let gone := (portSt s p).expert &&& mask
  if gone = 0#20 then s
  else
    let s1 := setPort s p (fun q => { q with expert := q.expert &&& ~~~gone })
    let s2 := (bitsSet 20 gone.toNat).foldl reloadStage s1
    record s2 0x0121 [portNo p, gone.toNat]
/-- Semaphores owned by a port are free. -/
def dropSems (s : State) (p : Port) : State :=
  { s with host.sems := s.host.sems.map (fun o => match o with | some x => if x.port = p then none else some x | none => none) }
/-- The reset of a port: its own state; commands not started are dropped, responses due are discarded. -/
def portReset (s : State) (p : Port) : State :=
  if s.tck.mode = .dormant then s
  else
    let q := portSt s p
    let due := (q.slots.toList.filter (fun x => x.busy.isSome)).length
    let s1 := if q.expert = 0#20 then s else endExpert (raiseVector s p 4) p (~~~0#20)
    let s2 := dropSems s1 p
    let s3 := setPort s2 p (fun q => { PortState.reset with slots := q.slots.map (fun x => { x with busy := none }), perst := q.perst })
    raiseCursor (record (examine s3 (s3.host.queue.filter (fun e => e.port != p))) 0x0122 [due]) p

/-- PORT_RESET: a hot reset, or a low level of PERST, whose reset stays in effect until the level is high again (R551). -/
def portResets (s : State) (r : PortReset) : State :=
  match r.perst with
  | none => portReset s r.port
  | some low => setPort (if low then portReset s r.port else s) r.port (fun q => { q with perst := low })

/-! ### Slate operations that can end in a reset -/

/-- The write that runs is the pointer write of FWU_ACTIVATE, or of a unit that has staged a package in BOOT: the part resets after it
(R530, R536). -/
def endsInReset (s : State) : Bool :=
  match s.slt.run with
  | some r =>
    (match r.op.work with | .record n _ => n == 1 | _ => false) &&
    (s.fwu.noSlot || (match r.op.who with | some w => w.code == 0x1103#16 | none => false))
  | none => false
/-- SLATE_OP_START, and the reset where what it waits for ends in one. -/
def slateOpStart (s : State) : State :=
  let t := startNextOp s
  if endsInReset s && t.slt.run.map (fun r => r.op) != s.slt.run.map (fun r => r.op) then coldReset (finishAll s) 7 false else t
/-- As time passes, operations whose time is over end. -/
def slatePass (s : State) : State :=
  let t := finishDue s
  if endsInReset s && t.slt.run.isNone then coldReset t 7 false else t

def execPowerOn (s : State) : Host.Outcome State Fault Refusal := .next (powerOn s)
def execRailLoss (s : State) : Host.Outcome State Fault Refusal := .next (railLoss s)
def execResetNPin (s : State) : Host.Outcome State Fault Refusal := .next (resetUnless s 2)
def execUndervoltageReset (s : State) : Host.Outcome State Fault Refusal := .next (resetUnless s 5)
def execLockstepMismatch (s : State) : Host.Outcome State Fault Refusal := .next (resetUnless s 6)
def execReset (r : Req) (s : State) : Host.Outcome State Fault Refusal := .next (command s r 0x0206 (fun _ => doReset))
def execJoin (r : Req) (s : State) : Host.Outcome State Fault Refusal := .next (command s r 0x0207 (fun _ => doJoin))
def execPortReset (p : PortReset) (s : State) : Host.Outcome State Fault Refusal := .next (portResets s p)
def execSlateOpStart (s : State) : Host.Outcome State Fault Refusal := .next (slateOpStart s)

end Sys2Proof.Machine
end

