-- ==== Sys2Proof/Machine/Watchdog.lean ====
section
/-! DEFINITION. The watchdog: count, services, registered tally bits, expiry, evidence, commands (R506 to R520). -/
namespace Sys2Proof.Machine
open Sys2Proof

/-- Settings in force (R507): T in µs, OPEN, SOURCE. -/
def wdtT (s : State) : Nat := 1000 * cfgField s 0x10 0x100 0 14
def wdtOpen (s : State) : Nat := cfgField s 0x10 0x104 0 24
def wdtSource (s : State) : Nat := cfgField s 0x10 0x100 14 1
/-- The count c: whole µs since it was last 0 (R506). -/
def wdtCount (s : State) : Nat := (s.now - s.wdt.since) / 1000
/-- A host services (R510). -/
def hostServices (s : State) : Bool := wdtSource s == 1 && (s.tck.mode == .stop || s.tck.mode == .run || s.tck.mode == .hold)
/-- Registered bits that have not checked in. -/
def missingBits (s : State) : BitVec 32 := s.wdt.reg &&& ~~~s.wdt.set
/-- The count restarts. -/
def wdtRestart (s : State) : State := { s with wdt.since := s.now, wdt.set := 0#32 }

/-- The registered set is made anew at an edge (R511). -/
def wdtRegister (s : State) : State :=
  match s.tck.mode, bankInForce s with
  | .run, some b =>
    let tasks := b.tasks.filter (fun t => t.kind == 0 && decide (t.tally < 32))
    let fits (t : Task) : Bool := decide (t.period * periodNs s + 100000 ≤ 1000 * wdtT s)
    let s1 := { s with wdt.reg := BitVec.ofNat 32 (ofBits ((tasks.filter fits).map (fun t => t.tally))) }
    (tasks.filter (fun t => !fits t)).foldl (fun s t => record s 0x1012 [t.id, t.tally]) s1
  | _, _ => { s with wdt.reg := 0#32 }

/-! ### Evidence (R515 to R518) -/

def evidenceBody (e : List Byte) : List Byte := e.take 252
/-- The block is valid (R516). -/
def evidenceValid (e : List Byte) : Bool := leAt e 0 4 == 0x57444556 && leAt e 252 4 == crc32 (evidenceBody e)
/-- The code address of the bundle that a rod has in issue or issues next: of a rod that waits for a segment, its entry (R515). -/
def rodPc (s : State) (rod : Nat) : Nat :=
  let r := rodAt s rod
  match (if r.run = .waiting then bankInForce s else none) with
  | none => r.pc
  | some b => (((nextSeg s b rod r.pos).bind (fun i => (smGetD b.scheds rod [])[i]?)).map (fun g => g.entry)).getD r.pc
/-- The block that a capture writes; the program counter of the supervisor cores is a free value. -/
def evidenceOf (s : State) (kind pc : Nat) : List Byte :=
  let old := s.brk.evidence
  let n := if evidenceValid old then min 255 (leAt old 7 1 + 1) else 1
  let w := s.wdt
  let rods := (List.range 48).flatMap (fun r => leBytes 2 (rodPc s r % 2 ^ 15 + 2 ^ 15 * b2n ((rodAt s r).run != .done)))
  let body := leBytes 4 0x57444556 ++ leBytes 1 kind ++ leBytes 1 (modeNo s.tck.mode) ++ leBytes 1 (wdtSource s + 2 * b2n w.serviced) ++ leBytes 1 n ++
    leBytes 4 pc ++ leBytes 4 w.reg.toNat ++ leBytes 4 w.set.toNat ++ leBytes 4 (wdtCount s) ++ leBytes 8 s.tck.tick.toNat ++
    leBytes 8 w.svcTick.toNat ++ leBytes 6 w.svcSec ++ leBytes 2 0 ++ leBytes 4 w.svcNsq.toNat ++ leBytes 6 s.ntm.sec ++ leBytes 2 0 ++
    leBytes 4 (stampNow s).toNat ++ rods ++ List.replicate 92 0#8
  body ++ leBytes 4 (crc32 body)
/-- Expiry, an early service or a bad key: capture, then a reset with cause 4 (R513). -/
def wdtExpire (s : State) (kind : Nat) : State :=
  let f := freeNat s
  let s1 := if s.brk.inReset then s else { f.2 with brk.evidence := evidenceOf s kind f.1 }
  coldReset s1 4 false
/-- BOOT step 5 after a watchdog reset (R517). -/
def wdtBoot (s : State) : State :=
  let e := s.brk.evidence
  if s.tck.cause ≠ 4#4 then s
  else if evidenceValid e then
    let missing := BitVec.toNat (BitVec.ofNat 32 (leAt e 12 4) &&& ~~~BitVec.ofNat 32 (leAt e 16 4))
    record s 0x1026 [leAt e 4 1 + 2 ^ 8 * leAt e 7 1 + 2 ^ 16 * leAt e 5 1, missing % 2 ^ 24, missing / 2 ^ 24, leAt e 24 3]
  else record s 0x1028 []

/-! ### Services (R509, R510) -/

/-- A service that is accepted. -/
def wdtAccept (s : State) : State :=
  wdtRestart { s with wdt.serviced := true, wdt.svcTick := s.tck.tick, wdt.svcSec := s.ntm.sec, wdt.svcNsq := stampNow s }
/-- A key judged at the count at which it arrives. -/
def wdtJudge (s : State) (key : Nat) : State :=
  let c := wdtCount s
  if key ≠ 0x5AC3 then wdtExpire s 2
  else if c < wdtOpen s then wdtExpire s 1
  else if c ≥ wdtT s then wdtExpire s 0
  else if missingBits s = 0#32 then wdtAccept s
  else
    let m := (missingBits s).toNat
    record { s with wdt.refused := satAdd s.wdt.refused 1 } 0x1010 [m % 2 ^ 24, m / 2 ^ 24, c]
/-- A block-window write that a port may not make (R67, R68): discarded and counted. -/
def writeDenied (s : State) (p : Port) (b : Nat) : Bool := inBootOrShadow s || !expertHeld s p b
def countDenied (s : State) (p : Port) : State := setPort s p (fun q => { q with deniedWrite := satAdd q.deniedWrite 1 })
/-- WDT_SERVICE_WRITE. -/
def wdtServiceWrite (s : State) (p : Port) (v : Dword) : State :=
  access s p (fun s =>
    if writeDenied s p 0x10 then countDenied s p
    else if hostServices s then wdtJudge s (field v.toNat 0 16)
    else s)
/-- SUPERVISOR_SERVICE: only when the window is open and every registered bit is set. -/
def supervisorService (s : State) : State :=
  if s.tck.mode = .dormant ∨ hostServices s ∨ wdtCount s < wdtOpen s ∨ wdtCount s ≥ wdtT s ∨ missingBits s ≠ 0#32 then s else wdtAccept s
/-- WATCHDOG_EXPIRY. -/
def watchdogExpiry (s : State) : State := if s.tck.mode = .dormant ∨ wdtCount s < wdtT s then s else wdtExpire s 0

/-! ### Settings (R507, R508) -/

def wdtSettings (f : RegFile) : Nat × Nat × Nat := (fileField f 0x10 0x100 0 14, fileField f 0x10 0x104 0 24, fileField f 0x10 0x100 14 1)
/-- The first reason of block 0x10 that a copy fails with. -/
def wdtCheck (s : State) (f : RegFile) : Option Nat :=
  let x := wdtSettings f
  firstReason [
    (x.1 == 0 || decide (x.1 > 10000), 0x1001),
    (x.2.1 == 0 || decide (x.2.1 + 500 > 1000 * x.1), 0x1002),
    (s.wdt.locked && x != wdtSettings (blkCfg s 0x10).inForce, 0x1003)]
/-- A check of block 0x10 has passed: the first one sets LOCKED. -/
def wdtPassed (s : State) : State := if s.wdt.locked then s else { s with wdt.locked := true, wdt.first := true }
/-- The apply edge: the count restarts for the change that set LOCKED, and for one that changes a setting. -/
def wdtApply (s : State) (old : RegFile) : State :=
  let x := wdtSettings (blkCfg s 0x10).inForce
  if s.wdt.first ∨ x ≠ wdtSettings old then
    record (wdtRestart { s with wdt.first := false }) 0x1014 [x.1, x.2.1, x.2.2]
  else s

/-! ### Commands (R518, R520) -/

def doWdtEvidenceGet (d : List Byte) (w : Who) (s : State) : State :=
  refuseShape s w d [(inBoot s, 0x0103)] (fun s => respond s w 0 (s.brk.evidence ++ leBytes 1 (b2n (evidenceValid s.brk.evidence))))
def doWdtEvidenceClear (carried : Bool) (d : List Byte) (w : Who) (s : State) : State :=
  let e := s.brk.evidence
  refuseOr s w [(inBoot s, 0x0103), (d.length != 8, 0x1005), (!(evidenceValid e && leAt e 24 8 == leAt d 0 8), 0x1004)] (fun s =>
    forward carried { s with wdt.clear := s.wdt.clear ++ [w] } (nextEdge s) 0x1002 d)
/-- The edge of WDT_EVIDENCE_CLEAR. -/
def wdtClearEdge (s : State) : State :=
  s.wdt.clear.foldl (fun s w =>
    let e := s.brk.evidence
    if evidenceValid e then
      respond (record { s with brk.evidence := List.replicate 256 0#8 } 0x1027 [leAt e 24 3]) w 0 []
    else respond s w 0x1004 []) { s with wdt.clear := [] }

def execWdtServiceWrite (p : Port) (v : Dword) (s : State) : Host.Outcome State Fault Refusal := .next (wdtServiceWrite s p v)
def execSupervisorService (s : State) : Host.Outcome State Fault Refusal := .next (supervisorService s)
def execWatchdogExpiry (s : State) : Host.Outcome State Fault Refusal := .next (watchdogExpiry s)
def execWdtEvidenceGet (r : Req) (s : State) : Host.Outcome State Fault Refusal := .next (command s r 0x1001 (fun q => doWdtEvidenceGet q.payload))
def execWdtEvidenceClear (r : Req) (s : State) : Host.Outcome State Fault Refusal := .next (command s r 0x1002 (fun q => doWdtEvidenceClear false q.payload))

end Sys2Proof.Machine
end

