-- ==== Sys2Proof/Machine/Firmware.lean ====
section
/-! DEFINITION. Firmware update: packages, staging, the slot pointer, activation, confirmation, stored settings, commands (R521 to R539). -/
namespace Sys2Proof.Machine
open Sys2Proof

/-! ### Packages (R522 to R526) -/

/-- The name ends in ".QFW", in any case, and has at most 128 bytes. -/
def qfwName (n : List Byte) : Bool :=
  let t := (n.drop (n.length - 4)).map (fun b => b.toNat)
  decide (n.length ≤ 128) && decide (n.length ≥ 4) && t.getD 0 0 == 0x2E && (t.getD 1 0 == 0x51 || t.getD 1 0 == 0x71) &&
  (t.getD 2 0 == 0x46 || t.getD 2 0 == 0x66) && (t.getD 3 0 == 0x57 || t.getD 3 0 == 0x77)
def pkgLength (p : List Byte) : Nat := leAt p 8 4
def pkgVersion (p : List Byte) : Nat := leAt p 12 4
def pkgCarryVer (p : List Byte) : Nat := leAt p 16 1
def pkgSettingsVer (p : List Byte) : Nat := leAt p 18 2
/-- Settings formats that a package converts from. -/
def pkgConvert (p : List Byte) : List Nat := (List.range (min 16 (leAt p 30 2))).map (fun i => leAt p (32 + 2 * i) 2)
/-- Manifest entry i: ID, VERSION, OFFSET, LENGTH. -/
def manifest (p : List Byte) (i : Nat) : Nat × Nat × Nat × Nat :=
  let o := 64 + 64 * i
  (leAt p o 2, leAt p (o + 4) 4, leAt p (o + 8) 4, leAt p (o + 12) 4)
def manifestEntries (p : List Byte) : List (Nat × Nat × Nat × Nat) := (List.range 6).map (manifest p)
/-- VERSION of the bedrock controller code of a package. -/
def pkgBedrock (p : List Byte) : Nat := match (manifestEntries p).find? (fun e => e.1 == 6) with | some e => e.2.1 | none => 0
def headerWrongFw (p : List Byte) : Bool :=
  leAt p 0 4 != 0x51574650 || leAt p 6 2 != 1 || leAt p 28 2 != 6 || decide (leAt p 30 2 > 16) ||
  leAt p (32 + 2 * leAt p 30 2) (32 - 2 * leAt p 30 2) != 0 || (leAt p 17 1 == 0 && leAt p 20 8 != 0) ||
  pkgLength p != p.length || decide (p.length > 134217728)
/-- The key hashes to the fused value, and the signature verifies (R525). -/
def signatureOk (p : List Byte) : Bool :=
  let sig := p.drop (p.length - 192)
  let n (i : Nat) : Nat := beNat (slice sig (48 * i) 48)
  decide (p.length ≥ 192) && sha384 (sig.take 96) == Config.fusedKeyHash && ecdsaVerify (n 0) (n 1) (n 2) (n 3) (sha384 (p.take (p.length - 192)))
def manifestWrong (p : List Byte) : Bool :=
  let es := manifestEntries p
  es.any (fun e => e.1 == 0 || decide (e.1 > 6) || decide (e.2.2.1 < 448) || decide (e.2.2.1 + e.2.2.2 > p.length - 192)) ||
  (List.range 6).any (fun i => leAt p (66 + 64 * i) 2 != 0) || (es.map (fun e => e.1)).eraseDups.length != 6 ||
  anyPair (fun a b => decide (a.2.2.1 < b.2.2.1 + b.2.2.2) && decide (b.2.2.1 < a.2.2.1 + a.2.2.2)) es
def hashesWrong (p : List Byte) : Bool :=
  (List.range 6).any (fun i => let e := manifest p i; sha384 (slice p e.2.2.1 e.2.2.2) != slice p (80 + 64 * i) 48)
/-- The first check of R526 that a package fails; BOOT leaves the serial check out (R531). -/
def pkgReject (serialToo : Bool) (p : List Byte) : Option Nat :=
  firstReason [(headerWrongFw p, 0x1103), (leAt p 4 2 != 0x4824, 0x1104), (!signatureOk p, 0x1106),
    (serialToo && leAt p 17 1 != 0 && leAt p 20 8 != Config.serial.toNat, 0x1105), (manifestWrong p, 0x1107), (hashesWrong p, 0x1107)]

/-! ### The slot pointer (R529) -/

def slotOf (s : State) (n : Nat) : FwSlot := if n = 0 then s.fwu.slot0 else s.fwu.slot1
def setSlot (s : State) (n : Nat) (f : FwSlot → FwSlot) : State :=
  if n = 0 then { s with fwu.slot0 := f s.fwu.slot0 } else { s with fwu.slot1 := f s.fwu.slot1 }
def runningSlot (s : State) : Nat := s.fwu.running.getD 0
def otherSlot (s : State) : Nat := 1 - runningSlot s
def pointerBytes (slot state tries fallback version last failed detail : Nat) : List Byte :=
  leBytes 1 slot ++ leBytes 1 state ++ leBytes 1 tries ++ leBytes 1 fallback ++ leBytes 4 version ++ leBytes 2 last ++ leBytes 4 failed ++ leBytes 2 detail
/-- A pointer write of BOOT begins. -/
def beginPointer (s : State) (payload : List Byte) : SltRun × State := beginOp (finishAll s) { pri := 3, work := .record 1 payload, who := none, edge := 0#64 }
/-- Pointer writes of BOOT, one after the other. One that a reset or a loss of power cuts has the given number of words written, and ends
this BOOT (R469); the first component tells whether none was cut. -/
def writePointers : State → List (List Byte) → Option (Nat × Nat) → Bool × State
  | s, [], _ => (true, s)
  | s, p :: rest, cut =>
    let x := beginPointer s p
    match cut with
    | some (0, n) => (false, { (x.1.words.take n).foldl putWord x.2 with tck.bootCut := true })
    | some (k + 1, n) => writePointers (finishRun x.2 x.1) rest (some (k, n))
    | none => writePointers (finishRun x.2 x.1) rest none

/-! ### Stored settings (R533 to R535) -/

/-- The settings in force, as the running firmware stores them; kept fields are not among them. -/
def settingsNow (s : State) : Settings :=
  let blocks := [0x02, 0x03, 0x04, 0x06, 0x07, 0x08, 0x09, 0x0B, 0x0C, 0x0D, 0x0E, 0x0F, 0x10, 0x11, 0x12, 0x13]
  let fileOf (b : Nat) : RegFile := if b = 0x08 then (blkCfg s b).inForce.map (fun e => (e.1, e.2 &&& liveMask b e.1)) else (blkCfg s b).inForce
  { format := pkgSettingsVer (slotOf s (runningSlot s)).package
    regs := blocks.foldl (fun m b => smPut m b (fileOf b)) []
    tables := (List.range 24).foldl (fun m k => smPut m k (linkAt s k).table) [] }
/-- The running firmware saves committed changes to the copy of its own slot; one on trial does not. -/
def saveSettings (s : State) : State :=
  match s.fwu.running with
  | some n => if s.fwu.trial then s else setSlot s n (fun x => { x with settings := some (settingsNow s) })
  | none => s
/-- Confirmation: settings, then pointer (R535). -/
def confirmTrial (s : State) : State :=
  let n := runningSlot s
  let v := pkgVersion (slotOf s n).package
  let s1 := setSlot { s with fwu.trial := false } n (fun x => { x with settings := some (settingsNow s) })
  let p := pointerNow s1
  record (slateAsk s1 3 (.record 1 (pointerBytes n 0 0 (leAt p 3 1) v (leAt p 8 2) (leAt p 10 4) (leAt p 14 2)))) 0x1123 [v % 2 ^ 24]
/-- CONFIRM_S seconds, unless it is 0, have passed since the first tick edge of the trial boot, counted in tick periods (R535). -/
def trialOver (s : State) : Bool :=
  let n := cfgField s 0x11 0x100 0 12
  n != 0 && decide (1000000000 * n ≤ s.tck.elapsed)
/-- TRIAL_CONFIRM_TIMEOUT. -/
def trialConfirmTimeout (s : State) : State := if s.fwu.trial && ticking s && trialOver s then confirmTrial s else s

/-! ### The card and staging (R521, R522, R527, R528) -/

/-- Package files of the card in directory order; none without a usable card. -/
def cardFiles (s : State) : Option (List CardFile) :=
  match s.fwu.card with
  | some c => if c.supported then some (c.files.filter (fun f => qfwName f.name)) else none
  | none => none
/-- Staging is abandoned: the command fails, with the cause as its parameter (R528, R539; log 97). -/
def abandonStaging (s : State) (cause : Nat) : State :=
  match s.fwu.staging with
  | none => s
  | some g => respondOpt { s with fwu.staging := none } g.who 0x110A s.tck.tick (leBytes 1 cause)
/-- SD_CARD_DETECT. -/
def sdCardDetect (s : State) (card : Option Card) : State :=
  if s.tck.mode = .dormant then s else { abandonStaging s 0 with fwu.card := card }
/-- A variable record (R492). -/
def recordVar (s : State) (code : Nat) (d : List Byte) : State := reportVar s (BitVec.ofNat 16 code) false [] (some d)
/-- The header and the manifest without hashes. -/
def stagedInfo (p : List Byte) : List Byte := p.take 64 ++ (List.range 6).flatMap (fun i => slice p (64 + 64 * i) 16)
/-- Staging has written a slot and read it back: the command is answered; a unit without a slot that runs writes the pointer, and resets when
that write is complete (R527, R536). -/
def staged (s : State) (g : Staging) : State :=
  let s1 := setSlot s g.slot (fun x => { x with valid := true, fails := false, package := g.package })
  if s.fwu.noSlot then
    let x := beginPointer s1 (pointerBytes g.slot 0 0 0 (pkgVersion g.package) 0 0 0)
    { x.2 with slt.run := some x.1 }
  else respondOpt (recordVar s1 0x1120 (stagedInfo g.package)) g.who 0 s1.tck.tick []
/-- STAGING_END: the read-back of the slot ends, or the card cannot be read. -/
def stagingEnd (s : State) (res : StagingResult) : State :=
  match s.fwu.staging with
  | none => s
  | some g =>
    let s1 := { s with fwu.staging := none }
    match res with
    | .passed => staged s1 g
    | .readBackFailed => respondOpt s1 g.who 0x1109 s1.tck.tick []
    | .cardReadFailed => abandonStaging s 1
/-- Staging of a package begins: its slot turns invalid (R527). -/
def beginStaging (s : State) (g : Staging) : State :=
  setSlot { s with fwu.staging := some g } g.slot (fun x => { x with valid := false, fails := false })
/-- SD_POLL: a unit without a verifiable slot stages the first valid package of the card into slot 0 (R536). -/
def sdPoll (s : State) : State :=
  if s.tck.mode ≠ .boot ∨ !s.fwu.noSlot ∨ s.fwu.staging.isSome ∨ s.slt.run.isSome then s
  else
    match (cardFiles s).bind (fun l => l.find? (fun f => (pkgReject true f.data).isNone)) with
    | none => s
    | some f => beginStaging s { who := none, slot := 0, package := f.data }

/-! ### Commands (R538; log 15 for the layouts) -/

def doFwuScan (d : List Byte) (w : Who) (s : State) : State :=
  refuseShape s w d [(inBoot s, 0x110D), ((cardFiles s).isNone, 0x1102)] (fun s =>
    respond s w 0 (((cardFiles s).getD []).flatMap (fun f => leBytes 2 f.name.length ++ f.name ++ leBytes 4 f.data.length ++ padTo 32 f.data)))
def doFwuStage (d : List Byte) (w : Who) (s : State) : State :=
  let name := slice d 4 (leAt d 0 2)
  let file := (cardFiles s).bind (fun l => l.find? (fun f => f.name == name))
  refuseOr s w [(s.tck.mode != .stop || s.fwu.trial, 0x110D), (file.isNone, 0x1102)] (fun s =>
    if s.fwu.staging.isSome ∨ leAt d 2 2 ≠ 0 ∨ d.length ≠ 4 + leAt d 0 2 then respondFree s w
    else
      let p := (file.map (fun f => f.data)).getD []
      match pkgReject true p with
      | some c => respond s w c []
      | none => beginStaging s { who := some w, slot := otherSlot s, package := p })
def doFwuActivate (d : List Byte) (w : Who) (s : State) : State :=
  let o := otherSlot s
  let new := (slotOf s o).package
  refuseShape s w d [(inBoot s, 0x110D), (!slotValid (slotOf s o), 0x110B), (s.tck.mode != .stop || s.fwu.trial, 0x110D),
      (isPair s && pkgCarryVer new != pkgCarryVer (slotOf s (runningSlot s)).package && !bitOf (leAt d 0 1) 0, 0x110C)] (fun s =>
    let b := pointerBytes o 1 0 (runningSlot s) (pkgVersion new) 0 (leAt (pointerNow s) 10 4) 0
    { s with slt.queue := s.slt.queue ++ [{ pri := 3, work := .record 1 b, who := some w, edge := 0#64 }] })
def doFwuConfirm (d : List Byte) (w : Who) (s : State) : State :=
  refuseShape s w d [(inBoot s, 0x110D), (!s.fwu.trial, 0x110E)] (fun s => respond (confirmTrial s) w 0 [])
/-- FWU_INFO reads the pointer from slate, and waits as any read of it does (R470). -/
def doFwuInfo (d : List Byte) (w : Who) (s : State) : State :=
  refuseShape s w d [(inBoot s, 0x110D)] (fun s => askRead s w .readInfo)

def execSdCardDetect (card : Option Card) (s : State) : Host.Outcome State Fault Refusal := .next (sdCardDetect s card)
def execSdPoll (s : State) : Host.Outcome State Fault Refusal := .next (sdPoll s)
def execStagingEnd (res : StagingResult) (s : State) : Host.Outcome State Fault Refusal := .next (stagingEnd s res)
def execTrialConfirmTimeout (s : State) : Host.Outcome State Fault Refusal := .next (trialConfirmTimeout s)
def execFwuScan (r : Req) (s : State) : Host.Outcome State Fault Refusal := .next (command s r 0x1101 (fun q => doFwuScan q.payload))
def execFwuStage (r : Req) (s : State) : Host.Outcome State Fault Refusal := .next (command s r 0x1102 (fun q => doFwuStage q.payload))
def execFwuActivate (r : Req) (s : State) : Host.Outcome State Fault Refusal := .next (command s r 0x1103 (fun q => doFwuActivate q.payload))
def execFwuConfirm (r : Req) (s : State) : Host.Outcome State Fault Refusal := .next (command s r 0x1104 (fun q => doFwuConfirm q.payload))
def execFwuInfo (r : Req) (s : State) : Host.Outcome State Fault Refusal := .next (command s r 0x1105 (fun q => doFwuInfo q.payload))

end Sys2Proof.Machine
end

