-- ==== Sys2Proof/Machine/Links.lean ====
section
/-! DEFINITION. Belantia field links: frames, the SUMMON layout, the rounds, loss and readmission, bring-up, PARLEY, NOTICE, station tables, commands (R273 to R317, R321, R348). -/
namespace Sys2Proof.Machine
open Sys2Proof

/-! ### Frames (R277 to R280) -/

/-- A frame: header with HCRC, body of whole blocks, trailer. -/
def fieldFrame (type flags claim tick period domain link : Nat) (body : List Byte) : List Byte :=
  let h := leBytes 1 type ++ leBytes 1 flags ++ leBytes 3 claim ++ leBytes 3 tick ++ leBytes 2 period ++ leBytes 2 domain ++ leBytes 1 link
  let f := h ++ leBytes 2 (crc16 h) ++ body
  f ++ leBytes 4 (crc32 f) ++ leBytes 4 0
/-- A frame of this unit on link k. -/
def ownFrame (s : State) (type flags k : Nat) (body : List Byte) : List Byte :=
  fieldFrame type flags (claimKnown s) s.tck.tick.toNat (tickPeriod s) (domainOf s) k body
def frameType (f : List Byte) : Nat := leAt f 0 1
def frameClaim (f : List Byte) : Nat := leAt f 2 3
def frameTick (f : List Byte) : Nat := leAt f 5 3
def frameDomain (f : List Byte) : Nat := leAt f 10 2
def hcrcOk (f : List Byte) : Bool := decide (f.length ≥ 15) && leAt f 13 2 == crc16 (f.take 13)
/-- The frame without its trailer. -/
def frameFront (f : List Byte) : List Byte := f.take (f.length - 8)
def frameBody (f : List Byte) : List Byte := (frameFront f).drop 15
def fcrcOk (f : List Byte) : Bool := decide (f.length ≥ 23) && leAt f (f.length - 8) 4 == crc32 (frameFront f)
/-- Blocks of a frame: start, data, terminate (R275). -/
def frameBlocks (bytes : Nat) : Nat := 2 + (bytes - 7) / 8
/-- A frame with a sync-header error, an undefined or misplaced block, or without a terminate block within 65,536 blocks of its start:
nothing is taken from it (R276, log 83). -/
def frameBroken (f : RxFrame) : Bool := f.broken || decide (frameBlocks f.bytes.length > 65536)
/-- What stands before the break: at most a start block of 7 octets and 65,535 data blocks. -/
def frameCut (f : RxFrame) : List Byte := f.bytes.take (7 + 8 * 65535)
/-- Duration of a block in 0.1 ns. -/
def blockTime (f : RegFile) (k : Nat) : Nat := if fileField f 0x07 (0x200 + 0x20 * k) 0 1 = 0 then 64 else 640
def lnkField (s : State) (k lo n : Nat) : Nat := cfgField s 0x07 (0x200 + 0x20 * k) lo n
def linkEnabled (s : State) (k : Nat) : Bool := cfgBit s 0x07 0x100 k

/-! ### Stations of a table (R287, R288, R315) -/

/-- Divisor classes due for a station of phase ph in the round of edge m. -/
def dueClasses (m ph : Nat) : List Nat := (List.range 7).filter (fun c => (m + ph) % 2 ^ c == 0)
def dueByte (m ph : Nat) : Nat := ofBits (dueClasses m ph)
/-- Words of class c, from the counts of the classes. -/
def classWords (counts : List Nat) (c : Nat) : List Nat :=
  let start := (counts.take c).foldl (fun a n => a + n) 0
  (List.range (counts.getD c 0)).map (fun i => start + i)
/-- Words that a segment of the round of edge m carries, in order. -/
def carriedWords (counts : List Nat) (m ph : Nat) : List Nat := (dueClasses m ph).flatMap (classWords counts)
/-- Indexes of the members directly under a path, in table order. -/
def membersOf (t : List Station) (path : List Byte) : List Nat :=
  (List.range t.length).filter (fun i => match t[i]? with | some e => decide (e.path ≠ []) && e.path.dropLast == path | none => false)
def stationAt (t : List Station) (i : Nat) : Station :=
  t.getD i { path := [], group := false, phase := 0, hold := 0, outWords := [], inWords := [], turnMax := 0 }
/-- Address of a station on its own chain. -/
def addrOf (e : Station) : Nat := (e.path.getLast?.getD 0#8).toNat
/-- Address of the top-level station of a path. -/
def topAddr (path : List Byte) : Nat := (path.headD 0#8).toNat
def indexOfPath (t : List Station) (path : List Byte) : Option Nat := t.findIdx? (fun e => e.path == path)

/-! ### Segments (R285, R286) -/

def segHeader (kind addr due len : Nat) : List Byte :=
  leBytes 1 kind ++ leBytes 1 addr ++ leBytes 1 due ++ leBytes 1 0 ++ leBytes 3 len ++ leBytes 1 0
def toBlocks (bs : List Byte) : List Byte := padTo (8 * ceilDiv bs.length 8) bs
/-- A segment with its data and CRC-16. -/
def segment (kind addr due len : Nat) (data : List Byte) : List Byte :=
  let x := segHeader kind addr due len ++ data
  toBlocks (x ++ leBytes 2 (crc16 x))
/-- Blocks of an OUT, IN or PAD segment of n words. -/
def wordSegBlocks (n : Nat) : Nat := 1 + ceilDiv (3 * n + 2) 8
/-- A PAD segment of b blocks, at least 2. -/
def padSegment (b : Nat) : List Byte :=
  let n := (8 * (max b 2 - 1) - 2) / 3
  segment 3 0 0 n (List.replicate (3 * n) 0#8)
/-- Blocks of the IN segment of a station, members included; the fuel bounds the depth of groups. -/
def inBlocks (t : List Station) (m : Nat) : Nat → Nat → Nat
  | 0, _ => 0
  | fuel + 1, i =>
    let e := stationAt t i
    if e.group then (membersOf t e.path).foldl (fun a j => a + inBlocks t m fuel j) 0 + 2
    else wordSegBlocks (carriedWords e.inWords m e.phase).length
/-- The IN segment as the part sends it. -/
def inSegment (t : List Station) (m i : Nat) : List Byte :=
  let e := stationAt t i
  if e.group then
    let n := inBlocks t m 17 i - 2
    segment 0x12 (addrOf e) (dueByte m e.phase) n (List.replicate (8 * n) 0#8)
  else
    let n := (carriedWords e.inWords m e.phase).length
    segment 0x02 (addrOf e) (dueByte m e.phase) n (List.replicate (3 * n) 0#8)

/-- A chain under layout: its body so far, the IN segments placed (index, offset in octets), and group IN segments that
wait (index, first block they may begin at). -/
structure Layout where
  body : List Byte
  places : List (Nat × Nat)
  waiting : List (Nat × Nat)
deriving DecidableEq, Repr
/-- An IN segment goes to the end of the body. -/
def placeIn (t : List Station) (m : Nat) (l : Layout) (i : Nat) : Layout :=
  { l with body := l.body ++ inSegment t m i, places := l.places ++ [(i, l.body.length)] }
/-- Group IN segments whose turn has come are placed. -/
def placeReady (t : List Station) (m : Nat) : Nat → Layout → Layout
  | 0, l => l
  | n + 1, l =>
    match l.waiting with
    | w :: rest => if w.2 ≤ l.body.length / 8 then placeReady t m n (placeIn t m { l with waiting := rest } w.1) else l
    | [] => l
/-- At the end of the chain, PAD segments fill what is left of the gaps. -/
def placeRest (t : List Station) (m : Nat) : Nat → Layout → Layout
  | 0, l => l
  | n + 1, l =>
    match l.waiting with
    | w :: rest =>
      let gap := w.2 - l.body.length / 8
      let l1 := if gap = 0 then l else { l with body := l.body ++ padSegment gap }
      placeRest t m n (placeIn t m { l1 with waiting := rest } w.1)
    | [] => l
/-- Layout of a chain (R289, R302, R303): stations in order, values of output words by station index and word; u is the
duration of a block in 0.1 ns (log 27). -/
def layChain (t : List Station) (value : Nat → Nat → Word) (m u : Nat) : Nat → List Nat → Layout
  | 0, _ => { body := [], places := [], waiting := [] }
  | fuel + 1, idxs =>
    let l := idxs.foldl (fun l i =>
      let e := stationAt t i
      let l := placeReady t m (l.waiting.length) l
      if e.group then
        let sub := (layChain t value m u fuel (membersOf t e.path)).body
        let body := l.body ++ segment 0x11 (addrOf e) (dueByte m e.phase) (sub.length / 8) sub
        { l with body := body, waiting := l.waiting ++ [(i, body.length / 8 + ceilDiv (e.turnMax * 640 + 20000) u)] }
      else
        let ws := carriedWords e.outWords m e.phase
        placeIn t m { l with body := l.body ++ segment 1 (addrOf e) (dueByte m e.phase) ws.length (ws.flatMap (fun w => leBytes 3 (value i w).toNat)) } i)
      { body := [], places := [], waiting := [] }
    placeRest t m l.waiting.length l

/-- Whether a station of a link gets no segment: its address, or its group's, was found twice (R308). -/
def blockedAt (l : Link) (i : Nat) : Bool := l.dups.any (fun a => (stationAt l.table i).path.head? == some a)
/-- Top-level stations in hop order; those that ROLL CALL has not found come last, in table order (log 27). -/
def hopOrder (l : Link) : List Nat :=
  let top := (List.range l.table.length).filter (fun i => (stationAt l.table i).path.length == 1 && !blockedAt l i)
  let found := l.order.flatMap (fun a => top.filter (fun i => (stationAt l.table i).path == [a]))
  found ++ top.filter (fun i => !found.contains i)
/-- Value launched last on an output point. -/
def launched (s : State) (p : Nat) : Word := let o := outPt s p; if o.everSent then o.sent else 0#24
/-- Output word w of station i of link k, from the points that it carries; a bit that no point of the table in force gives is 0, so with
no bank in force every word is zero (log 101). -/
def outWord (s : State) (k : Nat) (l : Link) (i w : Nat) : Word :=
  let path := (stationAt l.table i).path
  BitVec.ofNat 24 ((pointTable s).foldl (fun a e =>
    match e.2.source with
    | .link k' _ p' w' bit =>
      if e.2.output && k' == k && p' == path && w' == w then
        (if e.2.word then (launched s e.1).toNat else setBitN a bit ((launched s e.1).getLsbD 0))
      else a
    | _ => a) 0)
/-- The layout of the SUMMON of edge m on link k. -/
def summonLayout (s : State) (k m : Nat) : Layout :=
  let l := linkAt s k
  layChain l.table (outWord s k l) m (blockTime (blkCfg s 0x07).inForce k) 17 (hopOrder l)
/-- What the round of edge m is laid out by, where nothing is kept of its launch. -/
def roundNow (s : State) (k m : Nat) : RoundLay :=
  let l := linkAt s k
  { edge := m, table := l.table, unit := blockTime (blkCfg s 0x07).inForce k, hops := hopOrder l }
/-- What the round of edge m was laid out by: the configuration of before edge m (R20). -/
def roundLay (s : State) (k m : Nat) : RoundLay := ((linkAt s k).laid.find? (fun r => r.edge == m)).getD (roundNow s k m)
/-- Stop values leave in STOP, and in HOLD with HOLD_OUT 1 (R290). -/
def stoppedFlag (s : State) : Bool := s.tck.mode == .stop || (s.tck.mode == .hold && cfgBit s 0x02 0x100 12)
/-- Duration of the SUMMON of a tick position, in 0.1 ns. -/
def summonTime (l : Link) (u m : Nat) : Nat := u * frameBlocks (23 + (layChain l.table (fun _ _ => 0#24) m u 17 (hopOrder l)).body.length)
/-- Longest SUMMON of a table over the 64 tick positions (R291). -/
def longestSummon (l : Link) (u : Nat) : Nat :=
  if l.table.isEmpty then u * frameBlocks 23 else (List.range 64).foldl (fun a m => max a (summonTime l u m)) 0
/-- LNK_FRAME_k.F after a change (rounding: log 12). -/
def refreshFrame (s : State) (k : Nat) : State :=
  let x := roundFree s (longestSummon (linkAt s k) (blockTime (blkCfg s 0x07).inForce k)) 2500
  setLink x.2 k (fun l => { l with frameF := BitVec.ofNat 16 (min 0xFFFF x.1) })

/-! ### Headers received, fencing (R324, R348) -/

/-- A unit that holds the claim is fenced: it releases the claim and enters STOP at the next edge. -/
def fence (s : State) (k claim : Nat) : State :=
  if holdsClaim s then raiseFault (releaseClaim s) 0x0810 none 0 [k, claim] else s
/-- A claim of the own domain in a header of a field link. -/
def noteClaim (s : State) (k claim : Nat) : State :=
  let s1 := { s with cry.seenField := max s.cry.seenField claim }
  match s.cry.claim with
  | some c => if claim > c then fence s1 k claim else s1
  | none => s1
/-- A header arrives: a failed HCRC is counted; none when nothing may be taken from the frame. -/
def headerIn (s : State) (k : Nat) (f : RxFrame) : Bool × State :=
  if hcrcOk f.bytes then (!frameBroken f, if frameDomain f.bytes = domainOf s then noteClaim s k (frameClaim f.bytes) else s)
  else (false, setLink s k (fun l => { l with errHcrc := satAdd l.errHcrc 1 }))
/-- A failed CRC-32 is counted and recorded. -/
def noteFcrc (s : State) (k : Nat) (f : List Byte) : State :=
  if fcrcOk f then s else record (setLink s k (fun l => { l with errFrame := satAdd l.errFrame 1 })) 0x0734 [k]

/-! ### Loss and readmission (R298 to R300) -/

/-- The link with the depth of a path above it, and the path's innermost three addresses, the innermost in bits [7:0] (R317, log 26). -/
def pathParams (k : Nat) (path : List Byte) : List Nat :=
  let r := path.reverse
  [k + 2 ^ 8 * path.length, (r.getD 0 0#8).toNat + 2 ^ 8 * (r.getD 1 0#8).toNat + 2 ^ 16 * (r.getD 2 0#8).toNat]
def setLive (s : State) (k i : Nat) (f : StLive → StLive) : State :=
  setLink s k (fun l => match l.live[i]? with | some x => { l with live := l.live.set i (f x) } | none => l)
def liveAt (s : State) (k i : Nat) : StLive :=
  (linkAt s k).live.getD i { lost := true, failsafe := false, claimLow := false, status := 0#8, goodRun := 0, badRun := 0, mapped := false, mapFailed := false }
def queueParley (s : State) (k : Nat) (why : ParleyWhy) (path : List Byte) (op index : Nat) (data : List Byte) : State :=
  setLink s k (fun l => { l with queue := l.queue ++ [{ why := why, path := path, op := op, index := index, len := data.length, data := data, tag := 0 }] })
/-- A station is marked lost: 0 missing, 1 failed or late. -/
def markLost (s : State) (k i cause : Nat) : State :=
  if (liveAt s k i).lost then setLive s k i (fun x => { x with goodRun := 0 })
  else
    let path := (stationAt (linkAt s k).table i).path
    let s1 := record (setLive s k i (fun x => { x with lost := true, goodRun := 0, badRun := 0 })) 0x0730 (pathParams k path ++ [cause])
    let s2 := latchTrigger (latchTrigger s1 (0x100000 + 256 * k + topAddr path)) (0x800000 + 256 * k + topAddr path)
    setLink s2 k (fun l => { l with lossLost := satAdd l.lossLost 1, lossUndelivered := satAdd l.lossUndelivered 1 })
/-- A station answers a valid round: readmission, FAILSAFE, CLAIM_LOW. A station whose SET_MAP failed stays lost until one is answered
(R311); CLAIM_LOW is recorded when it appears, and fences in every round in which the partner is lost (R348). -/
def stationValid (s : State) (k i : Nat) (status : Byte) : State :=
  let x := liveAt s k i
  let path := (stationAt (linkAt s k).table i).path
  let n := x.goodRun + 1
  let back := x.lost && decide (n ≥ 2) && (!x.mapFailed || !holdsClaim s) && !blockedAt (linkAt s k) i
  let fs := status.getLsbD 1
  let low := status.getLsbD 2
  let s1 := setLive s k i (fun y => { y with goodRun := n, badRun := 0, status := status, failsafe := fs, claimLow := low, lost := y.lost && !back })
  let s2 := if back then
      let a := record s1 0x0731 (pathParams k path)
      if lnkField a k 20 1 = 1 ∧ holdsClaim a then queueParley a k .rearm path 0x11 0 [] else a
    else s1
  let s3 := if fs && !x.failsafe then record s2 0x0733 (pathParams k path) else s2
  let s4 := if low && !x.claimLow then record s3 0x0741 (pathParams k path) else s3
  if low && !s4.cry.partner then fence s4 k s4.cry.seenField else s4
/-- Outcome of an IN segment in a round (R292). -/
inductive RoundOutcome | valid | late | failed | missing
deriving DecidableEq, Repr
/-- The octets of the data of an IN segment, by its LEN. -/
def segDataLen (seg : List Byte) : Nat := if leAt seg 0 1 = 0x12 then 8 * leAt seg 4 3 else 3 * leAt seg 4 3
def segOutcome (seg : List Byte) (late : Bool) : RoundOutcome :=
  let n := 8 + segDataLen seg
  if leAt seg n 2 ≠ crc16 (seg.take n) ∨ seg.length < n + 2 then .failed
  else if late ∨ bitOf (leAt seg 7 1) 0 then .late
  else if bitOf (leAt seg 2 1) 7 then .valid
  else .missing
/-- Data of a valid IN segment enter the receiving copies of the station's points (R95). -/
def deliver (s : State) (k m : Nat) (e : Station) (seg : List Byte) : State :=
  let ws := carriedWords e.inWords m e.phase
  let tbl := pointTable s
  { s with img.ins := s.img.ins.map (fun x =>
      match smGet tbl x.1 with
      | some pt =>
        match pt.source with
        | .link k' _ path w bit =>
          if k' == k && path == e.path then
            match ws.findIdx? (fun y => y == w) with
            | some j =>
              let v := leAt seg (8 + 3 * j) 3
              (x.1, { x.2 with recv := some (BitVec.ofNat 24 (if pt.word then v else b2n (bitOf v bit))) })
            | none => x
          else x
        | _ => x
      | none => x) }
/-- A group whose segment is missing loses every member. -/
def loseMembers (s : State) (k : Nat) (path : List Byte) : State :=
  let t := (linkAt s k).table
  (List.range t.length).foldl (fun s i =>
    let p := (stationAt t i).path
    if p.length > path.length ∧ p.take path.length = path then markLost s k i 0 else s) s
/-- One IN segment of a round, of one station or one group turn, whose station is at index i of the table in force (R292, R298, R299, R304). -/
def stationRound (s : State) (m k : Nat) (e : Station) (i : Nat) (seg : List Byte) (out : RoundOutcome) : State :=
  match out with
  | .valid =>
    let a := stationValid s k i (seg.getD 3 0#8)
    if e.group then a else deliver a k m e seg
  | .missing =>
    let a := markLost s k i 0
    if e.group then loseMembers a k e.path else a
  | .late | .failed =>
    let a := setLink s k (fun l => if out = .late then { l with errLate := satAdd l.errLate 1 } else { l with errSeg := satAdd l.errSeg 1 })
    let n := (liveAt a k i).badRun + 1
    let b := setLive a k i (fun x => { x with goodRun := 0, badRun := n })
    if n ≥ 8 then markLost b k i 1 else b
/-- An IN segment of a station that the table in force still holds. -/
def segmentEffect (s : State) (m k : Nat) (e : Station) (seg : List Byte) (out : RoundOutcome) : State :=
  match indexOfPath (linkAt s k).table e.path with
  | some i => stationRound s m k e i seg out
  | none => s
/-- One IN segment of a round, members of a group included. -/
def judgeSegment (m k : Nat) (t : List Station) (late : Bool) : Nat → State → Nat → List Byte → State
  | 0, s, _, _ => s
  | fuel + 1, s, i, seg =>
    let e := stationAt t i
    let out := segOutcome seg late
    let s1 := segmentEffect s m k e seg out
    if e.group && out != .missing then
      ((membersOf t e.path).foldl (fun (acc : State × Nat) j =>
        let n := 8 * inBlocks t m 17 j
        (judgeSegment m k t late fuel acc.1 j (slice seg acc.2 n), acc.2 + n)) (s1, 8)).1
    else s1
/-- Every IN segment of a round, from the body of its ECHO, by what the SUMMON was laid out by. -/
def judgeRound (s : State) (k : Nat) (r : RoundLay) (late : Bool) (body : List Byte) : State :=
  (layChain r.table (fun _ _ => 0#24) r.edge r.unit 17 r.hops).places.foldl (fun s p =>
    judgeSegment r.edge k r.table late 17 s p.1 (slice body p.2 (8 * inBlocks r.table r.edge 17 p.1))) s
/-- Every IN segment of the round is missing (R292). -/
def roundMissing (s : State) (k : Nat) : State :=
  let l := linkAt s k
  (List.range l.table.length).foldl (fun s i => if blockedAt l i then s else markLost s k i 0) s
/-- The edge that a header's TICK names, near the running tick. -/
def roundOf (s : State) (f : List Byte) : Nat × Bool :=
  let n := s.tck.tick.toNat
  if frameTick f = n % 2 ^ 24 then (n, false) else (n - (n - frameTick f) % 2 ^ 24, true)
/-- A round's ECHO, or the frame turned back in its place, is judged; the last tells whether the edge is past. -/
def judgeEcho (s : State) (k : Nat) (f : List Byte) (r : RoundLay) (late : Bool) : State :=
  let s1 := noteFcrc s k f
  judgeRound (if late then s1 else setLink s1 k (fun l => { l with echoed := true })) k r late (frameBody f)
/-- The round trip of an ECHO, and the offset of its terminate block. -/
def noteRtt (s : State) (k : Nat) (f : List Byte) (u : Nat) (rtt : BitVec 16) : State :=
  let e := roundFree s (10000 + 80 * rtt.toNat + (frameBlocks f.length - 1) * u) 2500
  setLink e.2 k (fun l => { l with rttLast := rtt, echoEnd := BitVec.ofNat 16 (min 0xFFFF e.1) })
/-- ECHO_RECEIVED. -/
def echoReceived (s : State) (k : Nat) (g : RxFrame) (rtt : BitVec 16) : State :=
  let h := headerIn s k g
  let l := linkAt s k
  let f := g.bytes
  if !h.1 || !ticking s then h.2
  else if !holdsClaim h.2 || frameType f != 0x45 || (!(roundOf s f).2 && (!l.summoned || l.echoed)) then h.2
  else
    let x := roundOf h.2 f
    let r := roundLay h.2 k x.1
    judgeEcho (noteRtt h.2 k f r.unit rtt) k f r x.2
/-- ECHO_MISSING: at offset 1 µs + RTT_MAX + 2 µs no ECHO has begun. -/
def echoMissing (s : State) (k : Nat) : State :=
  let l := linkAt s k
  if !l.summoned || l.echoed then s
  else roundMissing (setLink s k (fun l => { l with echoed := true, rttLast := 0xFFFF#16 })) k
/-- LINK_LOCK_LOST: the ECHO that has not come is missing. -/
def linkLockLost (s : State) (k : Nat) : State := echoMissing (setLink s k (fun l => { l with lock := false })) k
/-- What follows step 1 of R307: a unit in SHADOW runs no further step, and takes its stations from the rounds that it turns back (log 102). -/
def afterLock (m : Mode) : LinkPhase := if m = .shadow then .cyclic else .waitClaim
/-- FIELD_LINK_LOCK_GAINED: step 1 of R307 ends. -/
def lockGained (s : State) (k : Nat) : State :=
  setLink s k (fun l => { l with lock := true, phase := if l.phase = .lock then afterLock s.tck.mode else l.phase })
/-- Host requests of a link that wait and can no longer leave: the spec gives them no result (log 103). One that is outstanding still
fails after its 100 ticks. -/
def dropWaiting (s : State) (k : Nat) : State :=
  let l := linkAt s k
  let who := l.queue.filterMap (fun q => match q.why with | .host w | .hostRearm w => some w | _ => none)
  (who ++ l.rollWho).foldl respondFree (setLink s k (fun l => { l with queue := [], rollWho := [], rollPending := false }))
/-- LINK_LOCK_TIMEOUT. -/
def linkLockTimeout (s : State) (k : Nat) : State :=
  let l := linkAt s k
  if l.phase = .lock ∧ !l.lock then dropWaiting (record (setLink s k (fun l => { l with phase := .failed })) 0x0713 [k]) k else s

/-! ### Turning frames back (R283, R321) -/

/-- Addresses of the OUT segments of a body, in order, when every header of it parses. -/
def scanOrder : Nat → List Byte → Option (List Byte)
  | 0, bs => if bs.isEmpty then some [] else none
  | fuel + 1, bs =>
    if bs.isEmpty then some []
    else
      let kind := leAt bs 0 1
      let n := leAt bs 4 3
      let size := 8 * (if kind = 0x11 ∨ kind = 0x12 then n + 2 else wordSegBlocks n)
      if bs.length < size then none
      else
        match scanOrder fuel (bs.drop size) with
        | some r => some (if kind = 1 ∨ kind = 0x11 then bs.getD 1 0#8 :: r else r)
        | none => none
/-- The header of a SUMMON that becomes an ECHO. -/
def echoHeader (f : List Byte) : List Byte :=
  let h := leBytes 1 0x45 ++ slice f 1 12
  h ++ leBytes 2 (crc16 h)
/-- A SUMMON sent back becomes an ECHO, its check codes computed afresh; a failed CRC-32 stays failed (R280). A broken frame is cut (R276). -/
def turnFrame (k : Fin 24) (x : RxFrame) : Tx :=
  let f := x.bytes
  let summon := hcrcOk f && frameType f == 0x51
  if frameBroken x then .linkCut k (if summon then echoHeader f ++ (frameCut x).drop 15 else frameCut x)
  else if summon then
    let g := echoHeader f ++ frameBody f
    let c := crc32 g
    .link k (g ++ leBytes 4 (if fcrcOk f then c else 2 ^ 32 - 1 - c) ++ leBytes 4 0)
  else .link k f
/-- Indexes of the top-level stations that a frame gives segments, in its order. -/
def hopsOf (t : List Station) (order : List Byte) : List Nat :=
  order.flatMap (fun a => (List.range t.length).filter (fun i => (stationAt t i).path == [a]))
/-- A SUMMON of the current claim in the unit's own domain: the highest that it has seen on the links, and its partner's (R321, log 127). -/
def currentSummon (s : State) (f : List Byte) : Bool :=
  frameType f == 0x51 && frameDomain f == domainOf s && decide (frameClaim f ≥ max s.cry.seenField (if s.cry.partner then s.cry.seenPartner else 0))
/-- The hop order that the unit knows changes, and with it the layout of its own SUMMONs. -/
def setOrder (s : State) (k : Nat) (o : List Byte) : State :=
  if (linkAt s k).order = o then s else refreshFrame (setLink s k (fun l => { l with order := o })) k
/-- FIELD_FRAME_TURNBACK: a unit without the claim turns the frame back, in BOOT too, and takes a SUMMON of the current claim as its ECHO. -/
def fieldFrameTurnback (s : State) (k : Fin 24) (g : RxFrame) : State :=
  if !mailboxUp s then s
  else
    let h := headerIn s k.val g
    let f := g.bytes
    if holdsClaim h.2 then h.2
    else
      let s1 := emit h.2 (turnFrame k g)
      if !h.1 || !ticking s1 || !currentSummon s1 f then s1
      else
        let x := roundOf s1 f
        let r := roundLay s1 k.val x.1
        if (linkAt s1 k.val).echoed && !x.2 then s1
        else
          match scanOrder 2048 (frameBody f) with
          | some o => judgeEcho (setOrder s1 k.val o) k.val f { r with hops := hopsOf r.table o } x.2
          | none => judgeEcho s1 k.val f r x.2
/-- HIGHER_CLAIM_SEEN, in BOOT too (R324). -/
def higherClaimSeen (s : State) (k claim : Nat) : State := if mailboxUp s then noteClaim s k claim else s

/-! ### ROLL CALL and bring-up (R306 to R308) -/

def rollEntries (body : List Byte) : List (List Byte) := ((List.range 255).map (fun i => padTo 16 (slice body (16 * i) 16))).filter (fun e => leAt e 0 1 == 1)
/-- SET_MAP data of a station. -/
def mapData (e : Station) : List Byte :=
  leBytes 1 e.phase ++ leBytes 1 e.hold ++ leBytes 2 0 ++ (List.range 7).flatMap (fun i => leBytes 2 (e.outWords.getD i 0)) ++
  (List.range 7).flatMap (fun i => leBytes 2 (e.inWords.getD i 0))
/-- SET_MAP to a station. -/
def sendMap (s : State) (k i : Nat) (why : ParleyWhy) : State :=
  let e := stationAt (linkAt s k).table i
  queueParley s k why e.path 0x10 0 (mapData e)
/-- What a ROLL CALL run found: unknown and duplicate addresses, the hop order, group turns (R307, R308). -/
def rollCompare (s : State) (k : Nat) (es : List (List Byte)) : State :=
  let addrs := (es.map (fun e => e.getD 1 0#8)).filter (fun a => a ≠ 0#8)
  let t := (linkAt s k).table
  let known (a : Byte) : Bool := t.any (fun e => e.path == [a])
  let dup (a : Byte) : Bool := decide ((addrs.filter (fun b => b = a)).length > 1)
  let s1 := addrs.eraseDups.foldl (fun s a =>
    let x := if known a then s else record s 0x0736 [k, a.toNat]
    if dup a then record x 0x0737 [k, a.toNat] else x) s
  let s2 := setLink s1 k (fun l =>
    { l with order := addrs.eraseDups.filter (fun a => known a && !dup a)
             dups := addrs.eraseDups.filter dup ++ l.dups.filter (fun a => !addrs.contains a) })
  let s3 := (List.range t.length).foldl (fun s i => if dup ((stationAt t i).path.headD 0#8) then markLost s k i 0 else s) s2
  let s4 := (List.range t.length).foldl (fun s i =>
    let e := stationAt t i
    match (if e.path.length = 1 ∧ e.group then es.find? (fun x => [x.getD 1 0#8] == e.path) else none) with
    | some x =>
      if leAt x 8 2 > e.turnMax then loseMembers (markLost (record s 0x0717 (pathParams k e.path)) k i 0) k e.path else s
    | none => s) s3
  refreshFrame s4 k
/-- Stations to which a ROLL CALL sends SET_MAP: top-level ones first, members after their group. -/
def mapOrder (t : List Station) : List Nat :=
  (List.range 17).flatMap (fun d => (List.range t.length).filter (fun i => (stationAt t i).path.length == d))
/-- The roll call came back later than its bound allows: the link fails (R307). -/
def rollLate (s : State) (k : Nat) (rtt : BitVec 16) : State :=
  let who := (linkAt s k).rollWho
  let s1 := record (setLink s k (fun l => { l with phase := .failed, rollWho := [] })) 0x0711 [k, rtt.toNat]
  dropWaiting (who.foldl (fun s w => respond s w 0x0711 (leBytes 1 k ++ leBytes 2 rtt.toNat)) s1) k
/-- The last roll call of bringing the link up: compare, then map every station of the table. -/
def rollUp (s1 : State) (k : Nat) (es : List (List Byte)) : State :=
  let s2 := rollCompare s1 k es
  let order := mapOrder (linkAt s2 k).table
  let left := order.map (fun i => (stationAt (linkAt s2 k).table i).path)
  setLink (order.foldl (fun s i => sendMap s k i .bringup) s2) k (fun l => { l with phase := if left.isEmpty then .cyclic else .setMap left })
/-- A roll call of a link that is up: compare, map the stations that no SET_MAP has reached yet (log 116), answer the commands that wait
for it. -/
def rollAgain (s1 : State) (k : Nat) (es : List (List Byte)) (who : List Who) (answer : List Byte) : State :=
  let s2 := rollCompare s1 k es
  let l2 := linkAt s2 k
  let left := match l2.phase with | .setMap left => left | _ => []
  let again := (mapOrder l2.table).filter (fun i => !(liveAt s2 k i).mapped && !left.contains (stationAt l2.table i).path)
  let s3 := again.foldl (fun s i => sendMap s k i .remap) (setLink s2 k (fun l => { l with rollWho := [], rollPending := false }))
  who.foldl (fun s w => respond s w 0 answer) s3
/-- ROLL_CALL_RECEIVED: of the three runs of a bring-up the last that comes back is used (log 104). -/
def rollCallReceived (s : State) (k : Nat) (g : RxFrame) (rtt : BitVec 16) : State :=
  let h := headerIn s k g
  let f := g.bytes
  let l := linkAt h.2 k
  if !h.1 || !holdsClaim h.2 || !l.rollSent || frameType f != 0x52 then h.2
  else if !fcrcOk f then noteFcrc h.2 k f
  else
    let s1 := setLink h.2 k (fun l => { l with rttRoll := rtt, rollSent := false })
    let es := rollEntries (frameBody f)
    if 8 * rtt.toNat > 1000 * lnkField s1 k 2 8 then rollLate s1 k rtt
    else
      match l.phase with
      | .roll 0 => rollUp s1 k es
      | .roll _ => setLink s1 k (fun l => { l with roll := es })
      | _ => rollAgain s1 k es l.rollWho (padTo 4080 (frameBody f))
/-- ROLL_CALL_REPEAT: every 1,024 ticks while a station of the link is lost. -/
def rollCallRepeat (s : State) (k : Nat) : State :=
  let l := linkAt s k
  if holdsClaim s && l.phase == .cyclic && l.live.any (fun x => x.lost) then setLink s k (fun l => { l with rollPending := true }) else s

/-! ### PARLEY (R309 to R311) and NOTICE (R312, R313) -/

/-- A PARLEY request body. -/
def parleyBody (p : Parley) : List Byte :=
  toBlocks (leBytes 1 0 ++ leBytes 1 p.op ++ leBytes 1 p.path.length ++ leBytes 1 0 ++ leBytes 2 p.index ++ leBytes 2 p.len ++ leBytes 2 p.tag ++
    padTo 16 p.path ++ List.replicate 6 0#8 ++ p.data)
/-- A station of the bring-up is dealt with; after the last one SUMMONs start (R307 step 5). -/
def bringupNext (s : State) (k : Nat) (path : List Byte) : State :=
  setLink s k (fun l =>
    match l.phase with
    | .setMap left => { l with phase := if left.erase path = [] then .cyclic else .setMap (left.erase path) }
    | _ => l)
/-- The end of a SET_MAP that the part sends by itself (R311). -/
def mapEnd (s : State) (k : Nat) (path : List Byte) (res : Option (List Byte)) : State :=
  let done := match res with | some b => leAt b 3 1 == 0 | none => false
  let s1 := match indexOfPath (linkAt s k).table path with
    | some i => setLive s k i (fun x => { x with mapped := done, mapFailed := !done })
    | none => s
  match res with
  | none => record s1 0x0715 []
  | some b => if done then s1 else if leAt b 3 1 = 3 then record s1 0x0714 (pathParams k path) else record s1 0x0716 [leAt b 3 1]
/-- The end of the outstanding request: PSTATUS with the response body, or no response. -/
def parleyEnd (s : State) (k : Nat) (q : Parley) (res : Option (List Byte)) : State :=
  let answer (w : Who) (data : List Byte) : State :=
    match res with
    | none => respond s w 0x0715 []
    | some b => if leAt b 3 1 = 0 then respond s w 0 data else respond s w 0x0716 (slice b 3 1)
  match q.why with
  | .bringup => bringupNext (mapEnd s k q.path res) k q.path
  | .remap => mapEnd s k q.path res
  | .rearm => s
  | .host w => answer w (res.getD [])
  | .hostRearm w => answer w []
/-- PARLEY_RESPONSE_RECEIVED. -/
def parleyResponse (s : State) (k : Nat) (g : RxFrame) : State :=
  let h := headerIn s k g
  let f := g.bytes
  let b := frameBody f
  if !h.1 || frameType f != 0x50 then h.2
  else if !fcrcOk f then noteFcrc h.2 k f
  else
    match (linkAt h.2 k).out with
    | some q => if leAt b 0 1 = 1 ∧ leAt b 8 2 = q.tag then parleyEnd (setLink h.2 k (fun l => { l with out := none, outAge := 0 })) k q (some b) else h.2
    | none => h.2
/-- PARLEY_TIMEOUT: 100 ticks without a response. -/
def parleyTimeout (s : State) (k : Nat) : State :=
  let l := linkAt s k
  match l.out with
  | some q => if l.outAge ≥ 100 then parleyEnd (setLink s k (fun l => { l with out := none, outAge := 0 })) k q none else s
  | none => s
/-- NOTICE_RECEIVED. -/
def noticeReceived (s : State) (k : Nat) (g : RxFrame) : State :=
  let h := headerIn s k g
  let f := g.bytes
  if !h.1 || frameType f != 0x4E || !ticking s then h.2
  else if !fcrcOk f then noteFcrc h.2 k f
  else
    let b := frameBody f
    let path := slice b 4 (leAt b 0 1)
    let code := leAt b 2 2
    let s1 := if lnkField h.2 k 21 1 = 1 then record h.2 0x0740 (pathParams k path ++ [code, leAt b 24 3]) else h.2
    if (code = 1 ∨ code = 2) ∧ holdsClaim s1 then
      match indexOfPath (linkAt s1 k).table path with
      | some i => sendMap (setLive s1 k i (fun x => { x with mapped := false })) k i .remap
      | none => s1
    else s1

/-! ### What leaves at an edge (R290, R307, R311) -/

/-- The next PARLEY request leaves when none is outstanding. -/
def sendParley (s : State) (k : Fin 24) : State :=
  let l := linkAt s k.val
  match l.out, l.queue with
  | none, q :: rest =>
    let q := { q with tag := l.nextTag }
    emit (setLink s k.val (fun l => { l with queue := rest, out := some q, outAge := 0, nextTag := (l.nextTag + 1) % 65536 }))
      (.link k (ownFrame s 0x50 0 k.val (parleyBody q)))
  | _, _ => s
/-- The entries of a roll call as the active unit sends it: every one empty. -/
def rollBlank : List Byte := List.replicate 4080 0#8
def sendRoll (s : State) (k : Fin 24) : State :=
  emit (setLink s k.val (fun l => { l with rollSent := true })) (.link k (ownFrame s 0x52 0 k.val rollBlank))
def sendSummon (s : State) (k : Fin 24) : State :=
  emit (setLink s k.val (fun l => { l with summoned := true })) (.link k (ownFrame s 0x51 (b2n (stoppedFlag s)) k.val (summonLayout s k.val s.tck.tick.toNat).body))
/-- The round of this edge is laid out by the configuration of before the edge; the ages of what is outstanding count. -/
def linkTick (s : State) (k : Nat) : State :=
  let r := roundNow s k s.tck.tick.toNat
  setLink s k (fun l => { l with summoned := false, echoed := false, rollSent := false, laid := r :: l.laid.take 1
                                 outAge := if l.out.isSome then l.outAge + 1 else 0 })
/-- What a link that runs sends at an edge. -/
def linkCyclic (s : State) (k : Fin 24) : State :=
  let s1 := sendSummon s k
  sendParley (if (linkAt s1 k.val).rollPending then sendRoll s1 k else s1) k
/-- What a link that maps its stations sends, or one whose stations are all mapped: a ROLL CALL or a PARLEY request takes the place of the
SUMMON (R290). -/
def linkMapping (s : State) (k : Fin 24) : State :=
  if (linkAt s k.val).phase = .cyclic then linkCyclic s k
  else if (linkAt s k.val).rollPending then sendRoll s k
  else sendParley s k
/-- The frames of link k at the edge just passed. After the third run of ROLL CALL without an answer, the last answer is used. -/
def linkEdge (s : State) (k : Fin 24) : State :=
  let s0 := linkTick s k.val
  let may := holdsClaim s0 && (s0.tck.mode == .stop || s0.tck.mode == .run || s0.tck.mode == .hold)
  if !may || !linkEnabled s0 k.val then s0
  else
    match (linkAt s0 k.val).phase with
    | .waitClaim => sendRoll (setLink s0 k.val (fun l => { l with phase := .roll 2, roll := [] })) k
    | .roll (n + 1) => sendRoll (setLink s0 k.val (fun l => { l with phase := .roll n })) k
    | .roll 0 => linkMapping (rollUp s0 k.val (linkAt s0 k.val).roll) k
    | .setMap _ => linkMapping s0 k
    | .cyclic => linkCyclic s0 k
    | _ => s0
/-- The frames of an edge carry the claim, so its write is complete (R324). -/
def linksEdge (s : State) : State := (List.finRange 24).foldl linkEdge (claimsDone s)
/-- A unit without the claim sends no request: what waits is dropped; a unit that has gone to SHADOW ends the steps of R307. -/
def linkQuiet (s : State) (k : Nat) : State :=
  let s1 := dropWaiting s k
  if s1.tck.mode = .shadow then
    setLink s1 k (fun l => { l with phase := match l.phase with | .waitClaim | .roll _ | .setMap _ => .cyclic | p => p })
  else s1
def linksQuiet (s : State) : State := (List.range 24).foldl linkQuiet s
/-- A unit that raises the claim after BOOT has its stations from its own rounds, and runs no bring-up (R307, R346). A link in step 1
stays there. A station that its rounds show is mapped; of one that they show lost it goes by what it knows itself (log 127). -/
def linksTakeOver (s : State) : State :=
  { s with lnk := Vector.ofFn (fun (k : Fin 24) =>
      let l := s.lnk.get k
      if linkEnabled s k.val && l.phase != .failed then
        { l with phase := (if l.phase = .lock then .lock else .cyclic)
                 live := l.live.map (fun x => if x.lost then { x with mapped := !x.mapFailed } else { x with mapped := true, mapFailed := false }) }
      else l) }

/-! ### Station tables (R315, R316) -/

/-- An entry of 64 bytes, when its values are in range. -/
def parseStation (b : List Byte) : Option Station :=
  let depth := leAt b 16 1
  let group := leAt b 17 1 == 1
  let counts (o : Nat) : List Nat := (List.range 7).map (fun i => leAt b (o + 2 * i) 2)
  let path := slice b 0 depth
  let zero (o n : Nat) : Bool := (slice b o n).all (fun x => x = 0#8)
  if b.length ≠ 64 ∨ depth < 1 ∨ depth > 16 ∨ leAt b 17 1 > 1 ∨ leAt b 18 1 > 63 ∨ leAt b 19 1 < 2 ∨ path.any (fun x => x = 0#8) ∨
     !zero depth (16 - depth) ∨ !zero 50 14 ∨ (group ∧ (!zero 20 28 ∨ leAt b 48 2 = 0)) ∨ (!group ∧ leAt b 48 2 ≠ 0) then none
  else some { path := path, group := group, phase := leAt b 18 1, hold := leAt b 19 1, outWords := counts 20, inWords := counts 34, turnMax := leAt b 48 2 }
/-- A table from its entries; none when a value is out of range or the length is wrong (0x0701). -/
def parseTable (d : List Byte) : Option (List Station) :=
  let es := (List.range (d.length / 64)).map (fun i => parseStation (slice d (64 * i) 64))
  if d.length % 64 ≠ 0 ∨ d.length / 64 > 1024 ∨ es.any (fun e => e.isNone) then none else some (es.filterMap id)
/-- An entry as LNK_TABLE_GET returns it. -/
def stationBytes (e : Station) : List Byte :=
  padTo 16 e.path ++ leBytes 1 e.path.length ++ leBytes 1 (b2n e.group) ++ leBytes 1 e.phase ++ leBytes 1 e.hold ++
  (List.range 7).flatMap (fun i => leBytes 2 (e.outWords.getD i 0)) ++ (List.range 7).flatMap (fun i => leBytes 2 (e.inWords.getD i 0)) ++
  leBytes 2 e.turnMax ++ List.replicate 14 0#8
/-- Paths are distinct, and the parent of each member is a group of the table (0x0702). -/
def tablePathsBad (t : List Station) : Bool :=
  (t.map (fun e => e.path)).eraseDups.length != t.length ||
  t.any (fun e => decide (e.path.length > 1) && !t.any (fun p => p.path == e.path.dropLast && p.group))
/-- A class that a guarded point uses is removed or resized (0x0703). -/
def tableTouches (s : State) (k : Nat) (t : List Station) : Bool :=
  let now := (linkAt s k).table
  (guardedPoints s).any (fun p => match p.source with
    | .link k' _ path _ _ =>
      let count (t : List Station) : Option Nat := (t.find? (fun e => e.path == path)).map (fun e => (if p.output then e.outWords else e.inWords).getD p.divisor 0)
      k' == k && count t != count now
    | _ => false)
/-- The first tick position at which a link with a table breaks the fit rule R291, in 0.1 ns. -/
def misfitAt (f : RegFile) (k : Nat) (l : Link) (t : List Station) (periodTenths : Nat) : Option Nat :=
  let q (lo n : Nat) : Nat := fileField f 0x07 (0x200 + 0x20 * k) lo n
  (List.range 64).find? (fun m => decide (10000 + summonTime { l with table := t, live := [] } (blockTime f k) m + 10000 * (q 2 8 + q 10 6) + 10000 > periodTenths))
/-- The first enabled link, with the tick position, whose frames do not fit (the parameters of 0x0710). -/
def misfit (s : State) (f : RegFile) (tableOf : Nat → List Station) (periodTenths : Nat) : Option (Nat × Nat) :=
  (List.range 24).findSome? (fun k =>
    if bitOf (fileReg f 0x07 0x100).toNat k then (misfitAt f k (linkAt s k) (tableOf k) periodTenths).map (fun m => (k, m)) else none)
/-- The table of link k in force, or the new one of a change. -/
def tableWith (s : State) (new : Option (Nat × List Station)) (k : Nat) : List Station :=
  match new with | some n => if n.1 = k then n.2 else (linkAt s k).table | none => (linkAt s k).table
/-- The first reason of block 0x07 that a copy fails with, with the table of one link replaced. -/
def linkCheck (s : State) (f : RegFile) (new : Option (Nat × List Station)) : Option Nat :=
  let ks := List.range 24
  let q (k lo n : Nat) : Nat := fileField f 0x07 (0x200 + 0x20 * k) lo n
  firstReason [
    (match new with | some n => tablePathsBad n.2 | none => false, 0x0702),
    (match new with | some n => tableTouches s n.1 n.2 | none => false, 0x0703),
    (ks.any (fun k => q k 2 8 == 0 || decide (q k 2 8 > 250) || decide (q k 10 6 < 4)), 0x0704),
    ((misfit s f (tableWith s new) (10 * periodNs s)).isSome, 0x0710),
    (isPair s && ks.any (fun k => (tableWith s new k).any (fun e => decide (e.hold < 3))), 0x0718)]
/-- A station that is new to a table starts lost. -/
def freshLive : StLive :=
  { lost := true, failsafe := false, claimLow := false, status := 0#8, goodRun := 0, badRun := 0, mapped := false, mapFailed := false }
/-- What the part knows of the stations of a new table: of one that it keeps, what it knew; an entry that has changed is not mapped yet. -/
def liveAfter (old : Link) (t : List Station) : List StLive :=
  t.map (fun e => match indexOfPath old.table e.path with
    | some i => let x := old.live.getD i freshLive; if stationAt old.table i = e then x else { x with mapped := false }
    | none => freshLive)
/-- A SET_MAP of the part that still waits names a station of the new table, or it is dropped. -/
def mapKept (t : List Station) (q : Parley) : Option Parley :=
  match q.why with
  | .bringup => none
  | .remap => (t.find? (fun e => e.path == q.path)).map (fun e => { q with len := (mapData e).length, data := mapData e })
  | _ => some q
/-- A table comes into force. Requests that wait or are outstanding go on; a link in step 4 of R307 maps every station that is not mapped. -/
def tableApply (s : State) (k : Nat) (t : List Station) : State :=
  let s1 := setLink s k (fun l => { l with table := t, live := liveAfter l t, queue := l.queue.filterMap (mapKept t) })
  let s2 := match (linkAt s1 k).phase with
    | .setMap _ =>
      let todo := (mapOrder t).filter (fun i => !(liveAt s1 k i).mapped && !(liveAt s1 k i).mapFailed)
      let left := todo.map (fun i => (stationAt t i).path)
      setLink (todo.foldl (fun s i => sendMap s k i .bringup) s1) k (fun l =>
        { l with phase := if left.isEmpty then .cyclic else .setMap left
                 out := l.out.map (fun q => match q.why with | .bringup => { q with why := .remap } | _ => q) })
    | _ => s1
  refreshFrame s2 k
/-- One link at the edge at which block 0x07's settings change: brought up, taken down, or its frame laid out anew. -/
def linkApplyOne (s : State) (old : RegFile) (k : Nat) : State :=
  let was := bitOf (fileReg old 0x07 0x100).toNat k
  let is := linkEnabled s k
  let s1 :=
    if is && !was then
      setLink s k (fun l => { l with phase := if l.lock then afterLock s.tck.mode else .lock, live := l.live.map (fun x => { x with lost := true, goodRun := 0, badRun := 0, mapped := false, mapFailed := false }) })
    else if was && !is then setLink (dropWaiting s k) k (fun l => { l with phase := .off, summoned := false })
    else s
  if fileReg old 0x07 (0x200 + 0x20 * k) = fileReg (blkCfg s1 0x07).inForce 0x07 (0x200 + 0x20 * k) then s1 else refreshFrame s1 k
/-- Links switched on begin step 1 of R307, links switched off stop. -/
def linkApply (s : State) (old : RegFile) : State := (List.range 24).foldl (fun s k => linkApplyOne s old k) s

/-! ### Commands (R316) -/

/-- Link and three zero bytes. -/
def linkPayWrong (d : List Byte) : Bool := d.length != 4 || leAt d 1 3 != 0
def doLnkTableSet (d : List Byte) (w : Who) (s : State) : State :=
  let k := leAt d 0 1
  let t := parseTable (d.drop 4)
  refuseOr s w [(inBootOrShadow s, 0x0103), (expertHeld s .a 0x07 || expertHeld s .b 0x07, 0x07F2), (blkBusy s 0x07, 0x07F0), (transPending s, 0x07F1)] (fun s =>
    match firstReason [(decide (d.length < 4) || leAt d 1 3 != 0 || t.isNone, 0x0701), (decide (k > 23), 0x0702)] with
    | some c => respond (setBlk s 0x07 (fun x => { x with reason := BitVec.ofNat 16 c })) w c []
    | none => startCheck s 0x07 (blkCfg s 0x07).inForce (.linkTable w k (t.getD [])))
def doLnkTableGet (d : List Byte) (w : Who) (s : State) : State :=
  refuseOr s w [(inBoot s, 0x0103), (linkPayWrong d, 0x0701), (decide (leAt d 0 1 > 23), 0x0702)]
    (fun s => respond s w 0 ((linkAt s (leAt d 0 1)).table.flatMap stationBytes))
/-- A link that can carry acyclic requests of the host: its unit holds the claim, and it is up or being brought up (R290). -/
def linkRuns (s : State) (k : Nat) : Bool := holdsClaim s && (linkAt s k).phase != .off && (linkAt s k).phase != .failed && ticking s
def doLnkRollcall (d : List Byte) (w : Who) (s : State) : State :=
  refuseOr s w [(inBoot s, 0x0103), (linkPayWrong d, 0x0701), (decide (leAt d 0 1 > 23), 0x0702)] (fun s =>
    let k := leAt d 0 1
    if linkRuns s k then forward false (setLink s k (fun l => { l with rollPending := true, rollWho := l.rollWho ++ [w] })) (nextEdge s) 0x0703 d
    else respondFree s w)
def doLnkParley (d : List Byte) (w : Who) (s : State) : State :=
  let k := leAt d 0 1
  let b := d.drop 1
  let n := leAt b 6 2
  let depth := leAt b 2 1
  refuseOr s w [(inBoot s, 0x0103), (decide (b.length < 32) || leAt b 0 1 != 0 || decide (depth < 1) || decide (depth > 16) || decide (n > 1024), 0x0701),
      (decide (k > 23), 0x0702)] (fun s =>
    if linkRuns s k then
      let q : Parley := { why := .host w, path := slice b 10 depth, op := leAt b 1 1, index := leAt b 4 2, len := n
                          data := if leAt b 1 1 = 1 then [] else padTo n (b.drop 32), tag := 0 }
      forward false (setLink s k (fun l => { l with queue := l.queue ++ [q] })) (nextEdge s) 0x0704 d
    else respondFree s w)
def doLnkRearm (d : List Byte) (w : Who) (s : State) : State :=
  let k := leAt d 0 1
  let depth := leAt d 1 1
  refuseOr s w [(inBoot s, 0x0103), (decide (depth < 1) || decide (depth > 16) || decide (d.length < 2 + depth), 0x0701), (decide (k > 23), 0x0702)] (fun s =>
    if linkRuns s k then forward false (queueParley s k (.hostRearm w) (slice d 2 depth) 0x11 0 []) (nextEdge s) 0x0705 d else respondFree s w)
def doLnkState (d : List Byte) (w : Who) (s : State) : State :=
  refuseOr s w [(inBoot s, 0x0103), (linkPayWrong d, 0x0701), (decide (leAt d 0 1 > 23), 0x0702)] (fun s =>
    respond s w 0 ((linkAt s (leAt d 0 1)).live.flatMap (fun x => leBytes 1 (b2n x.lost) ++ leBytes 1 (b2n x.failsafe) ++ [x.status])))

def execEchoReceived (link : Fin 24) (frame : RxFrame) (rtt : BitVec 16) (s : State) : Host.Outcome State Fault Refusal := .next (echoReceived s link.val frame rtt)
def execEchoMissing (link : Fin 24) (s : State) : Host.Outcome State Fault Refusal := .next (echoMissing s link.val)
def execLinkLockLost (link : Fin 24) (s : State) : Host.Outcome State Fault Refusal := .next (linkLockLost s link.val)
def execFieldFrameTurnback (link : Fin 24) (frame : RxFrame) (s : State) : Host.Outcome State Fault Refusal := .next (fieldFrameTurnback s link frame)
def execLinkLockTimeout (link : Fin 24) (s : State) : Host.Outcome State Fault Refusal := .next (linkLockTimeout s link.val)
def execRollCallReceived (link : Fin 24) (frame : RxFrame) (rtt : BitVec 16) (s : State) : Host.Outcome State Fault Refusal := .next (rollCallReceived s link.val frame rtt)
def execRollCallRepeat (link : Fin 24) (s : State) : Host.Outcome State Fault Refusal := .next (rollCallRepeat s link.val)
def execParleyResponseReceived (link : Fin 24) (frame : RxFrame) (s : State) : Host.Outcome State Fault Refusal := .next (parleyResponse s link.val frame)
def execParleyTimeout (link : Fin 24) (s : State) : Host.Outcome State Fault Refusal := .next (parleyTimeout s link.val)
def execNoticeReceived (link : Fin 24) (frame : RxFrame) (s : State) : Host.Outcome State Fault Refusal := .next (noticeReceived s link.val frame)
def execFieldLinkLockGained (link : Fin 24) (s : State) : Host.Outcome State Fault Refusal := .next (lockGained s link.val)
def execHigherClaimSeen (link : Fin 24) (claim : BitVec 24) (s : State) : Host.Outcome State Fault Refusal := .next (higherClaimSeen s link.val claim.toNat)
def execLnkTableSet (r : Req) (s : State) : Host.Outcome State Fault Refusal := .next (command s r 0x0701 (fun q => doLnkTableSet q.payload))
def execLnkTableGet (r : Req) (s : State) : Host.Outcome State Fault Refusal := .next (command s r 0x0702 (fun q => doLnkTableGet q.payload))
def execLnkRollcall (r : Req) (s : State) : Host.Outcome State Fault Refusal := .next (command s r 0x0703 (fun q => doLnkRollcall q.payload))
def execLnkParley (r : Req) (s : State) : Host.Outcome State Fault Refusal := .next (command s r 0x0704 (fun q => doLnkParley q.payload))
def execLnkRearm (r : Req) (s : State) : Host.Outcome State Fault Refusal := .next (command s r 0x0705 (fun q => doLnkRearm q.payload))
def execLnkState (r : Req) (s : State) : Host.Outcome State Fault Refusal := .next (command s r 0x0706 (fun q => doLnkState q.payload))

end Sys2Proof.Machine
end

