-- ==== Sys2Proof/Machine/Apply.lean ====
section
/-! DEFINITION. The consistency check of each block, and what a change of each block does at its apply edge (R71, R76, R80, R81, and the check of each chapter). -/
namespace Sys2Proof.Machine
open Sys2Proof

/-! ### Checks: the first reason that a copy fails with (log 29 for the order of a chapter's reasons) -/

/-- STOP, or BOOT step 5, where the stored value is no change. -/
def mayChangeInStop (s : State) : Bool := s.tck.mode == .stop || s.tck.mode == .boot
/-- Block 0x02 (R15, R21, R291). The mode at the check's end decides whether PERIOD may change: where a fault has brought STOP since the COMMIT
write, it may (R21 does not say which instant counts, log 142). -/
def tickCheck (s : State) (f : RegFile) : Option Nat :=
  let p := fileField f 0x02 0x100 0 9
  firstReason [(p == 0 || decide (p > 256), 0x0201), (decide (fileField f 0x02 0x100 9 2 > 1), 0x0202),
    (p != tickPeriod s && !mayChangeInStop s, 0x0203),
    ((misfit s (blkCfg s 0x07).inForce (tableWith s none) (625000 * p)).isSome, 0x0710)]
/-- Block 0x05 (R242). -/
def loaderCheck (s : State) (f : RegFile) : Option Nat :=
  firstReason [(!storedOk s (bankOfNo (fileField f 0x05 0x100 0 1)), 0x052D)]
/-- Fields of CRY_CONFIG that are kept: PAIR, POSITION, DOMAIN. -/
def pairKept (v : Dword) : Dword := v &&& 0xFFFF0003#32
/-- Block 0x08 (R320, R355). -/
def pairCheck (s : State) (f : RegFile) : Option Nat :=
  firstReason [(fileField f 0x08 0x100 16 16 == 0, 0x0801),
    (pairKept (fileReg f 0x08 0x100) != pairKept (fileReg (blkCfg s 0x08).inForce 0x08 0x100) && !mayChangeInStop s, 0x0802),
    (fileField f 0x08 0x100 0 1 == 1 && !isPair s && (List.range 24).any (fun k => (linkAt s k).table.any (fun e => decide (e.hold < 3))), 0x0805)]
/-- A signed four-bit logarithm from −7 to +4. -/
def logOk (v : Nat) : Bool := decide (ofTwos 4 v ≥ -7) && decide (ofTwos 4 v ≤ 4)
/-- Block 0x09 (R376). -/
def ntmCheck (f : RegFile) : Option Nat :=
  let q (ofs lo n : Nat) : Nat := fileField f 0x09 ofs lo n
  firstReason [(q 0x100 0 2 == 3, 0x0901),
    (!logOk (q 0x104 0 4) || !logOk (q 0x104 4 4) || !logOk (q 0x104 8 4) || decide (q 0x104 12 4 < 2) || decide (q 0x104 12 4 > 10) ||
      decide (q 0x108 0 16 < 10) || q 0x108 16 16 == 0, 0x0902)]
/-- An EV pin setting that R402 turns away. -/
def evBad (k v : Nat) : Bool :=
  let m := field v 0 2
  m == 3 || (m == 2 && k != 3) || (m == 1 && field v 2 2 == 0)
/-- Block 0x0A (R402). -/
def bedrockCheck (s : State) (f : RegFile) : Option Nat :=
  let q (ofs lo n : Nat) : Nat := fileField f 0x0A ofs lo n
  let trim := ofTwos 20 (q 0x104 0 20)
  firstReason [(decide (trim > 200000) || decide (trim < -200000), 0x0A01),
    (q 0x100 0 2 == 3 || (q 0x100 0 2 == 1 && feederType (blkCfg s 0x0D).inForce (q 0x100 2 2) == 0), 0x0A02),
    (decide (q 0x10C 0 25 > 22118400), 0x0A03), ([0, 1, 2, 3].any (fun k => evBad k (fileReg f 0x0A (0x114 + 4 * k)).toNat), 0x0A04),
    (decide (q 0x108 0 17 < 60) || decide (q 0x108 0 17 > 86400), 0x0A05)]
/-- Data lengths of a CAN frame. -/
def canLens : List Nat := [0, 1, 2, 3, 4, 5, 6, 7, 8, 12, 16, 20, 24, 32, 48, 64]
/-- Bit timing of controller k: rates from 10 kbit/s to 1 Mbit/s and from the nominal rate to 8 Mbit/s, jump widths, segments (R405, R406). -/
def canTimingBad (f : RegFile) (k : Nat) : Bool :=
  let q (ofs lo n : Nat) : Nat := fileField f 0x0B (0x140 + 0x40 * k + ofs) lo n
  let t1 := q 4 5 8 + 1
  let t2 := q 4 13 7 + 1
  let n := (q 4 0 5 + 1) * (1 + t1 + t2)
  let m := (q 8 0 5 + 1) * (1 + (q 8 5 5 + 1) + (q 8 10 4 + 1))
  decide (t1 < 2) || decide (q 4 20 7 + 1 > t2) || decide (q 8 14 4 > q 8 10 4) || decide (n < 80) || decide (n > 8000) || decide (m < 10) || decide (m > n)
/-- An object value that breaks its row (R421). -/
def canObjBad (f : RegFile) (k n : Nat) : Bool :=
  let b := canObjBase k n
  let q (ofs lo w : Nat) : Nat := fileField f 0x0B (b + ofs) lo w
  let send := canObjSend f k n
  let fdf := q 4 29 2
  let len := q 8 0 7
  fdf == 3 || (send && q 4 0 29 != 0) || !canLens.contains len || (fdf == (if send then 0 else 1) && decide (len > 8)) ||
  (send && q 8 9 1 == 1) || (!send && q 8 10 2 != 0) || (send && q 8 11 1 == 0 && decide (q 0xC 0 16 > q 8 12 12)) ||
  q 0xC 22 3 == 7 || decide (q 0xC 16 6 ≥ 2 ^ q 0xC 22 3)
/-- Block 0x0B (R421). -/
def canCheck (s : State) (f : RegFile) : Option Nat :=
  let ks := [0, 1]
  let q (k ofs lo n : Nat) : Nat := fileField f 0x0B (0x140 + 0x40 * k + ofs) lo n
  let now := (blkCfg s 0x0B).inForce
  firstReason [(ks.any (canTimingBad f), 0x0B01),
    (ks.any (fun k => decide (q k 0 0 2 > 1) || q k 0xC 0 2 == 3 || q k 0xC 2 3 == 7 || (q k 0xC 0 2 == 2 && q k 0xC 5 12 == 0)), 0x0B02),
    (ks.any (fun k => (List.range 128).any (canObjBad f k)), 0x0B03), (ks.any (fun k => decide ((hpObjects f k).length > 8)), 0x0B04),
    (ks.any (fun k => q k 0xC 0 2 == 0 && (List.range 128).any (fun n => canObjUsed f k n && fileField f 0x0B (canObjBase k n + 8) 11 1 == 1)), 0x0B05),
    ((guardedPoints s).any (fun p => match p.source with
      | .can k n _ => canObjUsed now k n && (!canObjUsed f k n || canObjSend f k n != canObjSend now k n || canObjLen f k n != canObjLen now k n)
      | _ => false), 0x0B06)]
/-- Block 0x11 (R537). -/
def firmwareCheck (f : RegFile) : Option Nat := firstReason [(decide (fileField f 0x11 0x100 0 12 > 3600), 0x1101)]
/-- Block 0x12 (R156). -/
def trunkCheck (s : State) (f : RegFile) : Option Nat :=
  let l := fileField f 0x12 0x100 0 5
  let c := fileField f 0x12 0x100 8 8
  let n := fileField f 0x12 0x100 16 8
  let bank := match s.ldr.inForce with | some b => (bankSt s b).share | none => 0
  firstReason [(l == 0 || decide (l > 16) || c == 0 || decide (c > 192) || decide (n > 64), 0x1203), (decide (rodShare l c n < 4), 0x1201),
    (decide (rodShare l c n < bank), 0x1202)]
/-- The consistency check of a block on a copy and the other blocks' in-force values. -/
def blockCheck (s : State) (b : Nat) (f : RegFile) : Option Nat :=
  match b with
  | 0x02 => tickCheck s f
  | 0x05 => loaderCheck s f
  | 0x07 => linkCheck s f none
  | 0x08 => pairCheck s f
  | 0x09 => ntmCheck f
  | 0x0A => bedrockCheck s f
  | 0x0B => canCheck s f
  | 0x0C => localCheck s f
  | 0x0D => meterCheck s f
  | 0x10 => wdtCheck s f
  | 0x11 => firmwareCheck f
  | 0x12 => trunkCheck s f
  | _ => none
/-- The check of a change, its own operation included. -/
def workCheck (s : State) (b : Nat) (copy : RegFile) (k : CfgWork) : Option Nat :=
  match k with
  | .commit | .setConfig _ _ => blockCheck s b copy
  | .linkTable _ l t => linkCheck s (blkCfg s 0x07).inForce (some (l, t))
  | .brkOp _ op => match brkOpWrong op with | some c => some c | none => if s.brk.handed.isSome then some 0x0A08 else none
  | .preset _ f a _ _ => presetWrong s f a

/-- The parameters of a reason that has some: the link and the tick position of 0x0710. -/
def reasonParams (s : State) (b : Nat) (copy : RegFile) (new : Option (Nat × List Station)) (c : Nat) : List Nat :=
  if c = 0x0710 then
    match (if b = 0x02 then misfit s (blkCfg s 0x07).inForce (tableWith s none) (625000 * fileField copy 0x02 0x100 0 9)
           else misfit s copy (tableWith s new) (10 * periodNs s)) with
    | some x => [x.1, x.2]
    | none => []
  else []
/-- The parameters of the reason of a change. -/
def workParams (s : State) (b : Nat) (copy : RegFile) (k : CfgWork) (c : Nat) : List Nat :=
  match k with
  | .linkTable _ l t => reasonParams s b (blkCfg s 0x07).inForce (some (l, t)) c
  | _ => reasonParams s b copy none c

/-- A new DOMAIN starts its claims anew: none is stored or seen, and none exhausted (R325, log 105). -/
def newDomain (s : State) : State := { writeClaim s 0 with cry.exhausted := false, cry.seenPartner := 0, cry.seenField := 0 }

/-! ### What a change does at its apply edge -/

/-- What follows from new values of a block, beside the values themselves; `m` is the tick number of the edge. -/
def blockApplied (s : State) (b : Nat) (old : RegFile) (m : Nat) : State :=
  let new := (blkCfg s b).inForce
  match b with
  | 0x02 => if fileField old 0x02 0x100 0 9 = fileField new 0x02 0x100 0 9 then s else endChange s 0x060E
  | 0x05 => if fileReg old 0x05 0x100 = fileReg new 0x05 0x100 then s
      else slateAsk s 4 (.record 4 (leBytes 1 (fileReg new 0x05 0x100).toNat))
  | 0x07 => linkApply s old
  | 0x08 => if pairKept (fileReg old 0x08 0x100) = pairKept (fileReg new 0x08 0x100) then s
      else
        let s1 := slateAsk s 4 (.record 3 (leBytes 4 (pairKept (fileReg new 0x08 0x100)).toNat))
        if fileField old 0x08 0x100 16 16 = fileField new 0x08 0x100 16 16 then s1 else newDomain s1
  | 0x09 => ptpApply s old
  | 0x0A =>
    let same (o lo n : Nat) : Bool := fileField old 0x0A o lo n == fileField new 0x0A o lo n
    let s0 := if same 0x100 0 4 && same 0x108 0 17 then s else trimWindowStart s
    let s1 := if same 0x10C 0 25 then s0 else wakeApplied s0
    let s2 := if trimSource s1 = 0 then { s1 with brk.trim := ofTwos 20 (cfgField s1 0x0A 0x104 0 20), brk.trimSrc := 0#2, brk.trimNext := none } else s1
    if pwronDriven s2 ∧ fileField old 0x0A 0x120 0 2 ≠ 2 then emit { s2 with brk.pwron := true } (.pwron true) else s2
  | 0x0B => canApply s old m
  | 0x0C => localApply s old
  | 0x0D => meterApply s old
  | 0x10 => wdtApply s old
  | 0x12 => if fileReg old 0x12 0x100 = fileReg new 0x12 0x100 then s else endChange s 0x060E
  | _ => s
/-- New in-force values of a block at edge m. -/
def applyFile (s : State) (b : Nat) (new : RegFile) (m : Nat) : State :=
  let old := (blkCfg s b).inForce
  let s1 := if b = 0x0D then meterBeforeApply s else s
  blockApplied (setBlk s1 b (fun c => { c with inForce := new, lastApply := BitVec.ofNat 16 m })) b old m
/-- The registers of a copy that differ from their reset values, as offset and value. -/
def fileBytes (f : RegFile) : List Byte := f.flatMap (fun e => leBytes 4 e.1 ++ leBytes 4 e.2.toNat)
/-- A copy from such a list. -/
def fileOfBytes (b : Nat) (d : List Byte) : RegFile :=
  (List.range (d.length / 8)).foldl (fun f i => fileSet f b (leAt d (8 * i) 4) (BitVec.ofNat 32 (leAt d (8 * i + 4) 4))) []
/-- Every register of a block merged under a mask by register. -/
def mergeFile (b : Nat) (mask : Nat → Dword) (base copy : RegFile) : RegFile :=
  (base ++ copy).foldl (fun f e => fileSet f b e.1 (maskWrite (fileReg base b e.1) (fileReg copy b e.1) (mask e.1))) base
/-- The STAGED fields of a copy over the values in force. -/
def stagedOver (s : State) (b : Nat) (copy : RegFile) : RegFile := mergeFile b (stagedMask b) (blkCfg s b).inForce copy
/-- Fields written under masks: register, mask, value. -/
def writeFields (b : Nat) (f : RegFile) (ws : List (Nat × Dword × Dword)) : RegFile :=
  ws.foldl (fun f e => fileSet f b e.1 (maskWrite (fileReg f b e.1) e.2.2 e.2.1)) f

end Sys2Proof.Machine
end

