-- ==== Sys2Proof/Machine/Carry.lean ====
section
/-! DEFINITION. The pair: the claim, carry frames as they are sent and received, the delta and its seal, resync, readiness, health, self-test, loss of the partner (R318 to R357). -/
namespace Sys2Proof.Machine
open Sys2Proof

/-! ### The claim (R323 to R325) -/

/-- The smallest number above `floor` with bit 0 equal to `pos`. -/
def claimAbove (floor pos : Nat) : Nat := if (floor + 1) % 2 = pos % 2 then floor + 1 else floor + 2
/-- The claim that this unit would raise (R324). -/
def nextClaim (s : State) : Nat := claimAbove (max s.cry.stored.toNat (max s.cry.seenPartner s.cry.seenField)) (positionOf s)
/-- Raise the claim; a claim beyond 24 bits is not raised (R325). -/
def raiseClaim (s : State) : State :=
  let c := nextClaim s
  if c > 0xFFFFFF then record { s with cry.exhausted := true } 0x0808 []
  else { writeClaim s c with cry.claim := some c }

/-- The delta of the running tick is dropped: nothing of it waits for a seal. -/
def dropDelta (s : State) : State :=
  { s with cry.sealTick := none, cry.tracked := [], cry.records := [], cry.firstSeq := none, cry.overflow := false }

/-! ### Lanes (R326) -/

/-- A link is up while its four lanes are: C0 is false, C1 is true. -/
def carryUp (s : State) (link : Bool) : Bool := if link then s.cry.lanes.toNat / 16 == 15 else s.cry.lanes.toNat % 16 == 15
def linkOfLane (lane : Fin 8) : Bool := decide (lane.val ≥ 4)

/-! ### Readiness (R342) -/

/-- Items of the rotation. -/
def selfItems : Nat := 50
/-- Items that have passed within the last 5 s. -/
def itemsPassed (s : State) : Nat := (s.cry.passed.filter (fun e => s.now ≤ e.2 + 5000000000)).length
def coverage (s : State) : Nat := 100 * itemsPassed s / selfItems
/-- The causes that hold; bit 10 is kept until a resync ends. -/
def causesNow (s : State) : Nat :=
  ofBits (((List.range 11).filter (fun i =>
    match i with
    | 0 => !carryUp s false
    | 1 => !carryUp s true
    | 2 => s.cry.syncing
    | 3 => !s.cry.catchUp.isEmpty
    | 4 => (List.range 24).any (fun k => linkEnabled s k && !(linkAt s k).lock)
    | 5 => decide (itemsPassed s < selfItems)
    | 6 => s.pwr.pfw
    | 7 => !(s.cry.pMode == 3#8 || s.cry.pMode == 4#8)
    | 8 => !s.cry.partner
    | 9 => s.cry.exhausted
    | 10 => s.cry.causes.getLsbD 10
    | _ => false)))
/-- The readiness that causes give, the tests in order. -/
def readinessOf (c : Nat) : Nat :=
  if field c 6 4 ≠ 0 ∨ field c 0 2 = 3 then 3
  else if bitOf c 2 ∨ bitOf c 3 ∨ bitOf c 10 then 1
  else if bitOf c 0 ∨ bitOf c 1 ∨ bitOf c 4 ∨ bitOf c 5 then 2
  else 0
/-- The standby's readiness is brought up to date, and a change of it recorded. -/
def refreshReady (s : State) : State :=
  if s.tck.mode ≠ .shadow then s
  else
    let c := causesNow s
    let r := readinessOf c
    let old := s.cry.readiness.toNat
    let s1 := { s with cry.causes := BitVec.ofNat 16 c, cry.readiness := BitVec.ofNat 2 r }
    if r = old then s1 else record s1 0x0822 [old, r, c]
/-- READINESS as HEARTBEAT gives it. -/
def readinessSent (s : State) : Nat := if s.tck.mode = .shadow then s.cry.readiness.toNat else 3
/-- CRY_STATUS.READINESS (R355). -/
def readinessShown (s : State) : Nat :=
  if s.tck.mode = .shadow then s.cry.readiness.toNat else if partnerShadow s then s.cry.pReady.toNat % 4 else 3

/-- CARRY_LANE_DOWN. -/
def carryLaneDown (s : State) (lane : Fin 8) : State :=
  if s.tck.mode = .dormant ∨ !s.cry.lanes.getLsbD lane.val then s
  else
    let k := linkOfLane lane
    let s1 := { s with cry.lanes := s.cry.lanes &&& ~~~(1#8 <<< lane.val)
                       cry.down := if carryUp s k then satAdd s.cry.down 1 else s.cry.down
                       cry.readyBefore := if carryUp s k && !carryUp s (!k) then s.cry.readiness else s.cry.readyBefore }
    refreshReady (record s1 0x0827 [b2n k, lane.val])
/-- CARRY_LINK_UP. -/
def carryLinkUp (s : State) (k : Bool) : State :=
  if s.tck.mode = .dormant ∨ carryUp s k then s
  else refreshReady (record { s with cry.lanes := s.cry.lanes ||| (if k then 0xF0#8 else 0x0F#8) } 0x0828 [b2n k])

/-! ### The delta as it is sent (R335 to R337) -/

/-- Words packed three octets each (R287), in records of 8 octets. -/
def packWords (ws : List Word) : List Nat :=
  let bs := ws.flatMap (fun w => leBytes 3 w.toNat)
  (List.range (ceilDiv bs.length 8)).map (fun i => leAt bs (8 * i) 8)
/-- The records of a tracked write. -/
def deltaRecords (t : Tracked) : List Nat :=
  match t with
  | .output p v => [2 ^ 60 + 2 ^ 23 * (v % 2 ^ 24) + p % 2 ^ 23]
  | .row r v => [2 * 2 ^ 60 + 2 ^ 19 * (v % 2 ^ 24) + r % 2 ^ 19]
  | .cache seg ofs v => [3 * 2 ^ 60 + 2 ^ 35 * (v % 2 ^ 24) + 2 ^ 16 * (ofs % 2 ^ 19) + seg % 2 ^ 16]
  | .trunk seg ofs ws => (4 * 2 ^ 60 + 2 ^ 46 * ((ws.length - 1) % 256) + 2 ^ 22 * (ofs % 2 ^ 24) + (seg - 0x100000) % 2 ^ 22) :: packWords ws
/-- The order in which tracked writes enter: cycle, rod, L slot. -/
def trackBefore (a b : TrackRec) : Bool :=
  if a.cycle ≠ b.cycle then decide (a.cycle < b.cycle) else if a.rod ≠ b.rod then decide (a.rod < b.rod) else decide (a.lslot ≤ b.lslot)
def insertTrack (x : TrackRec) : List TrackRec → List TrackRec
  | [] => [x]
  | y :: r => if trackBefore x y then x :: y :: r else y :: insertTrack x r
def sortTracked (ts : List TrackRec) : List TrackRec := ts.foldr insertTrack []
/-- The output points that a tracked image store writes, with their values (R111). -/
def trackPoints (tbl : SMap Point) (t : Tracked) : List (Nat × Nat) :=
  match t with
  | .output ref v => [(ref % 2 ^ 23, v)]
  | .row r v => (rowPoints r).filterMap (fun p => match smGet tbl p with
      | some pt => if !pt.word && pt.output then some (p, b2n (v.testBit (p - 24 * r))) else none
      | none => none)
  | _ => []
/-- The value that the last of some image stores writes to a point. -/
def lastValue (tbl : SMap Point) (ts : List TrackRec) (p : Nat) : Option Nat :=
  ts.foldl (fun acc t => match (trackPoints tbl t.what).find? (fun e => e.1 = p) with | some e => some e.2 | none => acc) none
/-- What of a tracked write enters beside later ones of its cycle: of the stores that meet in one word or point only the value that
remains, and a row store carries what remains of its bits (R189). -/
def remains (tbl : SMap Point) (x : TrackRec) (later : List TrackRec) : Option TrackRec :=
  match x.what with
  | .cache seg ofs _ =>
    if later.any (fun y => match y.what with | .cache g o _ => y.rod == x.rod && g == seg && o == ofs | _ => false) then none else some x
  | .trunk _ _ _ => some x
  | .output ref _ => if (lastValue tbl later (ref % 2 ^ 23)).isSome then none else some x
  | .row r v =>
    let ps := trackPoints tbl x.what
    if !ps.isEmpty && ps.all (fun e => (lastValue tbl later e.1).isSome) then none
    else
      let bit (i : Nat) : Bool := match lastValue tbl later (24 * r + i) with | some b => decide (b % 2 = 1) | none => v.testBit i
      some { x with what := .row r (ofBits ((List.range 24).filter bit)) }
/-- The tracked writes of a sorted list that enter the delta. -/
def settled (tbl : SMap Point) : List TrackRec → List TrackRec
  | [] => []
  | x :: rest =>
    match remains tbl x (rest.filter (fun y => y.cycle = x.cycle)) with
    | some y => y :: settled tbl rest
    | none => settled tbl rest
/-- The delta records of tracked writes, newest first. -/
def recordsOf (s : State) (ts : List TrackRec) : List Nat :=
  (settled (pointTable s) (sortTracked ts.reverse)).flatMap (fun t => deltaRecords t.what)
/-- A rod cycle that every rod has passed: no store of it is still to come. -/
def cyclePassed (s : State) (c : Nat) : Bool := s.tck.phase == .ended || s.rods.rods.toList.all (fun r => r.run == .done || decide (c < r.cycle))
/-- Records leave in DELTA frames of at most 128 (R327). -/
def sendRecords : Nat → State → List Nat → State
  | 0, s, _ => s
  | fuel + 1, s, rs =>
    match rs with
    | [] => s
    | _ =>
      let s1 := { s with cry.records := (rs.take 128).reverse ++ s.cry.records }
      sendRecords fuel (carrySendSeq s1 0x44 ((rs.take 128).flatMap (leBytes 8))) (rs.drop 128)
def sendAll (s : State) (rs : List Nat) : State := sendRecords (rs.length / 128 + 1) s rs
/-- Every record of the cycles that are past leaves. -/
def flushDelta (s : State) : State :=
  sendAll { s with cry.tracked := s.cry.tracked.filter (fun t => !cyclePassed s t.cycle) } (recordsOf s (s.cry.tracked.filter (fun t => cyclePassed s t.cycle)))
/-- The tick that runs sends no compute: a HOLD tick that is not stepped (R336). A swap that STEP has ordered after that seal goes out with
a second seal of the tick, so that both units swap at the same edge (R263, R267, log 32). -/
def emptySealDue (s : State) : Bool :=
  !s.tck.computing && (s.tck.mode == .run || s.tck.mode == .hold) && holdsClaim s && partnerShadow s && (s.tck.sealOfs.isNone || s.cry.swapSeal)
/-- The order that a pending switchover gives with this tick's seal, and whether the seal carries it (R350, log 32). -/
def switchFlag (s : State) : Bool × State :=
  match s.cry.switchover with
  | none => (false, s)
  | some x =>
    match x.orderedAt with
    | none => (true, { s with cry.switchover := some { x with orderedAt := some s.tck.tick.toNat } })
    | some _ =>
      if x.confirmed then (true, s)
      else (false, { s with cry.switchover := some { x with orderedAt := none, postponed := x.postponed + 1 } })
/-- The seal of the running tick (R336); a swap decision of this tick is taken with it (log 32). -/
def sendSeal (s : State) : State :=
  let s := if s.tck.mode = .run then swapDecision s (nextEdge s) else s
  let x := switchFlag s
  let s := x.2
  let rs := s.cry.records.reverse
  let flags := b2n s.tck.computing + 2 * b2n s.cry.overflow + 4 * b2n s.cry.swapSeal + 8 * b2n x.1
  let first := s.cry.firstSeq.getD s.cry.nextSeq
  let body := leBytes 8 s.tck.tick.toNat ++ leBytes 4 rs.length ++ leBytes 4 (crc32 (rs.flatMap (leBytes 8))) ++ leBytes 1 (modeNo s.tck.mode) ++
    leBytes 1 flags ++ leBytes 1 (bankNo s.chg.target) ++ leBytes 1 0 ++ leBytes 4 first
  let n := roundFree (carrySendSeq s 0x53 body) (8 * rs.length) 64
  let last := BitVec.ofNat 24 (min n.1 0xFFFFFF)
  { n.2 with cry.applied := BitVec.ofNat 32 s.tck.tick.toNat, cry.deltaLast := last
             cry.deltaMax := if last.toNat > s.cry.deltaMax.toNat then last else s.cry.deltaMax
             cry.swapSeal := false, cry.sealTick := none, cry.records := [], cry.firstSeq := none, cry.tracked := [], cry.overflow := false
             tck.sealOfs := some s.tck.ofs }
/-! ### Resync, on the active unit (R341; log 30 for the layouts of areas) -/

/-- Instance segments of a bank, of the DRAM or of the instance caches, in the order of their area. -/
def bankSegs (s : State) (b : BankId) (dram : Bool) : List (Nat × SegDesc) :=
  match (bankSt s b).prog with
  | none => []
  | some p =>
    if dram then p.segs.filter (fun e => e.2.kind == 2)
    else (List.range 48).flatMap (fun r => p.segs.filter (fun e => e.2.kind == 1 && e.2.owner == r))
/-- The banks whose instance data the areas hold: the one in force, and the target while an online change runs. -/
def syncBanks (s : State) : List BankId :=
  match s.ldr.inForce with
  | none => []
  | some b => if s.chg.stage = .idle ∨ s.chg.target = b then [b] else [b, s.chg.target]
/-- Bank, segment and length of every segment of area 1 or 0. -/
def areaSegs (s : State) (dram : Bool) : List (BankId × Nat × Nat) :=
  (syncBanks s).flatMap (fun b => (bankSegs s b dram).map (fun e => (b, e.1, e.2.length)))
/-- A CONTROL record as area 7 holds it. -/
def controlBytes (c : Control) : List Byte := leBytes 4 c.apply.toNat ++ leBytes 2 c.code.toNat ++ leBytes 4 c.data.length ++ c.data
/-- The CONTROL record of a register COMMIT (R339): block, offset of PFX_COMMIT, COMMIT 1, then the registers of the copy. -/
def commitData (b : Nat) (f : RegFile) : List Byte := leBytes 1 b ++ leBytes 3 0 ++ leBytes 4 4 ++ leBytes 4 1 ++ fileBytes f
/-- The CONTROL record of a register write: block, offset, value. -/
def liveData (b ofs : Nat) (v : Dword) : List Byte := leBytes 1 b ++ leBytes 3 0 ++ leBytes 4 ofs ++ leBytes 4 v.toNat
/-- The SET_CONFIG payload that makes the same change: STAGED registers that differ from the values in force, and the RW and LIVE fields. -/
def setConfigData (s : State) (b : Nat) (copy : RegFile) (rw : List (Nat × Dword × Dword)) : List Byte :=
  let now := (blkCfg s b).inForce
  let moved := ((now ++ copy).map (fun e => e.1)).eraseDups.filter (fun o => (fileReg now b o ^^^ fileReg copy b o) &&& stagedMask b o != 0#32)
  let entry (o : Nat) (m v : Dword) : List Byte := leBytes 4 o ++ leBytes 4 m.toNat ++ leBytes 4 v.toNat
  leBytes 1 b ++ leBytes 3 0 ++ moved.flatMap (fun o => entry o (stagedMask b o) (fileReg copy b o)) ++
    (rw.filter (fun e => e.1 != 8)).flatMap (fun e => entry e.1 e.2.1 e.2.2)
/-- Code and data of the CONTROL record of a change of block b that has passed its check. -/
def controlOf (s : State) (b : Nat) (copy : RegFile) (k : CfgWork) : Nat × List Byte :=
  match k with
  | .commit => (0, commitData b (stagedOver s b copy))
  | .setConfig _ rw => (0x0105, setConfigData s b copy rw)
  | .linkTable _ l t => (0x0701, leBytes 1 l ++ leBytes 3 0 ++ t.flatMap stationBytes)
  | .brkOp _ (.set sec sub) => (0x0A01, leBytes 6 sec ++ leBytes 2 sub)
  | .brkOp _ (.shift n) => (0x0A02, leBytes 2 (toTwos 16 n) ++ leBytes 2 0)
  | .preset _ f a v w => (0x0D02, leBytes 1 f ++ leBytes 1 a ++ leBytes 6 v ++ leBytes 1 w)
/-- The pending changes of the active unit; CRY_CONFIG is never carried (R319). -/
def pendingControls (s : State) : List Control :=
  (List.range 20).filterMap (fun b =>
    match (blkCfg s b).pend with
    | some p =>
      if b = 0x08 then none
      else
        let c := controlOf s b p.copy p.work
        some { apply := BitVec.ofNat 32 (dueTick s p.passedAt), code := BitVec.ofNat 16 c.1
               data := if c.1 = 0 then c.2 else leBytes 4 c.2.length ++ c.2 }
    | none => none)
def phaseNo (p : BankPhase) : Nat := match p with | .empty => 0 | .loading => 1 | .loaded => 2 | .admitted => 3
def stageNo (g : ChgStage) : Nat := match g with | .idle => 0 | .first => 1 | .converging => 2 | .ordered => 3
def bankBytes (q : BankSt) : List Byte := leBytes 1 (phaseNo q.phase) ++ leBytes 3 0 ++ leBytes 4 (if q.phase = .loading then q.length else q.image.length)
/-- One entry of area 6: block, what it is, its length in units of 8 octets, its octets. -/
def areaEntry (b kind : Nat) (d : List Byte) : List Byte := leBytes 1 b ++ leBytes 1 kind ++ leBytes 2 (d.length / 8) ++ d
/-- Area 6: of each block its values in force (0) and its stage copy (1), and of block 0x07 the station table of link k (2 + k). -/
def settingsBytes (s : State) : List Byte :=
  (List.range 18).flatMap (fun i =>
    let b := i + 2
    if b = 0x08 then [] else areaEntry b 0 (fileBytes (blkCfg s b).inForce) ++ areaEntry b 1 (fileBytes (blkCfg s b).stage)) ++
  (List.range 24).flatMap (fun k => areaEntry 0x07 (2 + k) ((linkAt s k).table.flatMap stationBytes))
/-- The octets of an area, in whole records; the total stands in area 7. -/
def areaOctets (s : State) (total a : Nat) : List Byte :=
  let bs : List Byte :=
    match a with
    | 7 =>
      leBytes 4 (claimKnown s) ++ leBytes 8 s.tck.tick.toNat ++ leBytes 8 total ++
      leBytes 1 (match s.ldr.inForce with | none => 0 | some .a => 1 | some .b => 2) ++ leBytes 1 (stageNo s.chg.stage) ++ leBytes 1 (bankNo s.chg.target) ++
      leBytes 1 (pendingControls s).length ++ bankBytes s.ldr.a ++ bankBytes s.ldr.b ++ (pendingControls s).flatMap controlBytes
    | 6 => settingsBytes s
    | 4 => s.ldr.a.image
    | 5 => s.ldr.b.image
    | 3 => s.img.forces.flatMap (fun e =>
        forceEntry e)
    | 2 => s.img.outs.flatMap (fun e => leBytes 3 e.2.work.toNat)
    | 1 => (areaSegs s true).flatMap (fun e => (List.range e.2.2).flatMap (fun i => leBytes 3 (instWordNew s e.1 (wordKey e.2.1 i)).toNat))
    | _ => (areaSegs s false).flatMap (fun e => (List.range e.2.2).flatMap (fun i => leBytes 3 (instWordNew s e.1 (wordKey e.2.1 i)).toNat))
  padTo (8 * ceilDiv bs.length 8) bs
/-- The order of the areas. -/
def areaOrder : List Nat := [7, 6, 4, 5, 3, 2, 1, 0]
/-- Octets of all areas. -/
def syncOctets (s : State) : Nat := areaOrder.foldl (fun n a => n + (areaOctets s 0 a).length) 0
/-- A resync starts on the active unit. -/
def startBulk (s : State) : State :=
  let x := roundFree s (syncOctets s) 1048576
  record { x.2 with cry.bulk := areaOrder.map (fun a => (a, 0)), cry.bulkDone := 0, cry.syncVolume := BitVec.ofNat 24 x.1, cry.syncProgress := 0#7 } 0x0823 [x.1]
/-- One BULK record is placed: its octets are read now, and no record made before waits. -/
def bulkPlace (s : State) : State :=
  if s.cry.sealTick ≠ some s.tck.tick ∨ s.cry.overflow then s
  else
    match s.cry.bulk with
    | [] => s
    | (a, ofs) :: rest =>
      let s1 := flushDelta s
      let total := syncOctets s1
      let all := areaOctets s1 total a
      let d := slice all ofs 1016
      let next := if ofs + d.length ≥ all.length then rest else (a, ofs + d.length) :: rest
      let done := s1.cry.bulkDone + d.length
      let x := roundFree { s1 with cry.bulk := next, cry.bulkDone := done } (100 * min done total) (max total 1)
      let s2 := { x.2 with cry.syncProgress := BitVec.ofNat 7 x.1 }
      if d.isEmpty then s2
      else sendAll s2 ((5 * 2 ^ 60 + 2 ^ 56 * a + 2 ^ 48 * (d.length / 8) + ofs) :: (List.range (d.length / 8)).map (fun i => leAt d (8 * i) 8))

/-- SEAL_SEND: after compute end and the last record; in a tick without compute, with no records. -/
def sealSend (s : State) : State :=
  if s.cry.sealTick = some s.tck.tick ∧ s.tck.phase = .ended then
    let s1 := flushDelta s
    sendSeal (if s1.cry.queueFull then startBulk s1 else s1)
  else if emptySealDue s then sendSeal { s with cry.records := [], cry.overflow := false }
  else s

/-- SEAL_OVERFLOW: no seal by deadline − 0.5 µs: some records have left, every other is discarded; the seal leaves now, or at
compute end, and a resync starts (R340 case 0). -/
def sealOverflow (s : State) : State :=
  if s.cry.sealTick ≠ some s.tck.tick ∨ s.tck.sealOfs.isSome ∨ s.cry.overflow then s
  else
    let rs := recordsOf s s.cry.tracked
    let n := freeNat s
    let s1 := sendAll { n.2 with cry.tracked := [] } (rs.take (n.1 % (rs.length + 1)))
    let s2 := startBulk { s1 with cry.overflow := true }
    if s2.tck.phase = .ended then sendSeal s2 else s2

/-! ### Frames as they arrive (R327 to R330) -/

def carryType (f : List Byte) : Nat := leAt f 0 1
def carrySeq (f : List Byte) : Nat := leAt f 2 4
def carryTick (f : List Byte) : Nat := leAt f 6 4
def carryClaim (f : List Byte) : Nat := leAt f 10 3
/-- Payload of a frame. -/
def carryBody (f : List Byte) : List Byte := slice f 15 (8 * leAt f 1 1)
def carryTypes : List Nat := [0x44, 0x53, 0x43, 0x48, 0x46, 0x4E, 0x52, 0x50]
/-- A frame that passes its checks. -/
def carryOk (f : List Byte) : Bool :=
  let n := leAt f 1 1
  decide (f.length ≥ 15) && leAt f 13 2 == crc16 (f.take 13) && carryTypes.contains (carryType f) && decide (n ≤ 128) &&
  (if n = 0 then f.length == 15 else f.length == 15 + 8 * n + 8 && leAt f (15 + 8 * n) 4 == crc32 (f.take (15 + 8 * n)))
/-- A frame discarded on a lane. -/
def countCrc (s : State) (lane : Fin 8) : State :=
  if linkOfLane lane then { s with cry.crcC1 := satAdd s.cry.crcC1 1, cry.sinceC1 := s.cry.sinceC1 + 1 }
  else { s with cry.crcC0 := satAdd s.cry.crcC0 1, cry.sinceC0 := s.cry.sinceC0 + 1 }
/-- The partner's claim, kept in slate when it is new (R355). -/
def seePartner (s : State) (c : Nat) : State :=
  let s1 := { s with cry.seenPartner := c }
  if c > s1.cry.stored.toNat then writeClaim s1 c else s1
/-- A frame of the given types arrives: checks, then its effect. Nothing is received in DORMANT, before BOOT step 7, on a
lane that is down, or without a pair. -/
def carryRx (s : State) (lane : Fin 8) (f : List Byte) (types : List Nat) (k : State → State) : State :=
  if !mailboxUp s ∨ !isPair s ∨ !s.cry.lanes.getLsbD lane.val then s
  else if !carryOk f then countCrc s lane
  else if types.contains (carryType f) then k (seePartner s (carryClaim f))
  else s

/-- A resync of the standby begins: it reports SYNCING. -/
def startSync (s : State) : State :=
  refreshReady { s with cry.syncing := true, cry.syncProgress := 0#7, cry.rxAreas := [], cry.rxTotal := 0, cry.rxArea := none, cry.bulkDone := 0 }
/-- A carry-delta overflow at the standby (R340). -/
def overflowAt (s : State) (tick case' : Nat) : State := startSync (record s 0x0825 [tick % 2 ^ 24, case'])

/-- Octets of a record area that hold a word: the word with the octets from `ofs` on replaced. -/
def spliceWord (old : Word) (i ofs : Nat) (d : List Byte) : Word :=
  BitVec.ofNat 24 (leNat ((List.range 3).map (fun j =>
    let o := 3 * i + j
    if ofs ≤ o ∧ o < ofs + d.length then d.getD (o - ofs) 0#8 else BitVec.ofNat 8 (old.toNat / 2 ^ (8 * j)))))
/-- Words of an area of 3 octets each that octets from `ofs` on touch. -/
def wordsTouched (ofs n : Nat) : List Nat := (List.range (ceilDiv (ofs + n) 3 - ofs / 3)).map (fun i => ofs / 3 + i)
/-- Octets of area 2 reach the output working copy. -/
def bulkOuts (s : State) (ofs : Nat) (d : List Byte) : State :=
  (wordsTouched ofs d.length).foldl (fun s i =>
    match s.img.outs[i]? with
    | some e => { s with img.outs := smPut s.img.outs e.1 { e.2 with work := spliceWord e.2.work i ofs d } }
    | none => s) s
/-- The segment and offset of word i of area 1 or 0. -/
def areaWord : List (BankId × Nat × Nat) → Nat → Option (BankId × Nat)
  | [], _ => none
  | e :: r, i => if i < e.2.2 then some (e.1, wordKey e.2.1 i) else areaWord r (i - e.2.2)
/-- Octets of area 1 or 0 reach the instance data. -/
def bulkData (s : State) (dram : Bool) (ofs : Nat) (d : List Byte) : State :=
  let segs := areaSegs s dram
  (wordsTouched ofs d.length).foldl (fun s i =>
    match areaWord segs i with
    | some w => putInst s w.1 w.2 (spliceWord (instWord s w.1 w.2) i ofs d)
    | none => s) s
/-- The CONTROL records that area 7 holds. -/
def parseControls : Nat → List Byte → List Control
  | 0, _ => []
  | n + 1, d =>
    if d.length < 10 then []
    else
      let len := leAt d 6 4
      { apply := BitVec.ofNat 32 (leAt d 0 4), code := BitVec.ofNat 16 (leAt d 4 2), data := slice d 10 len } :: parseControls n (d.drop (10 + len))
/-- The entries that area 6 holds: block, what it is, octets. -/
def parseCopies : Nat → List Byte → List (Nat × Nat × List Byte)
  | 0, _ => []
  | fuel + 1, d =>
    let b := leAt d 0 1
    let n := leAt d 2 2
    if d.length < 4 ∨ b < 2 ∨ b > 19 then []
    else (b, leAt d 1 1, slice d 4 (8 * n)) :: parseCopies fuel (d.drop (4 + 8 * n))
/-- One entry of area 6 at the standby; CRY_CONFIG is never taken (R319), and watchdog settings wait for their apply edge (R508). -/
def takeCopy (s : State) (b kind : Nat) (d : List Byte) : State :=
  if b = 0x08 then s
  else match kind with
  | 0 =>
    let f := fileOfBytes b d
    let s1 := if b = 0x10 then { s with wdt.locked := true } else s
    if f = (blkCfg s1 b).inForce then s1
    else if b = 0x10 then setBlk s1 b (fun c => { c with written := f, pend := some { copy := f, work := .commit, passedAt := s1.now - 2000 } })
    else applyFile (setBlk s1 b (fun c => { c with written := f })) b f s1.tck.tick.toNat
  | 1 => setBlk s b (fun c => { c with stage := fileOfBytes b d })
  | k + 2 =>
    match parseTable d with
    | some t => if k < 24 ∧ b = 0x07 ∧ t ≠ (linkAt s k).table then tableApply s k t else s
    | none => s
/-- The bank that area 7 gives as in force. -/
def rxInForce (s : State) : Option BankId :=
  match leAt (smGetD s.cry.rxAreas 7 []) 20 1 with | 1 => some .a | 2 => some .b | _ => none
/-- The phase that area 7 gives a bank. -/
def rxPhase (s : State) (b : BankId) : Nat := leAt (smGetD s.cry.rxAreas 7 []) (24 + 8 * bankNo b) 1
def rxLength (s : State) (b : BankId) : Nat := leAt (smGetD s.cry.rxAreas 7 []) (28 + 8 * bankNo b) 4
/-- A bank area is over: an image is verified, and comes into force where the active unit has it in force (R341); a bank that is EMPTY or
LOADING at the active unit is so here. -/
def bulkBank (s : State) (b : BankId) (d : List Byte) : State :=
  let img := d.take (rxLength s b)
  match rxPhase s b with
  | 0 => setBank s b (fun q => { BankSt.reset with stored := q.stored })
  | 1 => if (bankSt s b).phase = .loading then s
    else setBank s b (fun q => { BankSt.reset with stored := q.stored, phase := .loading, length := rxLength s b })
  | _ =>
    let old := pointTable s
    let p := parseBank img
    let s1 := setBank s b (fun q => { q with phase := .loaded, length := img.length, chunks := [], image := img, prog := some p, data := initialData p })
    let s2 := { s1 with ldr.verify := s1.ldr.verify.filter (fun v => v.bank != b || v.who.isSome) ++ [{ bank := b, who := none }] }
    if rxInForce s2 = some b then dropForces (newTable { s2 with ldr.inForce := some b } old p.points s2.tck.tick.toNat false) p.points else s2
/-- A change that runs builds its lines anew from the copied data of the old bank; its constant units are its own count (R259, R271). -/
def syncChange (s : State) : State :=
  match s.chg.stage, (bankSt s s.chg.target).prog, bankInForce s with
  | .first, some p, some old => { s with chg.toBuild := allLines p, chg.constUnits := constUnits old p }
  | _, _, _ => s
/-- An area is over: it has come whole, or it is empty and sends no record. -/
def areaDone (s : State) (a : Nat) : State :=
  let d := smGetD s.cry.rxAreas a []
  match a with
  | 7 =>
    let n := leAt d 23 1
    let s1 := { s with cry.controls := s.cry.controls ++ parseControls n (d.drop 40) }
    let tgt := bankOfNo (leAt d 22 1)
    let s2 := if leAt d 21 1 = 0 then endChange s1 0x060C else { s1 with chg := { chgOver s1 tgt with stage := .first } }
    if (rxInForce s2).isNone then { s2 with ldr.inForce := none, img.ins := [], img.outs := [] } else s2
  | 6 => saveSettings ((parseCopies (d.length + 1) d).foldl (fun s e => takeCopy s e.1 e.2.1 e.2.2) s)
  | 4 => bulkBank s .a d
  | 5 => bulkBank s .b d
  | 3 =>
    { s with img.forces := (List.range (d.length / 12)).foldl (fun m i =>
        let v := leAt d (12 * i + 4) 4
        let r := leAt d (12 * i) 4
        if v = 0 then m else smPut m (r % 2 ^ 23) (forceAt (pointTable s) r v (leAt d (12 * i + 8) 4))) [] }
  | 0 => syncChange s
  | _ => s
/-- The part of a record whose area is taken word by word as it comes. -/
def bulkWords (s : State) (a ofs : Nat) (d : List Byte) : State :=
  match a with
  | 2 => bulkOuts s ofs d
  | 1 => bulkData s true ofs d
  | 0 => bulkData s false ofs d
  | _ => s
/-- The areas from one on, in the order in which they come. -/
def areasFrom (a : Nat) : List Nat := areaOrder.drop (areaOrder.findIdx (fun b => b == a))
/-- The area that a record belongs to: the one that was open, and those after it that are empty, are over. -/
def bulkArea (s : State) (a : Nat) : State :=
  match s.cry.rxArea with
  | some b => ((areasFrom b).filter (fun x => !(areasFrom a).contains x)).foldl areaDone s
  | none => s
/-- The first record of a resync tells its volume. -/
def bulkVolume (s : State) (a ofs : Nat) (d : List Byte) : State :=
  if a = 7 ∧ ofs = 0 then
    let x := roundFree { s with cry.rxTotal := leAt d 12 8 } (leAt d 12 8) 1048576
    record { x.2 with cry.syncVolume := BitVec.ofNat 24 x.1 } 0x0823 [x.1]
  else s
/-- Progress of a resync, in percent. -/
def bulkProgress (s : State) : State :=
  let x := roundFree s (100 * min s.cry.bulkDone s.cry.rxTotal) (max s.cry.rxTotal 1)
  { x.2 with cry.syncProgress := BitVec.ofNat 7 x.1 }
/-- One BULK record reaches the standby. -/
def applyBulk (s : State) (a ofs : Nat) (d : List Byte) : State :=
  let s0 := if a = 7 ∧ ofs = 0 then startSync s else s
  let s1 := bulkArea s0 a
  let held := smGetD s1.cry.rxAreas a []
  let s2 := { s1 with cry.rxArea := some a, cry.bulkDone := s1.cry.bulkDone + d.length
                      cry.rxAreas := if a = 0 ∨ a = 1 ∨ a = 2 then s1.cry.rxAreas else smPut s1.cry.rxAreas a (padTo ofs held ++ d) }
  let s5 := bulkProgress (bulkWords (bulkVolume s2 a ofs d) a ofs d)
  if s5.cry.rxTotal ≠ 0 ∧ s5.cry.bulkDone ≥ s5.cry.rxTotal then (areasFrom a).foldl areaDone { s5 with cry.rxArea := none } else s5
/-- The last octet of a resync has come. -/
def syncWhole (s : State) : Bool := s.cry.syncing && s.cry.rxTotal != 0 && decide (s.cry.bulkDone ≥ s.cry.rxTotal)
/-- Both banks that the active unit admitted are admitted. -/
def syncComplete (s : State) : Bool := syncWhole s && [BankId.a, .b].all (fun b => rxPhase s b != 3 || (bankSt s b).phase == .admitted)
/-- The verifier has rejected a bank that the active unit has admitted (R339). -/
def verdictDiffers (s : State) : Bool :=
  syncWhole s && [BankId.a, .b].any (fun b => rxPhase s b == 3 && (bankSt s b).phase == .loaded && !s.ldr.verify.any (fun v => v.bank == b))
/-- A resync ends. -/
def endSync (s : State) : State :=
  if s.tck.mode = .shadow ∧ verdictDiffers s then refreshReady { s with cry.causes := s.cry.causes ||| 0x400#16 }
  else if s.tck.mode = .shadow ∧ syncComplete s then
    refreshReady (record { s with cry.syncing := false, cry.syncProgress := 100#7, cry.causes := s.cry.causes &&& 0xFBFF#16, cry.rxAreas := [], cry.rxTotal := 0, cry.bulkDone := 0 }
      0x0824 [])
  else s

/-- Lines of the bank in force that a late word of the bank before it marks: they are built anew (R267). -/
def markCatchUp (s : State) (seg ofs : Nat) : State :=
  match bankInForce s with
  | some b => { s with cry.catchUp := s.cry.catchUp ++ (linesReading b seg ofs).filter (fun l => !s.cry.catchUp.contains l) }
  | none => s
/-- A store of a word of an instance segment at the standby; its own migration follows. `late` is the bank that was in force when the tick
computed, where the standby has swapped since (R267). -/
def deltaWord (s : State) (late : Option BankId) (seg ofs : Nat) (v : Word) : State :=
  match late, s.ldr.inForce with
  | some b, _ => markCatchUp (putInst s b (wordKey seg ofs) v) seg ofs
  | none, some b => markDirty (putInst s b (wordKey seg ofs) v) seg ofs 1
  | none, none => s
/-- An output working copy written by a delta record. -/
def deltaOut (s : State) (p : Nat) (v : Word) : State :=
  match smGet s.img.outs p with
  | some o => { s with img.outs := smPut s.img.outs p { o with work := v } }
  | none => s
/-- The records of a tick in order; none when one of them is invalid (R335). -/
def applyRecords (late : Option BankId) : Nat → List Nat → State → Option State
  | 0, _, s => some s
  | fuel + 1, rs, s =>
    match rs with
    | [] => some s
    | r :: rest =>
      match field r 60 4 with
      | 0 => applyRecords late fuel rest s
      | 1 => applyRecords late fuel rest (deltaOut s (field r 0 23) (BitVec.ofNat 24 (field r 23 24)))
      | 2 =>
        let row := field r 0 19
        let tbl := pointTable s
        applyRecords late fuel rest ((rowPoints row).foldl (fun s p =>
          match smGet tbl p with
          | some pt => if !pt.word && pt.output then deltaOut s p (BitVec.ofNat 24 (b2n ((field r 19 24).testBit (p - 24 * row)))) else s
          | none => s) s)
      | 3 => applyRecords late fuel rest (deltaWord s late (0x010000 + field r 0 16) (field r 16 19) (BitVec.ofNat 24 (field r 35 24)))
      | 4 =>
        let n := field r 46 8 + 1
        let k := ceilDiv (3 * n) 8
        let ws := wordsAt ((rest.take k).flatMap (leBytes 8)) n
        let s1 := (ws.foldl (fun (acc : State × Nat) w => (deltaWord acc.1 late (0x100000 + field r 0 22) acc.2 w, acc.2 + 1)) (s, field r 22 24)).1
        applyRecords late fuel (rest.drop k) s1
      | 5 =>
        let k := field r 48 7
        applyRecords late fuel (rest.drop k) (applyBulk s (field r 56 4) (field r 0 48) ((rest.take k).flatMap (leBytes 8)))
      | _ => none

/-- Sequence number a is before b, modulo 2^32. -/
def seqBefore (a b : Nat) : Bool := decide (a ≠ b) && decide ((2 ^ 32 + b - a) % 2 ^ 32 < 2 ^ 31)
/-- Sequence numbers from a up to b. -/
def seqSpan (a b : Nat) : List Nat := (List.range ((2 ^ 32 + b - a) % 2 ^ 32 + 1)).map (fun i => (a + i) % 2 ^ 32)
/-- A seal as its frame holds it. -/
def sealOf (f : List Byte) : Seal :=
  let p := carryBody f
  { tick := BitVec.ofNat 64 (leAt p 0 8), records := leAt p 8 4, dcrc := leAt p 12 4, mode := leAt p 16 1, flags := leAt p 17 1, bank := leAt p 18 1
    firstSeq := leAt p 20 4, seq := carrySeq f }
/-- Every frame of a sealed tick has arrived. -/
def sealWhole (s : State) (x : Seal) : Bool := (seqSpan x.firstSeq x.seq).all (fun n => (smGet s.cry.rxFrames n).isSome)
/-- The frames of a tick are let go. -/
def dropFrames (s : State) (x : Seal) : State :=
  { s with cry.rxSeals := s.cry.rxSeals.filter (fun y => y.seq != x.seq)
           cry.rxFrames := s.cry.rxFrames.filter (fun e => seqBefore x.seq e.1) }
/-- The standby's change takes the order that a seal carries (R267). -/
def takeSwap (s : State) (x : Seal) : State :=
  if bitOf x.flags 2 ∧ s.chg.stage ≠ .idle then
    { s with chg.stage := .ordered, chg.target := bankOfNo x.bank, chg.swapAt := some (x.tick.toNat + 1), chg.swapTick := BitVec.ofNat 32 (x.tick.toNat + 1) }
  else s
/-- The records of a sealed tick, from the frames that hold them. -/
def sealBytes (s : State) (x : Seal) : List Byte :=
  (seqSpan x.firstSeq x.seq).flatMap (fun n =>
    match smGet s.cry.rxFrames n with
    | some f => if carryType f = 0x44 then carryBody f else []
    | none => [])
/-- What a seal says beside its records: a launch, the tick applied, a switchover (R338, R350). -/
def sealSays (s : State) (x : Seal) : State :=
  let s2 := if bitOf x.flags 0 then takeLaunch s else s
  let sw := if bitOf x.flags 3 then (match s2.cry.swOrder with | some o => some o | none => some x.tick) else none
  endSync { s2 with cry.applied := BitVec.ofNat 32 x.tick.toNat, cry.sealMode := x.mode, cry.swOrder := sw }
/-- Lines of a swap that are not built when the seal of its tick comes: the standby resynchronises (R267). -/
def catchUpEnds (s : State) (x : Seal) : State :=
  if s.cry.catchUp.isEmpty ∨ seqBefore (x.tick.toNat % 2 ^ 32) s.chg.swapTick.toNat then s else startSync { s with cry.catchUp := [] }
/-- Ticks that are still incomplete when a later seal is complete have overflowed: case 2, or the case that OVERFLOW stands for (R340). -/
def overflowBefore (s : State) (y : Seal) : State :=
  (s.cry.rxSeals.filter (fun x => seqBefore x.seq y.seq)).foldl (fun s x =>
    if bitOf x.flags 1 then (let c := freeBool s; overflowAt (dropFrames c.2 x) x.tick.toNat (b2n c.1)) else overflowAt (dropFrames s x) x.tick.toNat 2) s
/-- The bank that was in force in the tick of a seal, where the standby has swapped since (R267). -/
def lateBank (s : State) (x : Seal) : Option BankId := if seqBefore (x.tick.toNat % 2 ^ 32) s.chg.swapTick.toNat && s.chg.stage != .ordered then s.cry.swapOld else none
/-- A seal whose frames are complete: its tick is applied; with OVERFLOW it is not; with a wrong DCRC or an invalid record it stays
incomplete (R335, R338, R340). -/
def applySeal (s : State) (x : Seal) : State :=
  let bytes := sealBytes s x
  let s := overflowBefore s x
  let t := dropFrames s x
  if bitOf x.flags 1 then
    let c := freeBool t
    overflowAt c.2 x.tick.toNat (b2n c.1)
  else
    match (if bytes.length ≠ 8 * x.records ∨ crc32 bytes ≠ x.dcrc then none
           else applyRecords (lateBank s x) (x.records + 1) ((List.range x.records).map (fun i => leAt bytes (8 * i) 8)) (catchUpEnds t x)) with
    | some u => sealSays u x
    | none => { t with cry.rxSeals := t.cry.rxSeals ++ [x] }
/-- A part of a CONTROL record; one out of turn is let go with what came before it. The record waits for its apply edge once its last
part has come (R339). -/
def takeControl (s : State) (f : List Byte) : State :=
  let p := carryBody f
  -- the part index counts modulo 256
  let parts := if leAt p 6 1 = 0 ∧ s.cry.ctlParts.length / 1016 % 256 ≠ 0 then [] else s.cry.ctlParts
  let d := parts ++ p.drop 8
  if leAt p 6 1 ≠ parts.length / 1016 % 256 then { s with cry.ctlParts := [] }
  else if leAt p 7 1 = 1 then
    { s with cry.ctlParts := [], cry.controls := s.cry.controls ++ [{ apply := BitVec.ofNat 32 (leAt p 0 4), code := BitVec.ofNat 16 (leAt p 4 2), data := d }] }
  else { s with cry.ctlParts := d }
/-- One frame in its turn: a CONTROL part, a SEAL whose tick may be complete; DELTA frames wait for their seal. -/
def takeFrame (s : State) (n : Nat) (f : List Byte) : State :=
  if carryType f = 0x43 then takeControl s f
  else if carryType f = 0x53 then
    match s.cry.rxSeals.find? (fun x => x.seq = n) with
    | some x => if sealWhole s x then applySeal s x else s
    | none => s
  else s
/-- The first seal after a number whose frames are complete. -/
def wholeAfter (s : State) (n : Nat) : Option Seal :=
  s.cry.rxSeals.foldl (fun acc x =>
    if !seqBefore n x.seq || !sealWhole s x then acc
    else match acc with | some y => if seqBefore x.seq y.seq then some x else acc | none => some x) none
/-- Numbers before a complete tick that have not come are given up: the tick before it has overflowed, or, where that tick is applied, a CONTROL
frame is lost and the standby resynchronises; the CONTROL frames that have come are taken (R330, R340 case 2, log 33). -/
def skipTo (s : State) (n : Nat) (y : Seal) : State :=
  let s1 := overflowBefore s y
  let s2 := if s.cry.rxSeals.any (fun x => seqBefore x.seq y.seq) then s1
    else if (s1.cry.applied.toNat + 1) % 2 ^ 32 = y.tick.toNat % 2 ^ 32 then startSync s1
    else overflowAt s1 (y.tick.toNat - 1) 2
  (s.cry.rxFrames.filter (fun e => !seqBefore e.1 n && seqBefore e.1 y.firstSeq && carryType e.2 == 0x43)).foldl (fun s e => takeControl s e.2)
    { s2 with cry.rxNext := some y.firstSeq, cry.ctlParts := [] }
/-- Frames are taken in order of SEQ as far as they have come (R329). -/
def takeFrames : Nat → State → State
  | 0, s => s
  | fuel + 1, s =>
    match s.cry.rxNext with
    | none => s
    | some n =>
      match smGet s.cry.rxFrames n with
      | some f => takeFrames fuel (takeFrame { s with cry.rxNext := some ((n + 1) % 2 ^ 32) } n f)
      | none =>
        match wholeAfter s n with
        | some y => takeFrames fuel (skipTo s n y)
        | none => s
/-- NAK frames name missing numbers, two to a block, at most 32 to a frame; an odd last block repeats its number. -/
def sendNaks : Nat → List Nat → State → State
  | 0, _, s => s
  | fuel + 1, ns, s =>
    if ns.isEmpty then s
    else
      let now := ns.take 32
      let body := (now ++ (if now.length % 2 = 1 then now.getLast?.toList else [])).flatMap (leBytes 4)
      sendNaks fuel (ns.drop 32) (carrySend s 0x4E body)
/-- The newest number that the standby knows of. -/
def newestSeq (s : State) (next : Nat) : Nat := s.cry.rxFrames.foldl (fun m e => if seqBefore m ((e.1 + 1) % 2 ^ 32) then (e.1 + 1) % 2 ^ 32 else m) next
/-- The numbers missing before a frame that has come. -/
def rxGap (s : State) (next n : Nat) : List Nat :=
  let top := newestSeq s next
  if seqBefore top n then seqSpan top ((0xFFFFFFFF + n) % 2 ^ 32) else []
/-- A seal has arrived: an order to swap stands from then on (R267). -/
def sealArrived (s : State) (f : List Byte) : State :=
  if carryType f = 0x53 then takeSwap { s with cry.rxSeals := s.cry.rxSeals ++ [sealOf f] } (sealOf f) else s
/-- A frame that has been kept: its gap is named, and what is complete is taken (R330, R338). -/
def rxPlace (s : State) (f : List Byte) (gap : List Nat) : State :=
  let s3 := sealArrived (sendNaks (gap.length / 32 + 1) gap s) f
  takeFrames (2 * s3.cry.rxFrames.length + 2) s3
/-- A sequenced frame reaches the standby: gaps are named in a NAK, then what is complete is taken (R329, R330, R338). One that fills a gap is a
retransmission (R344, log 133). -/
def rxSequenced (f : List Byte) (s : State) : State :=
  if s.tck.mode ≠ .shadow then s
  else
    let n := carrySeq f
    let next := s.cry.rxNext.getD n
    let s1 := { s with cry.rxNext := some next }
    if seqBefore n next ∨ (smGet s1.cry.rxFrames n).isSome then s1
    else
      let again := seqBefore n (newestSeq s1 next)
      rxPlace { s1 with cry.rxFrames := smPut s1.cry.rxFrames n f, cry.sinceRe := s1.cry.sinceRe + b2n again } f (rxGap s1 next n)

/-- NAK_RECEIVED: frames that are still held are resent; a frame that is not cannot come, and a resync starts (R330, R340). -/
def nakReceived (f : List Byte) (s : State) : State :=
  if !holdsClaim s then s
  else
    let p := carryBody f
    let names := ((List.range (p.length / 4)).map (fun i => leAt p (4 * i) 4)).eraseDups
    let held (n : Nat) : Option (Nat × List Byte) := s.cry.kept.find? (fun e => e.1 == n)
    let s1 := names.foldl (fun (s : State) n =>
      match held n with
      | some e => { (if s.cry.lanes = 0#8 then s else emit s (.carry none e.2)) with cry.retrans := satAdd s.cry.retrans 1, cry.sinceRe := s.cry.sinceRe + 1 }
      | none => s) s
    if partnerShadow s1 ∧ names.any (fun n => (held n).isNone) then startBulk s1 else s1

/-! ### Heartbeat and loss of the partner (R331 to R334, R345, R346) -/

/-- Payload of a HEARTBEAT (R331). -/
def heartbeatBytes (s : State) : List Byte :=
  leBytes 1 (roleNo s) ++ leBytes 1 (modeNo s.tck.mode) ++ leBytes 1 (readinessSent s) ++
  leBytes 1 (b2n (carryUp s false) + 2 * b2n (carryUp s true)) ++ leBytes 4 s.cry.applied.toNat
/-- HEARTBEAT_SEND on lanes 0 and 4; a claim that it carries is in slate before (R324). -/
def heartbeatSend (s : State) : State :=
  if s.tck.mode = .dormant ∨ !isPair s then s
  else
    let s := claimsDone s
    let f := carryFrame s 0x48 0 (heartbeatBytes s)
    let s1 := if s.cry.lanes.getLsbD 0 then emit s (.carry (some 0) f) else s
    if s.cry.lanes.getLsbD 4 then emit s1 (.carry (some 4) f) else s1
/-- The full tick number nearest a known one that ends in 32 given bits. -/
def fullTick (near low : Nat) : Nat :=
  let c := near / 2 ^ 32 * 2 ^ 32 + low
  if c + 2 ^ 31 < near then c + 2 ^ 32 else if near + 2 ^ 31 < c ∧ 2 ^ 32 ≤ c then c - 2 ^ 32 else c
/-- The active unit follows what its standby reports: a confirmed switchover, a resync to start or to end (R340, R350). A standby that is
copied and whose APPLIED leaves out a tick has overflowed again, and the copy begins anew (log 131). -/
def followStandby (s : State) (wasSyncing skipped : Bool) : State :=
  let s1 := match s.cry.switchover with
    | some x =>
      match x.orderedAt with
      | some t => if s.cry.pReady = 0#8 ∧ !seqBefore s.cry.pApplied.toNat (t % 2 ^ 32) then { s with cry.switchover := some { x with confirmed := true } } else s
      | none => s
    | none => s
  if s1.cry.pReady = 1#8 then (if skipped ∨ !(wasSyncing || !s1.cry.bulk.isEmpty) then startBulk s1 else s1)
  else if wasSyncing ∧ s1.cry.bulk.isEmpty then record { s1 with cry.syncProgress := 100#7 } 0x0824 []
  else s1
/-- A standby sets its next edge by the HEARTBEAT of the active unit's edge, less the carry latency: the first one that carries a new tick
number (R332, R373). -/
def placeEdge (s : State) (f : List Byte) : State :=
  let t := BitVec.ofNat 32 (carryTick f)
  if t = s.cry.pTick then s
  else
    let s1 := { s with cry.pTick := t }
    if s.tck.mode ≠ .shadow then s1
    else if t.toNat = s.tck.tick.toNat % 2 ^ 32 then { s1 with tck.len := s.tck.ofs + periodNs s - s.cry.latency }
    else if t.toNat = (s.tck.tick.toNat + 1) % 2 ^ 32 then { s1 with tck.len := s.tck.ofs - s.cry.latency }
    else s1
/-- HEARTBEAT_RECEIVED: presence, the partner's state, the tick number that a standby takes over before its first edge (R19, R332). -/
def heartbeatReceived (f : List Byte) (s : State) : State :=
  let p := carryBody f
  let was := s.cry.partner
  let wasSyncing := partnerShadow s && s.cry.pReady == 1#8
  let step := (2 ^ 32 + leAt p 4 4 - s.cry.pApplied.toNat) % 2 ^ 32
  let s1 := { placeEdge s f with cry.partner := true, cry.pRole := BitVec.ofNat 8 (leAt p 0 1), cry.pMode := BitVec.ofNat 8 (leAt p 1 1)
                                 cry.pReady := BitVec.ofNat 8 (leAt p 2 1), cry.pApplied := BitVec.ofNat 32 (leAt p 4 4) }
  let adopt := match s1.cry.adoptTick with
    | some t => some (BitVec.ofNat 64 (fullTick t.toNat (carryTick f)))
    | none => none
  match s1.tck.mode with
  | .boot => { s1 with cry.adoptTick := adopt }
  | .shadow =>
    let active := (s1.cry.pRole == 0#8 || s1.cry.pRole == 1#8) && s1.cry.pMode != 0#8 && s1.cry.pMode != 1#8
    let behind := active && (!was || seqBefore s1.cry.pApplied.toNat s1.cry.applied.toNat)
    if behind && !s1.cry.syncing && s1.cry.takeover.isNone && s1.cry.partnerStop.isNone then startSync s1 else refreshReady s1
  | _ =>
    if holdsClaim s1 && partnerShadow s1 then followStandby s1 wasSyncing (wasSyncing && decide (1 < step) && decide (step < 2 ^ 31))
    else if holdsClaim s1 && partnerShadow s && s1.cry.pMode == 2#8 then
      -- the standby has entered STOP: the unit runs as a single unit (R349, R353, log 58)
      record (dropDelta { s1 with cry.bulk := [] }) 0x0821 [0, 0, 0]
    else s1
/-- What a unit that has lost its partner drops: the delta of the tick, a resync, a seal that would be due. -/
def partnerGone (s : State) : State :=
  dropDelta { s with cry.partner := false, cry.bulk := [] }
/-- A standby that may take over at its detection instant (R345; PFW asks for READY, R41). With both carry links down, which R349 gives a
takeover, the readiness is that of before they went down (log 132). -/
def mayTakeOver (s : State) (kind : Option Nat) : Bool :=
  let ready := if !carryUp s false && !carryUp s true then s.cry.readyBefore else s.cry.readiness
  (ready == 0#2 || (ready == 2#2 && kind != some 2)) && (s.cry.sealMode == 3 || s.cry.sealMode == 4) &&
  (match kind with | none => true | some k => k == 0 || k == 2 || k == 3) && !s.cry.exhausted && decide (nextClaim s ≤ 0xFFFFFF)
/-- The partner is lost: cause 0 by HEARTBEAT, 1 by a FAULT with its reason and kind. A standby that may takes over at the next
edge: the claim at once, RUN at the edge (R345, R346); a change whose order has not come ends (R267). -/
def losePartner (s : State) (cause reason : Nat) (kind : Option Nat) : State :=
  if s.tck.mode = .shadow ∧ s.cry.takeover.isNone then
    let standbyWouldRaise := nextClaim s ≤ 0xFFFFFF ∧ !s.cry.exhausted
    let able := mayTakeOver s kind
    let s1 := record (partnerGone s) 0x0821 [cause, reason, b2n able]
    if able then
      let s2 : State := refreshReady { raiseClaim s1 with cry.takeover := some false }
      if s2.chg.stage = .ordered then s2 else endChange s2 0x060D
    else if standbyWouldRaise then refreshReady s1
    else refreshReady (record { s1 with cry.exhausted := true } 0x0808 [])
  else record (partnerGone s) 0x0821 [cause, reason, 0]
/-- PARTNER_LOST: no HEARTBEAT for 30 µs. -/
def partnerLost (s : State) : State := if s.tck.mode = .dormant ∨ !s.cry.partner then s else losePartner s 0 0 none
/-- FAULT_FRAME_RECEIVED by a standby; a common-cause fault stops it as well (R349). -/
def faultFrame (f : List Byte) (s : State) : State :=
  let p := carryBody f
  if s.tck.mode ≠ .shadow then s
  else if !s.cry.partner then
    -- a common-cause fault of the same cycle as a fault that has been signalled: no takeover (R185)
    if leAt p 2 1 = 1 ∧ s.cry.takeover.isSome then
      refreshReady { releaseClaim s with cry.takeover := none, cry.partnerStop := some (BitVec.ofNat 16 (leAt p 0 2)) }
    else s
  else
    let s1 := losePartner s 1 (leAt p 0 2) (some (leAt p 2 1))
    if leAt p 2 1 = 1 then { s1 with cry.partnerStop := some (BitVec.ofNat 16 (leAt p 0 2)) } else s1

/-! ### Health and self-test (R343, R344) -/

/-- Ticks between two HEALTH frames. -/
def healthTicks (s : State) : Nat := ceilDiv 100000000 (periodNs s)
/-- Payload of a HEALTH frame. -/
def healthBytes (s : State) : List Byte :=
  let locks := ofBits ((List.range 24).filter (fun k => (linkAt s k).lock))
  padTo 32 (leBytes 1 s.cry.readiness.toNat ++ leBytes 1 (coverage s) ++ leBytes 2 s.cry.causes.toNat ++ leBytes 4 s.cry.applied.toNat ++
    leBytes 4 s.cry.rotations ++ leBytes 2 s.cry.corrections.toNat ++ leBytes 1 s.cry.syncProgress.toNat ++ leBytes 1 0 ++ leBytes 3 locks ++ leBytes 1 0 ++
    leBytes 2 (min s.cry.sinceC0 0xFFFF) ++ leBytes 2 (min s.cry.sinceC1 0xFFFF) ++ leBytes 2 (min s.cry.sinceRe 0xFFFF))
/-- The latest health record. -/
def takeHealth (s : State) (h : List Byte) (tick : Nat) : State :=
  let s1 := { s with cry.health := h, cry.healthTick := BitVec.ofNat 64 tick }
  if cfgBit s1 0x08 0x100 2 then record s1 0x0830 [leAt h 0 1, leAt h 1 1, leAt h 2 2] else s1
/-- HEALTH_SEND at an edge whose number is a multiple of H. -/
def healthSend (s : State) : State :=
  if s.tck.mode ≠ .shadow ∨ s.tck.tick.toNat % healthTicks s ≠ 0 then s
  else
    let s := refreshReady s
    let h := healthBytes s
    { takeHealth (carrySend s 0x52 h) h s.tck.tick.toNat with cry.corrections := 0#16, cry.sinceC0 := 0, cry.sinceC1 := 0, cry.sinceRe := 0 }
/-- HEALTH_RECEIVED by the active unit. -/
def healthReceived (f : List Byte) (s : State) : State :=
  if s.tck.mode = .shadow then s else takeHealth s (carryBody f) (fullTick s.tck.tick.toNat (carryTick f))
/-- A single-bit correction of an item counts as that of the memory it reads (R146, R147, R161); the stack, and the rod whose code store is
scrubbed, are free. -/
def selftestCorrection (s : State) (i : Nat) : State :=
  if i < 48 then record { s with rods.eccCorrected := satAdd s.rods.eccCorrected 1 } 0x0441 [i]
  else
    let f := freeNat s
    if i = 48 then record { f.2 with trk.eccCorrected := satAdd f.2.trk.eccCorrected 1 } 0x1221 [f.1 % 2] else record f.2 0x0446 [f.1 % 48]
/-- SELFTEST_ITEM: the item that runs passes or fails; its corrections count as those of the memories it reads. -/
def selftestItem (s : State) (passed : Bool) (n : BitVec 16) : State :=
  if s.tck.mode ≠ .shadow ∨ s.cry.takeover.isSome then s
  else
    let i := s.cry.item
    let s1 := { s with cry.corrections := satAdd s.cry.corrections n.toNat }
    let s2 := (List.range n.toNat).foldl (fun s _ => selftestCorrection s i) s1
    let s3 := { s2 with cry.item := (i + 1) % selfItems, cry.rotations := s2.cry.rotations + (if i + 1 = selfItems then 1 else 0) }
    if passed then refreshReady { s3 with cry.passed := smPut s3.cry.passed i s3.now }
    else raiseFault s3 0x0811 none 0 [i]

/-- VERIFIER_END. Whether the outcome of a carried command differs at the active unit is its matter and free here: where it does, CAUSES bit 10
is set and a resync starts (R339, log 74). -/
def verdictEnd (s : State) (b : BankId) : State :=
  let carried := s.tck.mode == .shadow && s.ldr.verify.any (fun v => v.bank == b && v.who == some noWho)
  let t := verifierEnd s b
  if carried then
    let f := freeBool t
    if f.1 then startSync { f.2 with cry.causes := f.2.cry.causes ||| 0x400#16 } else f.2
  else t

/-! ### Commands (R350, R356) -/

/-- CRY_SWITCHOVER waits for its order with the next seal (R350). -/
def doSwitchover (d : List Byte) (w : Who) (s : State) : State :=
  let claims := claimAbove (max s.cry.stored.toNat (max s.cry.seenPartner s.cry.seenField)) (1 - positionOf s)
  refuseShape s w d [(inBoot s, 0x0103), (s.tck.mode != .run || transPending s || s.chg.stage != .idle, 0x0804),
      (!(holdsClaim s && partnerShadow s && s.cry.pReady == 0#8), 0x0803), (s.cry.exhausted || decide (claims > 0xFFFFFF), 0x0808)] (fun s =>
    forward false { s with cry.switchover := some { who := w, orderedAt := none, confirmed := false, postponed := 0 } } (nextEdge s) 0x0801 [])
/-- CRY_RESYNC. -/
def doResync (d : List Byte) (w : Who) (s : State) : State :=
  refuseShape s w d [(inBoot s, 0x0103), (!(holdsClaim s && partnerShadow s), 0x080A)] (fun s => respond (startBulk (forward false s (nextEdge s) 0x0802 [])) w 0 [])
/-- CRY_HEALTH_GET. -/
def doHealthGet (d : List Byte) (w : Who) (s : State) : State :=
  refuseShape s w d [(inBoot s, 0x0103)] (fun s => respond s w 0 (padTo 32 s.cry.health ++ leBytes 8 s.cry.healthTick.toNat))

/-- MIGRATION_LINE_BUILD: a line of the change that runs, or one that a standby still owes its swap edge (R260, R261, R267). -/
def lineBuild (s : State) : State :=
  match s.cry.catchUp with
  | l :: _ => refreshReady (catchUpLine s l)
  | [] => migrationLineBuild s

def execVerifierEnd (bank : BankId) (s : State) : Host.Outcome State Fault Refusal := .next (verdictEnd s bank)
def execMigrationLineBuild (s : State) : Host.Outcome State Fault Refusal := .next (lineBuild s)
def execCarryLaneDown (lane : Fin 8) (s : State) : Host.Outcome State Fault Refusal := .next (carryLaneDown s lane)
def execCarryLinkUp (link : Bool) (s : State) : Host.Outcome State Fault Refusal := .next (carryLinkUp s link)
def execDeltaReceived (lane : Fin 8) (frame : List Byte) (s : State) : Host.Outcome State Fault Refusal := .next (carryRx s lane frame [0x44] (rxSequenced frame))
def execSealReceived (lane : Fin 8) (frame : List Byte) (s : State) : Host.Outcome State Fault Refusal := .next (carryRx s lane frame [0x53] (rxSequenced frame))
def execControlReceived (lane : Fin 8) (frame : List Byte) (s : State) : Host.Outcome State Fault Refusal := .next (carryRx s lane frame [0x43] (rxSequenced frame))
def execHeartbeatSend (s : State) : Host.Outcome State Fault Refusal := .next (heartbeatSend s)
def execHeartbeatReceived (lane : Fin 8) (frame : List Byte) (s : State) : Host.Outcome State Fault Refusal := .next (carryRx s lane frame [0x48] (heartbeatReceived frame))
def execFaultFrameReceived (lane : Fin 8) (frame : List Byte) (s : State) : Host.Outcome State Fault Refusal := .next (carryRx s lane frame [0x46] (faultFrame frame))
def execPartnerLost (s : State) : Host.Outcome State Fault Refusal := .next (partnerLost s)
def execNakReceived (lane : Fin 8) (frame : List Byte) (s : State) : Host.Outcome State Fault Refusal := .next (carryRx s lane frame [0x4E] (nakReceived frame))
def execHealthSend (s : State) : Host.Outcome State Fault Refusal := .next (healthSend s)
def execHealthReceived (lane : Fin 8) (frame : List Byte) (s : State) : Host.Outcome State Fault Refusal := .next (carryRx s lane frame [0x52] (healthReceived frame))
def execSelftestItem (passed : Bool) (corrected : BitVec 16) (s : State) : Host.Outcome State Fault Refusal := .next (selftestItem s passed corrected)
def execBulkPlace (s : State) : Host.Outcome State Fault Refusal := .next (bulkPlace s)
def execCrySwitchover (r : Req) (s : State) : Host.Outcome State Fault Refusal := .next (command s r 0x0801 (fun q => doSwitchover q.payload))
def execCryResync (r : Req) (s : State) : Host.Outcome State Fault Refusal := .next (command s r 0x0802 (fun q => doResync q.payload))
def execCryHealthGet (r : Req) (s : State) : Host.Outcome State Fault Refusal := .next (command s r 0x0803 (fun q => doHealthGet q.payload))
def execSealSend (s : State) : Host.Outcome State Fault Refusal := .next (sealSend s)
def execSealOverflow (s : State) : Host.Outcome State Fault Refusal := .next (sealOverflow s)

end Sys2Proof.Machine
end

