-- ==== Sys2Proof/Machine/Regs.lean ====
section
/-! DEFINITION. What each register of a block window and of a port window reads as, and what reads and write-one-to-clear writes clear (R5, R47, R69, and the register table of each chapter). -/
namespace Sys2Proof.Machine
open Sys2Proof

/-- A Bool list as bits from bit 0 on. -/
def bitsOf (bs : List Bool) : Nat := bs.foldr (fun b n => b2n b + 2 * n) 0

/-! ### PFX_STATUS, bits [15:0] -/

def bankStateNo (s : State) (b : BankId) : Nat := if s.ldr.inForce = some b then 3 else phaseNo (bankSt s b).phase
/-- A link runs the bring-up of R307. -/
def bringingUp (l : Link) : Bool := match l.phase with | .lock | .waitClaim | .roll _ | .setMap _ => true | _ => false
def eventLasts (x : Feeder) : Bool := x.sag.isSome || x.swell.isSome || x.intr.isSome
def statusBits (s : State) (b : Nat) : Nat :=
  match b with
  | 0x02 => modeNo s.tck.mode + 8 * b2n (s.tck.fault != 0#16) + 16 * b2n (transPending s) + 32 * b2n s.tck.swapTick + 64 * s.tck.throttle.toNat
  | 0x03 => bitsOf [s.ldr.inForce.isSome, s.ldr.inForce == some .b, !s.img.forces.isEmpty]
  | 0x04 =>
    match bankInForce s with
    | some p => (bitsSet 48 (p.tasks.foldl (fun m t => m ||| t.rodSet) 0)).length
    | none => 0
  | 0x05 => bitsOf [s.ldr.inForce.isSome, s.ldr.inForce == some .b] + 4 * bankStateNo s .a + 16 * bankStateNo s .b +
      64 * b2n (!s.ldr.verify.isEmpty) + 128 * b2n (!s.ldr.saves.isEmpty)
  | 0x06 => stageNo s.chg.stage + 8 * bankNo s.chg.target
  | 0x07 => bitsOf [s.lnk.toList.any (fun l => l.live.any (fun x => x.lost)), s.lnk.toList.any bringingUp]
  | 0x08 => roleNo s + 4 * readinessShown s + 16 * b2n (carryUp s false) + 32 * b2n (carryUp s true) + 64 * b2n s.cry.partner
  | 0x09 => s.ntm.quality.toNat + 4 * s.ntm.p0.st + 64 * s.ntm.p1.st + 1024 * b2n s.ntm.slewing
  | 0x0A => brkStatus s
  | 0x0C => s.lch.groupFail.toNat
  | 0x0D => ofBits ([0, 1, 2, 3].filter (feederOn s)) + 16 * ofBits ([0, 1, 2, 3].filter (fun f => (feederAt s f).freqValid)) +
      256 * ofBits ([0, 1, 2, 3].filter (fun f => eventLasts (feederAt s f)))
  | 0x0E => b2n (s.slt.run.isSome || s.slt.claimRun.isSome) + 2 * min 127 s.slt.queue.length
  | 0x0F => bitsOf [segmentDue s || !s.recd.flushes.isEmpty, !s.recd.tailQueue.isEmpty]
  | 0x10 => bitsOf [s.wdt.locked, hostServices s]
  | 0x11 => bitsOf [s.fwu.card.isSome, s.fwu.staging.isSome, s.fwu.trial, runningSlot s == 1, slotValid s.fwu.slot0, slotValid s.fwu.slot1] +
      256 * (if s.fwu.staging.isSome then (Config.freeDword s.now).toNat % 101 else 0)
  | 0x12 => b2n s.trk.heldLong + 2 * s.trk.heldWho.toNat
  | 0x13 => b2n (decide (s.pwr.temp.toInt ≥ 105))
  | _ => 0

/-! ### RO, RC and W1C fields of the other registers -/

/-- LNK registers of link k (R317). -/
def linkReg (s : State) (k r : Nat) : Nat :=
  let l := linkAt s k
  let top (p : StLive → Bool) : Nat := ((l.table.zip l.live).filter (fun e => e.1.path.length == 1 && p e.2)).length
  match r with
  | 0x04 => (match l.phase with | .off => 0 | .cyclic => 2 | .failed => 3 | _ => 1) + 4 * b2n l.lock + 8 * ((l.table.filter (fun e => e.path.length == 1)).length % 256) +
      2 ^ 11 * (top (fun x => x.lost) % 256) + 2 ^ 19 * b2n ((l.table.zip l.live).any (fun e => decide (e.1.path.length > 1) && e.2.lost))
  | 0x08 => l.rttLast.toNat + 2 ^ 16 * l.rttRoll.toNat
  | 0x0C => l.frameF.toNat + 2 ^ 16 * l.echoEnd.toNat
  | 0x10 => l.errFrame.toNat + 2 ^ 8 * l.errSeg.toNat + 2 ^ 16 * l.errLate.toNat + 2 ^ 24 * l.errHcrc.toNat
  | 0x14 => l.lossLost.toNat + 2 ^ 16 * l.lossUndelivered.toNat
  | _ => 0
/-- CAN registers of controller k (R421). -/
def canReg (s : State) (k r : Nat) : Nat :=
  let c := canAt s k
  match r with
  | 0x14 => (if !canEnabled s k then 3 else if c.busOff then 2 else if c.passive then 1 else 0) + 4 * b2n (canListen s k) + 8 * min 255 c.txErr +
      2 ^ 11 * min 255 c.rxErr + 2 ^ 19 * b2n c.ttSync + 2 ^ 20 * (c.cycle % 64) + 2 ^ 26 * b2n c.det.isSome
  | 0x18 => c.errBit.toNat + 2 ^ 8 * c.errSfc.toNat + 2 ^ 16 * c.errAck.toNat + 2 ^ 24 * c.errCollide.toNat
  | 0x1C => c.unmatched.toNat + 2 ^ 8 * c.dlc.toNat + 2 ^ 16 * c.replaced.toNat + 2 ^ 24 * c.overwrite.toNat
  | _ => 0
/-- MTR registers of feeder f (R464). -/
def meterReg (s : State) (f r : Nat) : Nat :=
  let x := feederAt s f
  match r with
  | 0x18 => x.mhz % 2 ^ 24 + 2 ^ 24 * b2n x.freqValid
  | 0x1C => x.seq % 2 ^ 24
  | 0x20 => elsb s f
  | 0x24 => bitsOf [x.sag.isSome, x.swell.isSome, x.intr.isSome] + 2 ^ 16 * x.lastMs.toNat
  | 0x28 => x.restored.toNat
  | _ => 0
/-- CRY_HEALTH: from the latest health record. -/
def healthReg (s : State) : Nat :=
  if s.cry.health.isEmpty then 3 else leAt s.cry.health 0 1 % 4 + 2 ^ 8 * (leAt s.cry.health 1 1 % 128) + 2 ^ 16 * leAt s.cry.health 2 2
/-- CRY_BUDGET.D (R337), in units of 64 octets; its rounding is left open (log 12). -/
def carryBudget (s : State) : Nat :=
  let d := 1437500 * tickPeriod s - 598000
  d / 64 + b2n (d % 64 != 0 && Config.budgetUp (tickPeriod s))
/-- Seconds left of the countdown. -/
def countdownNow (b : Brk) : Nat := if b.cdRun then ceilDiv b.cd 32768 else 0
def slotVersion (x : FwSlot) : Nat := if slotValid x then pkgVersion x.package else 0

/-- The RO, RC and W1C bits of a register at a window offset, as port p reads them. -/
def dynReg (s : State) (p : Port) (b ofs : Nat) : Nat :=
  match b, ofs with
  | 0x02, 0x104 => s.tck.fault.toNat
  | 0x02, 0x108 => s.tck.tick.toNat % 2 ^ 32
  | 0x02, 0x10C => s.tck.tickHi.toNat
  | 0x02, 0x110 => s.tck.lastEnd.toNat + 2 ^ 16 * s.tck.lastSeal.toNat
  | 0x02, 0x114 => s.tck.l1Ticks.toNat + 2 ^ 16 * s.tck.l2Ticks.toNat
  | 0x03, 0x104 => (pointTable s).length
  | 0x03, 0x108 => s.img.forces.length
  | 0x03, 0x10C => s.img.cutTick.toNat
  | 0x03, 0x110 => s.img.cutSubst.toNat
  | 0x03, 0x114 => s.img.errCount.toNat
  | 0x03, 0x118 => s.img.lastRef.toNat + 2 ^ 24 * s.img.lastRod.toNat + 2 ^ 30 * s.img.lastKind.toNat
  | 0x04, 0x104 => s.rods.errCount.toNat
  | 0x04, 0x108 => s.rods.lastSeg.toNat + 2 ^ 24 * s.rods.lastRod.toNat
  | 0x04, 0x10C => s.rods.lastOfs.toNat + 2 ^ 24 * s.rods.lastKind.toNat
  | 0x04, 0x110 => s.rods.eccCorrected.toNat
  | 0x04, 0x114 => s.rods.waitfNs.toNat + 2 ^ 24 * s.rods.waitfRod.toNat
  | 0x04, 0x118 => s.rods.collide.toNat
  | 0x05, 0x104 => if s.ldr.a.phase = .admitted then s.ldr.a.period + 2 ^ 16 * s.ldr.a.share else 0
  | 0x05, 0x108 => if s.ldr.b.phase = .admitted then s.ldr.b.period + 2 ^ 16 * s.ldr.b.share else 0
  | 0x05, 0x10C => bankId s.ldr.a.image
  | 0x05, 0x110 => bankId s.ldr.b.image
  | 0x05, 0x114 =>
    match s.ldr.inForce with
    | some k => let x := (bankSt s k).bound; x.1 % 2 ^ 16 + 2 ^ 16 * (x.2 % 64)
    | none => 0
  | 0x05, 0x118 => s.ldr.failRod.toNat + 2 ^ 6 * s.ldr.failAddr.toNat + 2 ^ 21 * s.ldr.failIndex.toNat
  | 0x06, 0x104 => s.chg.dirtyUnits
  | 0x06, 0x108 => s.chg.postponed
  | 0x06, 0x10C => 0x800 + 2 ^ 12 * s.chg.constUnits
  | 0x06, 0x110 => s.chg.swapTick.toNat
  | 0x08, 0x104 => s.cry.stored.toNat + 2 ^ 24 * b2n s.cry.exhausted
  | 0x08, 0x108 => s.cry.applied.toNat
  | 0x08, 0x10C => s.cry.deltaLast.toNat
  | 0x08, 0x110 => s.cry.deltaMax.toNat
  | 0x08, 0x114 => carryBudget s
  | 0x08, 0x118 => s.cry.crcC0.toNat + 2 ^ 8 * s.cry.crcC1.toNat + 2 ^ 16 * s.cry.retrans.toNat + 2 ^ 24 * s.cry.down.toNat
  | 0x08, 0x11C => healthReg s
  | 0x08, 0x120 => s.cry.syncProgress.toNat + 2 ^ 8 * s.cry.syncVolume.toNat
  | 0x08, 0x124 => s.cry.takeoverTick.toNat
  | 0x09, 0x120 => (stampNow s).toNat
  | 0x09, 0x124 => s.ntm.nowSecLo.toNat
  | 0x09, 0x128 => s.ntm.nowSecHi.toNat
  | 0x09, 0x12C => toTwos 32 (if s.ntm.offset > 2147483647 then 2147483647 else if s.ntm.offset < -2147483647 then -2147483647 else s.ntm.offset)
  | 0x09, 0x130 => toTwos 32 s.ntm.rate
  | 0x09, 0x134 => toTwos 32 s.ntm.meanDelay
  | 0x09, 0x138 => s.ntm.utc.toNat
  | 0x09, 0x13C => s.ntm.utcSnap.toNat
  | 0x09, 0x140 => s.ntm.edgeTime.toNat
  | 0x09, 0x144 => toTwos 16 s.ntm.edgeErr + 2 ^ 16 * b2n s.ntm.inPhase
  | 0x09, 0x148 => s.ntm.stepsFwd.toNat + 2 ^ 8 * s.ntm.stepsBack.toNat + 2 ^ 16 * s.ntm.mgmt.toNat
  | 0x09, 0x14C => s.ntm.droppedE0.toNat + 2 ^ 8 * s.ntm.droppedE1.toNat + 2 ^ 16 * s.ntm.queueE0.length + 2 ^ 21 * s.ntm.queueE1.length
  | 0x0A, 0x130 => (calSnap s.brk).toNat
  | 0x0A, 0x134 => (portSt s p).snap.secLo.toNat
  | 0x0A, 0x138 => (portSt s p).snap.secHi.toNat
  | 0x0A, 0x13C => (portSt s p).snap.date.toNat
  | 0x0A, 0x140 => (portSt s p).snap.clock.toNat
  | 0x0A, 0x144 => toTwos 20 s.brk.trim + 2 ^ 20 * s.brk.trimSrc.toNat
  | 0x0A, 0x148 => s.brk.calOfs.toNat
  | 0x0A, 0x14C => countdownNow s.brk
  | 0x0A, 0x150 => bitsOf [s.brk.wakeSeen, s.brk.cdSeen, s.brk.pwron] + 2 ^ 8 * s.brk.evOvf.toNat
  | 0x0A, 0x154 => s.brk.backupMv.toNat
  | 0x0C, 0x104 => ofBits ((List.range 32).filter (diagBit s))
  | 0x0C, 0x108 => s.lch.overload.toNat
  | 0x0C, 0x10C => s.lch.breaks.toNat
  | 0x0C, 0x120 => s.lch.shortCnt.toNat + 2 ^ 16 * s.lch.shortCh.toNat
  | 0x0D, 0x104 => s.mtr.chFail.toNat
  | 0x0D, 0x108 => s.mtr.clip.toNat
  | 0x0D, 0x10C => (List.range 12).foldl (fun n j => n + 2 ^ (2 * j) * gainCode s j) 0
  | 0x0E, 0x104 => s.slt.corrected.toNat + 2 ^ 16 * s.slt.uncorrectable.toNat
  | 0x0E, 0x108 => s.slt.scanRecords + 2 ^ 10 * min 1023 s.slt.scanInvalid + 2 ^ 20 * s.slt.scanConflicts
  | 0x0E, 0x10C => s.slt.writes.toNat
  | 0x0E, 0x110 => s.slt.lastPage.toNat
  | 0x0F, 0x104 => s.recd.head
  | 0x0F, 0x108 => s.recd.oldest
  | 0x0F, 0x10C => s.recd.statSuppressed.toNat + 2 ^ 16 * s.recd.statDropped.toNat
  | 0x0F, 0x110 => s.recd.tailNext.toNat + 2 ^ 16 * b2n s.recd.tailPass
  | 0x0F, 0x200 => (portSt s p).cursor
  | 0x0F, 0x204 => match (portSt s p).winState with | .valid => 0 | .empty => 1 | .lost => 2 | .pending => 3
  | 0x10, 0x10C => wdtCount s
  | 0x10, 0x110 => s.wdt.reg.toNat
  | 0x10, 0x114 => s.wdt.set.toNat
  | 0x10, 0x118 => s.wdt.double.toNat + 2 ^ 16 * s.wdt.unreg.toNat
  | 0x10, 0x11C => s.tck.cause.toNat + 2 ^ 4 * s.tck.prevMode.toNat
  | 0x10, 0x120 => s.wdt.refused.toNat
  | 0x10, 0x124 => s.wdt.svcTick.toNat % 2 ^ 32
  | 0x11, 0x104 => match s.fwu.running with | some n => pkgVersion (slotOf s n).package | none => 0
  | 0x11, 0x108 => slotVersion s.fwu.slot0
  | 0x11, 0x10C => slotVersion s.fwu.slot1
  | 0x11, 0x110 => leAt (pointerNow s) 2 1 % 4 + 4 * (leAt (pointerNow s) 3 1 % 2) + 2 ^ 16 * s.fwu.lastFallback.toNat
  | 0x11, 0x114 => match s.fwu.card with | some c => c.speed.toNat + 4 * b2n c.exfat | none => 0
  | 0x12, 0x104 => shareNow s + 2 ^ 8 * (match s.ldr.inForce with | some k => (bankSt s k).share | none => 0)
  | 0x12, 0x108 => s.trk.rodRestarts.toNat + 2 ^ 16 * s.trk.otherRestarts.toNat
  | 0x12, 0x10C => s.trk.linkMasked.toNat + 2 ^ 16 * s.trk.carryMasked.toNat
  | 0x12, 0x110 => s.trk.heldMax.toNat + 2 ^ 16 * s.trk.heldMaxWho.toNat
  | 0x12, 0x114 => s.trk.eccCorrected.toNat
  | 0x13, 0x100 => bitsOf [s.pwr.pfw, s.pwr.pfwSeen, s.pwr.l1Seen, s.pwr.l2Seen] + 2 ^ 12 * s.pwr.vcoreMin.toNat
  | 0x13, 0x104 => s.pwr.temp.toNat + 2 ^ 8 * s.pwr.tempMax.toNat
  | b, ofs =>
    if b = 0x07 ∧ 0x200 ≤ ofs ∧ ofs < 0x500 then linkReg s ((ofs - 0x200) / 0x20) ((ofs - 0x200) % 0x20)
    else if b = 0x0A ∧ 0x300 ≤ ofs ∧ ofs < 0x400 then leAt s.brk.evidence (ofs - 0x300) 4
    else if b = 0x0B ∧ 0x140 ≤ ofs ∧ ofs < 0x1C0 then canReg s ((ofs - 0x140) / 0x40) ((ofs - 0x140) % 0x40)
    else if b = 0x0C ∧ 0x110 ≤ ofs ∧ ofs < 0x120 then
      (lplusMv s ((ofs - 0x110) / 4)).toNat + 2 ^ 16 * b2n (chWorks s (8 * ((ofs - 0x110) / 4)))
    else if b = 0x0C ∧ 0x300 ≤ ofs ∧ ofs < 0x320 then (s.lch.count.toArray.getD ((ofs - 0x300) / 4) 0#24).toNat
    else if b = 0x0D ∧ 0x200 ≤ ofs ∧ ofs < 0x300 then meterReg s ((ofs - 0x200) / 0x40) ((ofs - 0x200) % 0x40)
    else if b = 0x0F ∧ 0x208 ≤ ofs ∧ ofs < 0x228 then (winWord s p ((ofs - 0x208) / 4)).toNat
    else 0

/-- PFX_CFG_STATE (R69). -/
def cfgState (s : State) (p : Port) (b : Nat) : Nat :=
  let c := blkCfg s b
  let dirty := (c.stage ++ c.inForce).any (fun e => fileReg c.stage b e.1 &&& stagedMask b e.1 != fileReg c.inForce b e.1 &&& stagedMask b e.1)
  bitsOf [dirty, c.check.isSome, c.pend.isSome, (portSt s p).view.getLsbD b] + 2 ^ 16 * c.lastApply.toNat
/-- A register as a port reads it: its STAGED bits from the stage copy or the values in force, its LIVE bits as written or in
force. An offset that holds no register reads 0 (R49, R69, R77). -/
def regValue (s : State) (p : Port) (b ofs : Nat) (stage written : Bool) : Dword :=
  let c := blkCfg s b
  if ofs = 0 then (if 1 ≤ b ∧ b ≤ 0x13 then BitVec.ofNat 32 (statusBits s b % 2 ^ 16 + 2 ^ 16 * c.reason.toNat) else 0#32)
  else if ofs = 8 then (if 1 ≤ b ∧ b ≤ 0x13 then BitVec.ofNat 32 (cfgState s p b) else 0#32)
  else
    match regDef b ofs with
    | none => 0#32
    | some d =>
      let sv := fileReg (if stage then c.stage else c.inForce) b ofs &&& BitVec.ofNat 32 d.staged
      let lv := fileReg (if written then c.written else c.inForce) b ofs &&& BitVec.ofNat 32 d.live
      let rv := fileReg c.inForce b ofs &&& BitVec.ofNat 32 d.rw
      sv ||| lv ||| rv ||| BitVec.ofNat 32 (dynReg s p b ofs)
/-- A register as BAR0 returns it: VIEW of the port chooses the copy (R69). -/
def barValue (s : State) (p : Port) (b ofs : Nat) : Dword := regValue s p b ofs (!(portSt s p).view.getLsbD b) true

/-- The owner word of a semaphore (R51). -/
def ownerWord (o : SemOwner) : Dword := BitVec.ofNat 32 (2 ^ 31 + 2 ^ 16 * portNo o.port + o.tag.toNat)
/-- A register of the port window (R50); semaphores are read by their own command. -/
def portReg (s : State) (p : Port) (ofs : Nat) : Dword :=
  let q := portSt s p
  BitVec.ofNat 32 (match ofs with
    | 0x00 => portNo p + 2 ^ 8 * Config.stepping.toNat + 2 ^ 16 * 0x4824
    | 0x04 => b2n (q.expert != 0#20) + 2 ^ 8 * q.badAccess.toNat + 2 ^ 16 * q.deniedWrite.toNat + 2 ^ 24 * q.badDoorbell.toNat
    | 0x08 => q.expert.toNat
    | 0x0C => (portSt s (otherPort p)).expert.toNat
    | 0x14 => q.done.toNat
    | 0x18 => ofBits ((List.range 32).filter (fun i => match q.slots.toList[i]? with | some x => x.busy.isSome | none => false))
    | 0x1C => q.irqStatus.toNat
    | 0x20 => q.irqEnable.toNat + 2 ^ 16 * q.edgeDiv.toNat
    | 0x24 => q.semTag.toNat
    | _ => 0)

/-! ### What a read clears (RC) -/

/-- RC fields of a register return to their reset value (R5, R47). -/
def clearRc (s : State) (p : Port) (b ofs : Nat) : State :=
  match b, ofs with
  | 0x00, 0x04 => setPort s p (fun q => { q with badAccess := 0#8, deniedWrite := 0#8, badDoorbell := 0#8 })
  | 0x02, 0x114 => { s with tck.l1Ticks := 0#16, tck.l2Ticks := 0#16 }
  | 0x03, 0x114 => { s with img.errCount := 0#16 }
  | 0x04, 0x104 => { s with rods.errCount := 0#16 }
  | 0x04, 0x110 => { s with rods.eccCorrected := 0#16 }
  | 0x04, 0x114 => { s with rods.waitfNs := 0#24, rods.waitfRod := 0#6 }
  | 0x04, 0x118 => { s with rods.collide := 0#16 }
  | 0x08, 0x110 => { s with cry.deltaMax := 0#24 }
  | 0x08, 0x118 => { s with cry.crcC0 := 0#8, cry.crcC1 := 0#8, cry.retrans := 0#8, cry.down := 0#8 }
  | 0x09, 0x148 => { s with ntm.stepsFwd := 0#8, ntm.stepsBack := 0#8, ntm.mgmt := 0#8 }
  | 0x09, 0x14C => { s with ntm.droppedE0 := 0#8, ntm.droppedE1 := 0#8 }
  | 0x0C, 0x120 => { s with lch.shortCnt := 0#16, lch.shortCh := 0#3 }
  | 0x0D, 0x108 => { s with mtr.clip := 0#24 }
  | 0x0E, 0x104 => { s with slt.corrected := 0#16, slt.uncorrectable := 0#16 }
  | 0x0F, 0x10C => { s with recd.statSuppressed := 0#16, recd.statDropped := 0#16 }
  | 0x10, 0x118 => { s with wdt.double := 0#16, wdt.unreg := 0#16 }
  | 0x10, 0x120 => { s with wdt.refused := 0#16 }
  | 0x12, 0x108 => { s with trk.rodRestarts := 0#16, trk.otherRestarts := 0#16 }
  | 0x12, 0x10C => { s with trk.linkMasked := 0#16, trk.carryMasked := 0#16 }
  | 0x12, 0x110 => { s with trk.heldMax := 0#16, trk.heldMaxWho := 0#7 }
  | 0x12, 0x114 => { s with trk.eccCorrected := 0#16 }
  | 0x13, 0x100 => { s with pwr.vcoreMin := 0xFFF#12 }
  | 0x13, 0x104 => { s with pwr.tempMax := 0x80#8 }
  | b, ofs =>
    if b = 0x07 ∧ 0x200 ≤ ofs ∧ ofs < 0x500 then
      let k := (ofs - 0x200) / 0x20
      match (ofs - 0x200) % 0x20 with
      | 0x10 => setLink s k (fun l => { l with errFrame := 0#8, errSeg := 0#8, errLate := 0#8, errHcrc := 0#8 })
      | 0x14 => setLink s k (fun l => { l with lossLost := 0#16, lossUndelivered := 0#16 })
      | _ => s
    else if b = 0x0B ∧ 0x140 ≤ ofs ∧ ofs < 0x1C0 then
      let k := (ofs - 0x140) / 0x40
      match (ofs - 0x140) % 0x40 with
      | 0x18 => setCan s k (fun c => { c with errBit := 0#8, errSfc := 0#8, errAck := 0#8, errCollide := 0#8 })
      | 0x1C => setCan s k (fun c => { c with unmatched := 0#8, dlc := 0#8, replaced := 0#8, overwrite := 0#8 })
      | _ => s
    else s

/-! ### What a write of ones clears (W1C) -/

/-- Bits of the port window (R50); a vector whose cause still holds is raised again (R54). -/
def clearPort (s : State) (p : Port) (ofs : Nat) (v : Dword) : State :=
  match ofs with
  | 0x14 => setPort s p (fun q => { q with done := q.done &&& ~~~v })
  | 0x1C => raiseCursor (setPort s p (fun q => { q with irqStatus := q.irqStatus &&& ~~~(v.truncate 8) })) p
  | _ => s
/-- Bits of a block window. -/
def clearOnes (s : State) (b ofs : Nat) (v : Dword) : State :=
  match b, ofs with
  | 0x0A, 0x000 => if v.getLsbD 1 then { s with brk.resetSeen := false } else s
  | 0x0A, 0x150 => { s with brk.wakeSeen := s.brk.wakeSeen && !v.getLsbD 0, brk.cdSeen := s.brk.cdSeen && !v.getLsbD 1
                            brk.evOvf := s.brk.evOvf &&& ~~~((v >>> 8).truncate 4) }
  | 0x0C, 0x108 => lchAskClear s v
  | 0x13, 0x100 => { s with pwr.pfwSeen := s.pwr.pfwSeen && !v.getLsbD 1, pwr.l1Seen := s.pwr.l1Seen && !v.getLsbD 2, pwr.l2Seen := s.pwr.l2Seen && !v.getLsbD 3 }
  | _, _ => s

end Sys2Proof.Machine
end

