-- ==== Sys2Proof/Machine/Host.lean ====
section
/-! DEFINITION. The host ports: register accesses, semaphores, expert access, COMMIT and DISCARD, reads and changes of configuration by mailbox, force commands, host transfers, and the end of a consistency check (R44 to R84, R105 to R108, R567, R568, R570). -/
namespace Sys2Proof.Machine
open Sys2Proof

/-! ### COMMIT, DISCARD and the stage copy (R70 to R75) -/

def setReason (s : State) (b c : Nat) : State := setBlk s b (fun x => { x with reason := BitVec.ofNat 16 c })
/-- A COMMIT of a block: refused while a change of it is under way or a mode transition is pending (R73, R80). -/
def commitBlock (s : State) (b : Nat) : State :=
  if blkBusy s b then setReason s b (256 * b + 0xF0)
  else if transPending s then setReason s b (256 * b + 0xF1)
  else startCheck s b (blkCfg s b).stage .commit
/-- STAGED, LIVE and RW fields of a register reach the standby as written (R339); CRY_CONFIG never does (R319). -/
def forwardField (s : State) (b o : Nat) (v : Dword) : State := if b = 0x08 then s else sendControl s (nextEdge s) 0 (liveData b o v)
/-- A write to PFX_COMMIT: COMMIT, then DISCARD (R74). -/
def commitWrite (s : State) (b : Nat) (v : Dword) : State :=
  let s1 := if v.getLsbD 0 then commitBlock s b else s
  if v.getLsbD 1 then forwardField (reloadStage s1 b) b 4 2#32 else s1
/-- STAGED fields named ENABLE, at window offset 0x100 (R75). -/
def enableMask (b : Nat) : Dword :=
  match b with
  | 0x07 => 0xFFFFFF#32
  | 0x0B => 0x3#32
  | 0x0C => 0xF#32
  | 0x0D => 0xF#32
  | _ => 0#32
/-- STAGED bits of a write go into the stage copy, LIVE bits wait for the edge, RW bits act at once (R70, R77). -/
def fieldWrite (s : State) (b o : Nat) (v : Dword) (d : RegDef) : State :=
  let c := blkCfg s b
  let live := BitVec.ofNat 32 d.live
  let rw := BitVec.ofNat 32 d.rw
  let staged := fileReg c.stage b o
  let s1 := setBlk s b (fun c => { c with
    stage := fileSet c.stage b o (maskWrite staged v (BitVec.ofNat 32 d.staged))
    written := fileSet c.written b o (maskWrite (fileReg c.written b o) v live)
    inForce := fileSet c.inForce b o (maskWrite (fileReg c.inForce b o) v rw) })
  let s2 := if b = 0x0A ∧ o = 0x110 then { s1 with brk.cdWritten := true } else s1
  let s3 := if d.staged = 0 ∧ d.live = 0 ∧ d.rw = 0 then s2 else forwardField s2 b o v
  if o = 0x100 ∧ (staged ^^^ v) &&& enableMask b ≠ 0#32 then commitBlock s3 b else s3
/-- VIEW of a port (R69). -/
def viewWrite (s : State) (p : Port) (b : Nat) (on : Bool) : State :=
  setPort s p (fun q => { q with view := if on then q.view ||| (1#20 <<< b) else q.view &&& ~~~(1#20 <<< b) })
/-- A write into the window of a block (R67, R68). -/
def blockWrite (s : State) (p : Port) (b o : Nat) (v : Dword) : State :=
  if writeDenied s p b then countDenied s p
  else if o = 4 then commitWrite s b v
  else if o = 8 then viewWrite s p b (v.getLsbD 3)
  else
    let s1 := clearOnes s b o v
    match regDef b o with
    | some d => fieldWrite s1 b o v d
    | none => s1

/-! ### Semaphores (R51 to R53) -/

def semAt (s : State) (k : Fin 64) : Option SemOwner := s.host.sems.get k
def setSem (s : State) (k : Fin 64) (o : Option SemOwner) : State := { s with host.sems := s.host.sems.set k o }
/-- One read of a semaphore. -/
def semReadOne (s : State) (p : Port) (k : Fin 64) : State :=
  let me : SemOwner := { port := p, tag := (portSt s p).semTag }
  match semAt s k with
  | none => readDone (setSem s k (some me)) p 0#32
  | some o => readDone s p (if o = me then 0#32 else ownerWord o)
/-- A read of a semaphore, or a read from each port in the same cycle: the loser of the last tie is served first. -/
def semRead (s : State) (p : Port) (k : Fin 64) (tie : Bool) : State :=
  if tie then
    match semAt s k with
    | none =>
      let first := match s.host.lastTie with | none => Port.a | some x => otherPort x
      { semReadOne (semReadOne s first k) (otherPort first) k with host.lastTie := some first }
    | some _ => semReadOne (semReadOne s p k) (otherPort p) k
  else semReadOne s p k
/-- A write to a semaphore: from the owning port it releases, from the other it is counted. -/
def semWrite (s : State) (p : Port) (k : Fin 64) : State :=
  match semAt s k with
  | some o => if o.port = p then setSem s k none else countDenied s p
  | none => countDenied s p

/-! ### BAR0 accesses -/

/-- Window and window offset of a BAR0 offset (R48). -/
def blkOf (ofs : BitVec 20) : Nat := ofs.toNat / 0x8000
def inWindow (ofs : BitVec 20) : Nat := ofs.toNat % 0x8000
/-- The semaphore at an offset of the port window. -/
def semIndex (o : Nat) : Option (Fin 64) := if 0x100 ≤ o ∧ o < 0x200 ∧ o % 4 = 0 then some (Fin.ofNat 64 ((o - 0x100) / 4)) else none
/-- A write into the port window (R50). -/
def portWrite (s : State) (p : Port) (o : Nat) (v : Dword) : State :=
  match semIndex o with
  | some k => semWrite s p k
  | none =>
    match o with
    | 0x10 =>
      if mailboxUp s then ringDoor s p (Fin.ofNat 32 (v.toNat % 32)) else s
    | 0x20 => setPort s p (fun q => { q with irqEnable := v.truncate 8, edgeDiv := (v >>> 16).truncate 8 })
    | 0x24 => setPort s p (fun q => { q with semTag := v.truncate 16 })
    | _ => clearPort s p o v
/-- A BAR0 access that R46 refuses: a read is aborted, a write discarded; both are counted. -/
def badAccess (s : State) (p : Port) (read : Bool) : State :=
  access s p (fun s =>
    let s1 := setPort s p (fun q => { q with badAccess := satAdd q.badAccess 1 })
    if read then emit s1 (.completerAbort p) else s1)
/-- A write of one dword to BAR0 (R48, R49). -/
def barWrite (s : State) (p : Port) (ofs : BitVec 20) (v : Dword) : State :=
  access s p (fun s =>
    let b := blkOf ofs
    let o := inWindow ofs
    if o % 4 ≠ 0 then badAccess s p false
    else if b = 0 then portWrite s p o v
    else if b > 0x13 then s
    else if b = 0x10 ∧ o = 0x108 then wdtServiceWrite s p v
    else blockWrite s p b o v)
/-- A read of TCK_TICK_LO latches the high bits (R23). -/
def tickLoRead (s : State) (p : Port) : State :=
  access s p (fun s => readDone { s with tck.tickHi := BitVec.ofNat 32 (s.tck.tick.toNat / 2 ^ 32) } p (BitVec.ofNat 32 s.tck.tick.toNat))
/-- A read of one dword of BAR0: it returns the value, then clears what it clears and does what its register's read does (R47). -/
def barRead (s : State) (p : Port) (ofs : BitVec 20) : State :=
  access s p (fun s =>
    if ofs.toNat % 4 ≠ 0 then badAccess s p true
    else match blkOf ofs, inWindow ofs with
    | 0, o =>
      match semIndex o with
      | some k => semRead s p k false
      | none => clearRc (readDone s p (portReg s p o)) p 0 o
    | 0x02, 0x108 => tickLoRead s p
    | 0x09, 0x120 => ntmNowNsRead s p
    | 0x0A, 0x130 => brkCalSnapRead s p
    | 0x0F, 0x204 => recWinStateRead s p
    | 0x0F, 0x224 => recWin7Read s p
    | b, o => clearRc (readDone s p (barValue s p b o)) p b o)
/-! ### Identity and expert access (R64 to R66, R567) -/

def doGetIdentity (d : List Byte) (w : Who) (s : State) : State :=
  refuseOr s w [(d.length != 0, 0x0109)] (fun s =>
    respond s w 0 (leBytes 2 0x4824 ++ leBytes 1 Config.stepping.toNat ++ leBytes 1 0 ++ leBytes 8 Config.serial.toNat ++ leBytes 1 (runningSlot s) ++
      leBytes 1 (roleNo s) ++ leBytes 2 (if isPair s then domainOf s else 0) ++ leBytes 1 (if isPair s then positionOf s else 0) ++ leBytes 1 0))
/-- A block mask with a bit outside blocks 0x01 to 0x13. -/
def maskOutside (m : Nat) : Bool := bitOf m 0 || decide (m ≥ 2 ^ 20)
def doExpertUnlock (d : List Byte) (w : Who) (s : State) : State :=
  let m := leAt d 0 4
  refuseOr s w [(inBootOrShadow s, 0x0103), (d.length != 8, 0x0109), (leAt d 4 4 != 0x45585054, 0x0105), (maskOutside m, 0x0108),
      ((portSt s (otherPort w.port)).expert &&& BitVec.ofNat 20 m != 0#20, 0x0104)] (fun s =>
    respond (record (setPort s w.port (fun q => { q with expert := q.expert ||| BitVec.ofNat 20 m })) 0x0120 [portNo w.port, m]) w 0 [])
def doExpertLock (d : List Byte) (w : Who) (s : State) : State :=
  refuseOr s w [(d.length != 4, 0x0109), (maskOutside (leAt d 0 4), 0x0108)] (fun s => respond (endExpert s w.port (BitVec.ofNat 20 (leAt d 0 4))) w 0 [])

/-! ### Reads and changes by mailbox (R78, R79, R568) -/

def doGetConfig (stage : Bool) (d : List Byte) (w : Who) (s : State) : State :=
  let b := leAt d 0 1
  let os := (List.range ((d.length - 4) / 4)).map (fun i => leAt d (4 + 4 * i) 4)
  refuseOr s w [(decide (d.length < 8) || d.length % 4 != 0 || leAt d 1 3 != 0 || os.any (fun o => decide (o ≥ 0x8000) || o % 4 != 0), 0x0109),
      (b == 0 || decide (b > 0x13), 0x0108)] (fun s =>
    respond s w 0 (os.flatMap (fun o => leBytes 4 (regValue s w.port b o stage stage).toNat)))
/-- The bits of a register that SET_CONFIG may write (R64, R79); none where there is no register. -/
def writableMask (b o : Nat) : Option Dword :=
  if o = 0 ∨ o = 4 then some 0#32
  else if o = 8 then some 8#32
  else (regDef b o).map (fun d => BitVec.ofNat 32 (d.staged ||| d.live ||| d.rw))
def entryBad (b : Nat) (e : Nat × Dword × Dword) : Bool :=
  match writableMask b e.1 with
  | some m => e.2.1 &&& ~~~m != 0#32
  | none => true
/-- Entries of offset, mask and value. -/
def entriesOf (d : List Byte) : List (Nat × Dword × Dword) :=
  (List.range (d.length / 12)).map (fun i => (leAt d (12 * i) 4, BitVec.ofNat 32 (leAt d (12 * i + 4) 4), BitVec.ofNat 32 (leAt d (12 * i + 8) 4)))
/-- The STAGED part of entries, and their LIVE and RW part with VIEW. -/
def stagedPart (b : Nat) (es : List (Nat × Dword × Dword)) : List (Nat × Dword × Dword) := es.map (fun e => (e.1, e.2.1 &&& stagedMask b e.1, e.2.2))
def directPart (b : Nat) (es : List (Nat × Dword × Dword)) : List (Nat × Dword × Dword) :=
  (es.map (fun e => (e.1, e.2.1 &&& ~~~stagedMask b e.1, e.2.2))).filter (fun e => e.2.1 != 0#32)
def doSetConfig (d : List Byte) (w : Who) (s : State) : State :=
  let b := leAt d 0 1
  let es := entriesOf (d.drop 4)
  refuseOr s w [(inBootOrShadow s, 0x0103), (decide (d.length < 16) || (d.length - 4) % 12 != 0 || leAt d 1 3 != 0, 0x0109),
      (b == 0 || decide (b > 0x13), 0x0108)] (fun s =>
    match firstReason [(es.any (entryBad b), 0x0107), (expertHeld s .a b || expertHeld s .b b, 256 * b + 0xF2), (blkBusy s b, 256 * b + 0xF0),
        (transPending s, 256 * b + 0xF1)] with
    | some c => respond (setReason s b c) w c []
    | none => startCheck s b (writeFields b (blkCfg s b).inForce (stagedPart b es)) (.setConfig w (directPart b es)))

/-! ### Force commands (R105 to R108, R570) -/

def forceRefs (work : ForceWork) : List Nat :=
  match work with
  | .set es => es.map (fun e => e.1)
  | .clear rs => rs
  | .clearAll => []
/-- The force stratum after a force command. -/
def forcesAfter (tbl : SMap Point) (fs : SMap Force) (work : ForceWork) : SMap Force :=
  match work with
  | .set es => es.foldl (fun m e => smPut m (e.1 % 2 ^ 23) (forceAt tbl e.1 e.2.1 e.2.2)) fs
  | .clear rs => rs.foldl (fun m r => smDel m (r % 2 ^ 23)) fs
  | .clearAll => []
/-- A mask that a FORCE_SET entry may not have. -/
def maskBad (e : Nat × Nat × Nat) : Bool := e.2.1 == 0 || (!bitOf e.1 23 && decide (e.2.1 > 1))
/-- The forces as the commands that have passed their check will leave them, in the order of the commands. -/
def forcesDue (s : State) : SMap Force :=
  (s.img.forceOps.filter (fun o => o.passedAt.isSome)).foldl (fun fs o => forcesAfter (pointTable s) fs o.work) s.img.forces
/-- The first reason of R107 that a force command fails with, on top of forces that come before it. -/
def forceCheck (s : State) (fs : SMap Force) (work : ForceWork) : Option Nat :=
  let refs := forceRefs work
  match work with
  | .clearAll => none
  | _ => firstReason [(s.ldr.inForce.isNone, 0x0306), (refs.any (fun r => (smGet (pointTable s) (r % 2 ^ 23)).isNone), 0x0301),
      (refs.any (fun r => match smGet (pointTable s) (r % 2 ^ 23) with | some p => p.word != bitOf r 23 | none => false), 0x0302),
      (match work with | .set es => es.any maskBad | _ => false, 0x0303), (decide ((forcesAfter (pointTable s) fs work).length > 131072), 0x0304)]
/-- Whether a payload of entries of n bytes, in words of 4, is well formed. -/
def forcePayBad (d : List Byte) (n : Nat) : Bool :=
  d.isEmpty || d.length % n != 0 || decide (d.length / n > 4096) || (List.range (d.length / 4)).any (fun i => leAt d (4 * i + 3) 1 != 0)
def forceSetOf (d : List Byte) : ForceWork := .set ((List.range (d.length / 12)).map (fun i => (leAt d (12 * i) 4, leAt d (12 * i + 4) 4, leAt d (12 * i + 8) 4)))
def forceClearOf (d : List Byte) : ForceWork := .clear ((List.range (d.length / 4)).map (fun i => leAt d (4 * i) 4))
/-- A force command whose check begins. -/
def askForce (s : State) (w : Who) (work : ForceWork) : State := { s with img.forceOps := s.img.forceOps ++ [{ work := work, who := w, passedAt := none }] }
def doForceSet (d : List Byte) (w : Who) (s : State) : State :=
  refuseOr s w [(inBootOrShadow s, 0x0103), (s.ldr.inForce.isNone, 0x0306), (forcePayBad d 12, 0x0305)] (fun s => askForce s w (forceSetOf d))
def doForceClear (d : List Byte) (w : Who) (s : State) : State :=
  refuseOr s w [(inBootOrShadow s, 0x0103), (s.ldr.inForce.isNone, 0x0306), (forcePayBad d 4, 0x0305)] (fun s => askForce s w (forceClearOf d))
def doForceClearAll (d : List Byte) (w : Who) (s : State) : State :=
  refuseOr s w [(inBootOrShadow s, 0x0103), (d.length != 0, 0x0305)] (fun s => askForce s w .clearAll)
def doForceList (d : List Byte) (w : Who) (s : State) : State :=
  refuseOr s w [(inBoot s, 0x0103), (d.length != 4, 0x0305)] (fun s =>
    let total := s.img.forces.length
    let es := (s.img.forces.drop (leAt d 0 4)).take 4096
    let next := if leAt d 0 4 + es.length < total then leAt d 0 4 + es.length else 0xFFFFFFFF
    respond s w 0 (leBytes 4 total ++ leBytes 4 next ++ es.flatMap forceEntry))
/-- The CONTROL record of a force command. -/
def forceControl (work : ForceWork) : Nat × List Byte :=
  match work with
  | .set es => (0x0301, es.flatMap (fun e => leBytes 4 e.1 ++ leBytes 4 e.2.1 ++ leBytes 4 e.2.2))
  | .clear rs => (0x0302, rs.flatMap (leBytes 4))
  | .clearAll => (0x0303, [])
/-- The checks of the force commands that run end (R107). -/
def forceChecksEnd (s : State) : State :=
  s.img.forceOps.foldl (fun s o =>
    match o.passedAt with
    | some _ => { s with img.forceOps := s.img.forceOps ++ [o] }
    | none =>
      match forceCheck s (forcesDue s) o.work with
      | some c => respond s o.who c []
      | none =>
        let s1 := { s with img.forceOps := s.img.forceOps ++ [{ o with passedAt := some s.now }] }
        sendControl s1 (applyTick s1) (forceControl o.work).1 (forceControl o.work).2) { s with img.forceOps := [] }

/-! ### CONSISTENCY_CHECK_END (R71, R72, R78) -/

def workWho (k : CfgWork) : Option Who :=
  match k with
  | .commit => none
  | .setConfig w _ | .linkTable w _ _ | .brkOp w _ | .preset w _ _ _ _ => some w
/-- The result goes to the REASON field for a COMMIT, SET_CONFIG and LNK_TABLE_SET (R69, R316). -/
def workReason (k : CfgWork) : Bool := match k with | .commit | .setConfig _ _ | .linkTable _ _ _ => true | _ => false
/-- The check of a block's change ends. -/
def blockCheckEnd (s : State) (b : Nat) : State :=
  match (blkCfg s b).check with
  | none => s
  | some k =>
    let res := workCheck s b k.copy k.work
    let s1 := setBlk s b (fun c => { c with check := none })
    let s2 := if workReason k.work then setReason s1 b (res.getD 0) else s1
    let s3 := match res with
      | some c => respondOpt s2 (workWho k.work) c s2.tck.tick ((workParams s b k.copy k.work c).flatMap (leBytes 1))
      | none =>
        let t := setBlk s2 b (fun c => { c with pend := some { copy := k.copy, work := k.work, passedAt := s2.now } })
        let t1 := if b = 0x10 then wdtPassed t else t
        let x := controlOf t1 b k.copy k.work
        if b = 0x08 then t1 else sendControl t1 (applyTick t1) x.1 x.2
    if k.discard then reloadStage s3 b else s3
def checkEnd (s : State) (b : Nat) : State :=
  let s1 := blockCheckEnd s b
  if b = 0x03 then forceChecksEnd s1 else s1

/-! ### Host transfers (R62) -/

/-- HOST_TRANSFER_END: the oldest transfer of the slot ends. -/
def hostTransferEnd (s : State) (p : Port) (slot : Fin 32) (res : TransferResult) : State :=
  match s.host.xfers.find? (fun x => x.who.port == p && x.who.slot == slot) with
  | none => s
  | some x =>
    let s1 := { s with host.xfers := s.host.xfers.erase x }
    match x.kind with
    | .load b ofs => loadDataEnd s1 x b ofs res
    | .toHost _ => respond s1 x.who (match res with | .done _ => 0 | .error => 0x0106) []
    | .launch eth sec ns => launchEnd s1 x eth sec ns res

/-! ### The rows -/

def execBar0BadAccess (p : Port) (read : Bool) (s : State) : Host.Outcome State Fault Refusal := .next (badAccess s p read)
def execBar2Write (p : Port) (s : State) : Host.Outcome State Fault Refusal := .next (if mailboxUp s then access s p (fun s => countDenied s p) else s)
def execRegisterWrite (p : Port) (ofs : BitVec 20) (v : Dword) (s : State) : Host.Outcome State Fault Refusal := .next (barWrite s p ofs v)
def execW1cWrite (p : Port) (ofs : BitVec 20) (v : Dword) (s : State) : Host.Outcome State Fault Refusal := .next (barWrite s p ofs v)
def execRcRead (p : Port) (ofs : BitVec 20) (s : State) : Host.Outcome State Fault Refusal := .next (barRead s p ofs)
def execEnableWrite (p : Port) (ofs : BitVec 20) (v : Dword) (s : State) : Host.Outcome State Fault Refusal := .next (barWrite s p ofs v)
def execCommit (p : Port) (blk : Fin 20) (s : State) : Host.Outcome State Fault Refusal := .next (barWrite s p (BitVec.ofNat 20 (windowBase blk.val + 4)) 1#32)
def execDiscard (p : Port) (blk : Fin 20) (s : State) : Host.Outcome State Fault Refusal := .next (barWrite s p (BitVec.ofNat 20 (windowBase blk.val + 4)) 2#32)
def execSemRead (p : Port) (k : Fin 64) (tie : Bool) (s : State) : Host.Outcome State Fault Refusal := .next (access s p (fun s => semRead s p k tie))
def execSemWrite (p : Port) (k : Fin 64) (_ : Dword) (s : State) : Host.Outcome State Fault Refusal := .next (access s p (fun s => semWrite s p k))
def execTckTickLoRead (p : Port) (s : State) : Host.Outcome State Fault Refusal := .next (tickLoRead s p)
def execHostTransferEnd (p : Port) (slot : Fin 32) (res : TransferResult) (s : State) : Host.Outcome State Fault Refusal := .next (hostTransferEnd s p slot res)
def execGetIdentity (r : Req) (s : State) : Host.Outcome State Fault Refusal := .next (command s r 0x0101 (fun q => doGetIdentity q.payload))
def execExpertUnlock (r : Req) (s : State) : Host.Outcome State Fault Refusal := .next (command s r 0x0102 (fun q => doExpertUnlock q.payload))
def execExpertLock (r : Req) (s : State) : Host.Outcome State Fault Refusal := .next (command s r 0x0103 (fun q => doExpertLock q.payload))
def execGetConfig (r : Req) (s : State) : Host.Outcome State Fault Refusal := .next (command s r 0x0104 (fun q => doGetConfig false q.payload))
def execSetConfig (r : Req) (s : State) : Host.Outcome State Fault Refusal := .next (command s r 0x0105 (fun q => doSetConfig q.payload))
def execGetStage (r : Req) (s : State) : Host.Outcome State Fault Refusal := .next (command s r 0x0106 (fun q => doGetConfig true q.payload))
def execForceSet (r : Req) (s : State) : Host.Outcome State Fault Refusal := .next (command s r 0x0301 (fun q => doForceSet q.payload))
def execForceClear (r : Req) (s : State) : Host.Outcome State Fault Refusal := .next (command s r 0x0302 (fun q => doForceClear q.payload))
def execForceClearAll (r : Req) (s : State) : Host.Outcome State Fault Refusal := .next (command s r 0x0303 (fun q => doForceClearAll q.payload))
def execForceList (r : Req) (s : State) : Host.Outcome State Fault Refusal := .next (command s r 0x0304 (fun q => doForceList q.payload))
def execConsistencyCheckEnd (blk : Fin 20) (s : State) : Host.Outcome State Fault Refusal := .next (checkEnd s blk.val)
def execBrkCountdownSetWrite (p : Port) (v : Dword) (s : State) : Host.Outcome State Fault Refusal := .next (barWrite s p 0x50110#20 v)
def execLchOverloadWrite (p : Port) (v : Dword) (s : State) : Host.Outcome State Fault Refusal := .next (barWrite s p 0x60108#20 v)

end Sys2Proof.Machine
end

