-- ==== Sys2Proof/Machine/Edge.lean ====
section
/-! DEFINITION. What happens at a tick edge to the image, the configuration and the records of the carry link: the cut, the launch, pending changes, LIVE writes, force commands, CONTROL records, releases (R20, R72, R77, R92 to R110, R117, R252, R339). -/
namespace Sys2Proof.Machine
open Sys2Proof

/-! ### The cut (R92 to R97, R321) -/

/-- Phase of the station that carries a point; 0 for every other source. -/
def sourcePhase (s : State) (pt : Point) : Nat :=
  match pt.source with
  | .link k _ path _ _ =>
    match indexOfPath (linkAt s k).table path with
    | some i => (stationAt (linkAt s k).table i).phase
    | none => 0
  | _ => 0
/-- An input point of cut m. A point of a link whose round has not come keeps its value in a unit that sent no SUMMON. A new local point
may be GOOD in the first cut after its table, as R120's table says, where R118 keeps every new input SUBSTITUTED for two cuts (log 91). -/
def cutOne (s : State) (m : Nat) (sender : Bool) (pt : Point) (i : InPt) : InPt :=
  match pt.source with
  | .link k _ path _ _ =>
    let l := linkAt s k
    let lost := match indexOfPath l.table path with | some j => (liveAt s k j).lost | none => true
    cutPoint pt i (dueIn m (sourcePhase s pt) pt.divisor true) lost (sender || l.echoed) (if m ≥ i.since + 2 then i.recv else none)
  | .local ch item => let o := localOffer s ch item; cutPoint pt i (dueIn m 0 pt.divisor false) o.1 false o.2
  | .can k n x => let o := canOffer s k n x pt.word; holdPoint pt i (dueIn m 0 pt.divisor false) o.1 o.2
  | .meter f item phase => let o := meterOffer s f item phase; holdPoint pt i (dueIn m 0 pt.divisor false) o.1 o.2
/-- A local DIAG point of a table that has just come into force is GOOD at once, with the value of the edge: the part itself produces it (R426,
log 91). -/
def diagGood (s : State) : State :=
  let tbl := pointTable s
  { s with img.ins := s.img.ins.map (fun (e : Nat × InPt) =>
      match smGet tbl e.1 with
      | some pt => (match pt.source with
        | .local ch 2 => if e.2.substituted then let v := BitVec.ofNat 24 (b2n (diagBit s ch)); (e.1, { e.2 with cut := v, good := v, substituted := false, fresh := true }) else e
        | _ => e)
      | none => e) }
/-- Cut m is frozen (R94); `sender` tells that the unit sent the SUMMONs of the tick that ends. -/
def freezeCut (s : State) (m : Nat) (sender : Bool) : State :=
  let tbl := pointTable s
  let s1 := { s with img.ins := s.img.ins.map (fun (e : Nat × InPt) => match smGet tbl e.1 with | some pt => (e.1, cutOne s m sender pt e.2) | none => e) }
  meterCutDone (canCutDone (localCutDone { s1 with img.cutTick := BitVec.ofNat 32 m, img.cutSubst := BitVec.ofNat 24 (substitutedCount s1) }))

/-! ### The launch (R26, R93, R100, R103, R110, R346) -/

/-- What a launch sends: stop values, the launch copy, what HOLD_OUT selects, or nothing. -/
inductive LaunchRule | stop | copy | held | none
deriving DecidableEq, Repr
/-- The rule at an edge where the mode goes from `old` to `new`: it follows the new mode, but for a RUN that has just begun. -/
def launchRule (old new : Mode) : LaunchRule :=
  match new with
  | .stop => if old = .boot then .none else .stop
  | .hold => .held
  | .run =>
    match old with
    | .run | .shadow => .copy
    | .hold => .held
    | .stop => .stop
    | _ => .none
  | _ => .none
/-- One output point at the launch: the value selected, without forces, and what leaves. -/
def launchOne (s : State) (rule : LaunchRule) (p : Nat) (pt : Point) (o : OutPt) : OutPt :=
  let forced (x : Word) : Word := applyForce (forceOf s p) pt.word x
  match rule with
  | .stop => { o with sent := stopValue pt o, everSent := true }
  | .copy => { o with sent := forced o.launch, everSent := true, runVal := o.launch, liveVal := o.launch }
  | .held =>
    let x := if cfgBit s 0x02 0x100 12 then stopValue pt o else o.runVal
    { o with sent := forced x, everSent := true, liveVal := x }
  | .none => o
/-- The launch of edge m, by a unit that holds the claim. -/
def launchOutputs (s : State) (m : Nat) (rule : LaunchRule) : State :=
  if !holdsClaim s then s
  else
    let tbl := pointTable s
    { s with img.outs := s.img.outs.map (fun (e : Nat × OutPt) =>
        match smGet tbl e.1 with
        | some pt => if dueOut m (sourcePhase s pt) pt.divisor && decide (e.2.since ≤ m) then (e.1, launchOne s rule e.1 pt e.2) else e
        | none => e) }

/-! ### Configuration that applies at an edge (R72, R77, R78, R81) -/

/-- After a change that is no COMMIT of the stage copy, a register of the stage copy that showed the old value shows the new one. -/
def followStage (b : Nat) (old new stage : RegFile) : RegFile :=
  (old ++ new).foldl (fun f e =>
    let m := stagedMask b e.1
    if fileReg f b e.1 &&& m = fileReg old b e.1 &&& m then fileSet f b e.1 (maskWrite (fileReg f b e.1) (fileReg new b e.1) m) else f) stage
/-- LIVE writes take effect; LIVE bits in force are those last written. -/
def liveApply (s : State) (b : Nat) : State :=
  let c := blkCfg s b
  let new := mergeFile b (liveMask b) c.inForce c.written
  if new = c.inForce then s else setBlk s b (fun c => { c with inForce := new })
/-- Fields changed at once in a block, with what follows: STAGED under the stage copy's rule, LIVE and RW as written. -/
def changeNow (s : State) (b : Nat) (new : RegFile) (direct : List (Nat × Dword × Dword)) (m : Nat) : State :=
  let old := (blkCfg s b).inForce
  let s1 := applyFile s b (writeFields b new direct) m
  let s2 := setBlk s1 b (fun c => { c with stage := followStage b old new c.stage, written := writeFields b c.written direct })
  if b = 0x0A ∧ direct.any (fun e => e.1 == 0x110) then { s2 with brk.cdWritten := true } else s2
/-- A change whose check has passed applies. -/
def applyWork (s : State) (b : Nat) (p : PendCfg) (m : Nat) : State :=
  let at' := BitVec.ofNat 64 m
  let s1 := setBlk s b (fun c => { c with pend := none, lastApply := BitVec.ofNat 16 m })
  match p.work with
  | .commit => applyFile s1 b (stagedOver s1 b p.copy) m
  | .setConfig w rw =>
    let t := changeNow s1 b (stagedOver s1 b p.copy) (rw.filter (fun e => e.1 != 8)) m
    respondAt ((rw.filter (fun e => e.1 == 8)).foldl (fun t e => viewWrite t w.port b (e.2.2.getLsbD 3)) t) w 0 at' []
  | .linkTable w k t => respondAt (tableApply s1 k t) w 0 at' []
  | .brkOp w op => respondAt (handOver s1 op) w 0 at' []
  | .preset w f a v n => respondAt (presetApply s1 f a v n) w 0 at' []
/-- A pending change of a block that is due. -/
def pendDue (s : State) (b : Nat) : Option PendCfg :=
  match (blkCfg s b).pend with
  | some p => if p.passedAt + 2000 ≤ s.now then some p else none
  | none => none
def pendApply (s : State) (m b : Nat) : State :=
  match pendDue s b with
  | some p => applyWork s b p m
  | none => s
/-- LIVE writes and pending changes of every block; the running firmware keeps committed settings. -/
def configEdge (s : State) (m : Nat) : State :=
  let due := (List.range 20).any (fun b => (pendDue s b).isSome)
  let s1 := (List.range 20).foldl liveApply s
  let s2 := (List.range 20).foldl (fun s b => pendApply s m b) s1
  if due then saveSettings s2 else s2

/-! ### Force commands at their edge (R104, R106, R107, R117) -/

/-- A force command applies. -/
def forceNow (s : State) (w : Who) (work : ForceWork) (m : Nat) : State :=
  let fs := s.img.forces
  let after := forcesAfter (pointTable s) fs work
  let s1 := { s with img.forces := after }
  let s2 := match work with
    | .clearAll => record s1 0x0313 [fs.length]
    | .set es => record s1 0x0310 [((es.map (fun e => e.1)).eraseDups).length, 0, after.length]
    | .clear _ => record s1 0x0310 [0, fs.length - after.length, after.length]
  respondAt s2 w 0 (BitVec.ofNat 64 m) []
/-- Force commands due at edge m, in order; `newTab` tells that a table came into force at this edge. -/
def forceEdge (s : State) (m : Nat) (newTab : Bool) : State :=
  let due (o : ForceOp) : Bool := match o.passedAt with | some t => decide (t + 2000 ≤ s.now) | none => false
  (s.img.forceOps.filter due).foldl (fun s o =>
    if newTab && (forceCheck s s.img.forces o.work).isSome then respondAt s o.who 0x0311 (BitVec.ofNat 64 m) [] else forceNow s o.who o.work m)
    { s with img.forceOps := s.img.forceOps.filter (fun o => !due o) }

/-! ### CONTROL records at their edge (R339) -/

/-- The result of a CONTROL record differs from the active unit's: CAUSES bit 10, and a resync. -/
def controlDiffers (s : State) : State := startSync { s with cry.causes := s.cry.causes ||| 0x400#16 }
/-- A command that the standby cannot carry out changes nothing: its result differs. -/
def orDiffers (s t : State) : State := if t = s then controlDiffers s else t
/-- A COMMIT, a DISCARD, or a STAGED, LIVE or RW write of the active unit. -/
def carriedWrite (s : State) (d : List Byte) (m : Nat) : State :=
  let b := leAt d 0 1
  let o := leAt d 4 4
  if b = 0 ∨ b > 0x13 ∨ b = 0x08 then s
  else if o = 4 then
    if leAt d 8 4 = 2 then reloadStage s b
    else
      let s1 := if b = 0x10 then wdtPassed s else s
      saveSettings (changeNow s1 b (stagedOver s1 b (fileOfBytes b (d.drop 12))) [] m)
  else
    match regDef b o with
    | none => s
    | some r =>
      let e := (o, BitVec.ofNat 32 (r.live ||| r.rw), BitVec.ofNat 32 (leAt d 8 4))
      let s1 := setBlk s b (fun c => { c with inForce := writeFields b c.inForce [e], written := writeFields b c.written [e]
                                              stage := writeFields b c.stage [(o, BitVec.ofNat 32 r.staged, BitVec.ofNat 32 (leAt d 8 4))] })
      if b = 0x0A ∧ o = 0x110 then { s1 with brk.cdWritten := true } else s1
/-- What a CONTROL record does: the command of its code, without an answer. A force command that fails against a table that has come
into force at this edge fails at the active unit too (R117 step 3). -/
def controlDo (s : State) (code : Nat) (d : List Byte) (m : Nat) (newTab : Bool) : State :=
  let w := noWho
  let force (k : ForceWork) : State := if (forceCheck s s.img.forces k).isSome then (if newTab then s else controlDiffers s) else forceNow s w k m
  match code with
  | 0x0000 => carriedWrite s d m
  | 0x0105 =>
    let b := leAt d 0 1
    let es := entriesOf (d.drop 4)
    if b = 0 ∨ b > 0x13 ∨ b = 0x08 then s
    else
      let s1 := if b = 0x10 then wdtPassed s else s
      saveSettings (changeNow s1 b (writeFields b (blkCfg s1 b).inForce (stagedPart b es)) (directPart b es) m)
  | 0x0205 => doFaultAck true w s
  | 0x0301 => force (forceSetOf d)
  | 0x0302 => force (forceClearOf d)
  | 0x0303 => force .clearAll
  | 0x0501 => orDiffers s (doLoadBegin true d w s)
  | 0x0502 => orDiffers s (placeChunk s (if bitOf (leAt d 0 4) 31 then .b else .a) (leAt d 0 4 % 2 ^ 29) (d.length - 4) (some (d.drop 4)))
  | 0x0503 => orDiffers s (doLoadEnd true d w s)
  | 0x0504 => orDiffers s (doVerify true d w s)
  | 0x0505 => orDiffers s (doActivate true d w s)
  | 0x0506 => orDiffers s (doSave true d w s)
  | 0x0507 => orDiffers s (doRestore true d w s)
  | 0x0508 => orDiffers s (doErase true d w s)
  | 0x0601 => orDiffers s (doChgStart true d w s)
  | 0x0602 => doChgAbort true [] w s
  | 0x0701 =>
    match parseTable (d.drop 4) with
    | some t => saveSettings (tableApply s (leAt d 0 1) t)
    | none => controlDiffers s
  | 0x0901 => correctEdge (doNtmSetTime true d w s)
  | 0x0902 => doNtmSetUtc true d w s
  | 0x0903 => orDiffers s (launchPut s w (leAt d 0 1 == 1) (leAt d 2 6) (leAt d 8 4) (d.drop 12))
  | 0x0A01 => handOver s (setOfPay d)
  | 0x0A02 => handOver s (shiftOfPay d)
  | 0x0A03 => doBrkPwron true d w s
  | 0x0B01 => doCanRecover true d w s
  | 0x0B02 => doCanDetect true d w s
  | 0x0B03 => doCanHpRead true d w s
  | 0x0C01 => doLchClear true d w s
  | 0x0D02 => presetApply s (leAt d 0 1) (leAt d 1 1) (leAt d 2 6) (leAt d 8 1)
  | 0x0E02 => doSltRecWrite true d w s
  | 0x0E04 => doSltTallyAdd true d w s
  | 0x0E06 => doSltRawWrite true d w s
  | 0x0F05 => doRecArchiveFlush true [] w s
  | 0x1002 => doWdtEvidenceClear true d w s
  | _ => s
/-- One CONTROL record at edge m; one whose apply edge is past is recorded. -/
def controlOne (s : State) (m : Nat) (newTab : Bool) (c : Control) : State :=
  let code := c.code.toNat
  let d := if code = 0 then c.data else slice c.data 4 (leAt c.data 0 4)
  let s1 := if seqBefore c.apply.toNat (m % 2 ^ 32) then
      record s 0x082A [code, if code = 0 ∨ code = 0x0105 then leAt d 0 1 else code / 256, if code = 0 then leAt d 4 4 else 0]
    else s
  controlDo s1 code d m newTab
/-- The three places that R117 gives what a CONTROL record carries: ACTIVATE before the table, force commands after it, then the rest. -/
def controlPlace (code : Nat) : Nat := if code = 0x0505 then 0 else if 0x0301 ≤ code ∧ code ≤ 0x0303 then 1 else 2
/-- The CONTROL records of a place that are due at edge m, in the order in which they came. -/
def controlEdge (s : State) (m place : Nat) (newTab : Bool) : State :=
  let due (c : Control) : Bool := !seqBefore (m % 2 ^ 32) c.apply.toNat && controlPlace c.code.toNat == place
  (s.cry.controls.filter due).foldl (fun s c => controlOne s m newTab c) { s with cry.controls := s.cry.controls.filter (fun c => !due c) }

/-! ### Banks and releases at an edge (R237, R244, R252, R255, R265) -/

/-- An ACTIVATE that is due at this edge. -/
def activateDue (s : State) : Option Activate :=
  match s.ldr.activate with
  | some a => if a.accepted + 2000 ≤ s.now then some a else none
  | none => none
/-- A bank that this edge leaves in force is admitted for the tick period (R22). -/
def runAllowedAt (s : State) : Bool :=
  match activateDue s, s.ldr.inForce with
  | some a, _ => (bankSt s a.bank).phase == .admitted && (bankSt s a.bank).period == tickPeriod s
  | none, some b => (bankSt s b).phase == .admitted && (bankSt s b).period == tickPeriod s
  | none, none => false
/-- A swap order that no seal has carried by its edge: the standby is copied anew (R267). -/
def sealLate (s : State) : State := if s.cry.swapSeal && partnerShadow s then startBulk { s with cry.swapSeal := false } else { s with cry.swapSeal := false }
/-- The ordered swap, and the ACTIVATE that is due. -/
def bankEdge (s : State) (m : Nat) : State :=
  let due : Bool := match s.chg.swapAt with | some x => decide (x ≤ m) | none => false
  let s1 := if s.chg.stage = .ordered ∧ due then sealLate (swapEdge s m) else s
  match activateDue s1 with
  | none => s1
  | some a =>
    let s2 := keepTriggers (bringIntoForce { s1 with ldr.activate := none } a.bank m) (fun _ => false)
    respondAt (record s2 0x0541 [bankNo a.bank]) a.who 0 (BitVec.ofNat 64 m) []
/-- The tasks that run in tick m: cyclic ones that are due, and those that latched triggers release. -/
def releaseTasks (s : State) (m : Nat) : State :=
  match bankInForce s with
  | none => { s with tasks.released := [] }
  | some b =>
    let of (t : Task) : Option Release :=
      if t.kind = 0 then (if (m + t.phase) % max t.period 1 = 0 then some { task := t.id, count := 1, first := 0 } else none)
      else
        let mine := s.tasks.latched.filter (taskTakes t)
        match mine with
        | [] => none
        | i :: _ => some { task := t.id, count := satN 0xFFFFFF mine.length, first := i }
    { s with tasks := { latched := [], released := b.tasks.filterMap of } }

end Sys2Proof.Machine
end

