-- ==== Sys2Proof/Machine/Tick.lean ====
section
/-! DEFINITION. The tick: the deadline, the tick edge with its mode transition, the first edge after BOOT, and PFW (R15 to R31, R35, R41, R42, R109, R345 to R353). -/
namespace Sys2Proof.Machine
open Sys2Proof

/-! ### The deadline (R17, R18, R262, R350) -/

/-- Rods that have not reached the end of their schedule. -/
def rodsLeft (s : State) : Nat := if s.tck.phase = .ended then 0 else (s.rods.rods.toList.filter (fun r => r.run != .done)).length
/-- A tick that meets its deadline: the launch copy is taken, and a swap is decided where no seal has carried the decision. -/
def deadlineKept (s : State) : State :=
  let s1 := takeLaunch { s with tck.deadlineMet := some true }
  if s1.tck.mode = .run ∧ s1.tck.sealOfs.isNone then swapDecision s1 (nextEdge s1) else s1
/-- A tick overrun: its delta is never sealed, so nothing of it waits for a seal (R18). -/
def overrun (s : State) : State :=
  { dropDelta (tallyUp (raiseFault s 0x0209 none 0 [rodsLeft s, b2n s.tck.sealOfs.isSome, s.tck.throttle.toNat]) 7) with tck.deadlineMet := some false }
/-- A planned switchover at the deadline: a seal that carried the confirmed order releases the claim; a tick whose order could
not be carried postpones it, at most 1,000 times. -/
def switchoverDeadline (s : State) : State :=
  match s.cry.switchover with
  | none => s
  | some x =>
    let y := if s.tck.sealOfs.isSome then x else { x with orderedAt := none, postponed := x.postponed + 1 }
    let s1 := { s with cry.switchover := some y }
    if y.postponed ≥ 1000 then respond { s1 with cry.switchover := none } y.who 0x0809 []
    else
      match y.orderedAt with
      | some t => if y.confirmed ∧ t < s.tck.tick.toNat then releaseClaim s1 else s1
      | none => s1
/-- DEADLINE, once in a tick; the rods of a tick that computes start by then at the latest. CHG_DIRTY shows the dirty units of every
deadline (R271). -/
def deadline (s : State) : State :=
  if !ticking s || s.tck.deadlineMet.isSome then s
  else if s.tck.pend.isSome || !s.tck.computing then noteDirty { s with tck.deadlineMet := some false }
  else
    let s1 := noteDirty (computeStart s)
    if rodsLeft s1 = 0 ∧ s1.cry.sealTick.isNone then switchoverDeadline (deadlineKept s1) else overrun s1

/-! ### The tick that ends (R18, R23, R27, R38) -/

/-- The counters of the throttle, and what the next tick starts from. -/
def throttleTick (s : State) : State :=
  let t := s.tck
  { s with tck.l1Ticks := if t.throttleMax = 1#2 then satAdd t.l1Ticks 1 else t.l1Ticks
           tck.l2Ticks := if t.throttleMax = 2#2 then satAdd t.l2Ticks 1 else t.l2Ticks, tck.throttleMax := t.throttle }
/-- Signals dropped of rods that a fault or an overrun has cut off before their schedule end (R228). -/
def cutSignals (s : State) : State :=
  (List.range 48).foldl (fun s n => if (rodAt s n).run = .done then s else rodDone s n (rodAt s n)) s
/-- The end of the running tick: the deadline if it has not passed, stores of a tick that a fault has abandoned, TCK_PHASE. -/
def closeTick (s : State) : State :=
  let s0 := deadline s
  let s1 := if s0.tck.computing ∧ s0.tck.phase = .compute then cutSignals s0 else s0
  let s2 := if s1.tck.computing ∧ s1.tck.phase = .compute then finishCompute s1 else s1
  throttleTick (if s2.tck.computing ∧ s2.tck.deadlineMet = some true then
    let a := roundFree s2 (s2.tck.endOfs.getD 0) 250
    let b := roundFree a.2 (s2.tck.sealOfs.getD 0) 250
    { b.2 with tck.lastEnd := BitVec.ofNat 16 a.1, tck.lastSeal := BitVec.ofNat 16 b.1 }
  else s2)
/-- Edge m: its number, what restarts with every tick, a quota window (R150), the recorder's own records, device time. Every other report
of the edge waits for its end (R493). -/
def openTick (s : State) (m : Nat) : State :=
  let s1 := { quotaWindow s with tck.tick := BitVec.ofNat 64 m, tck.ofs := 0, tck.swapTick := false, cry.firstSeq := none
                                 img.errNoted := false, rods.errNoted := false, rods.reuseNoted := false }
  ptpEdge (timeEdge (followEdge (batchStart (recorderEdge s1))))

/-! ### The mode at an edge (R25 to R28, R345 to R353) -/

/-- What decides the mode at an edge, in order of precedence. -/
inductive EdgeCause
  | fault (f : PendFault)
  /-- common-cause STOP from the partner (R349) -/
  | partnerStop (c : Code)
  /-- takeover, and planned switchover at the unit that takes over and at the one that releases the claim -/
  | takeover | switchedTo | switchedFrom
  | commanded (t : Transition)
  /-- a RUN out of STOP that no bank admits at its edge (R22) -/
  | barred
  | none
deriving DecidableEq, Repr

/-- The order of a planned switchover names edge m, and the claim can be raised (R325, R350). -/
def orderDue (s : State) (m : Nat) : Bool :=
  s.tck.mode == .shadow && (match s.cry.swOrder with | some t => t.toNat + 2 == m | none => false) && !s.cry.exhausted && decide (nextClaim s ≤ 0xFFFFFF)
/-- A confirmed switchover has released the claim. -/
def hasReleased (s : State) : Bool :=
  !holdsClaim s && (match s.cry.switchover with | some x => x.confirmed && x.orderedAt.isSome | none => false)
/-- Where a STOP is pending at a standby when the edge of a planned switchover comes, the switchover wins: R28 names a fault and a
takeover only (log 92). -/
def edgeCause (s : State) (m : Nat) : EdgeCause :=
  match s.tck.pend, s.cry.partnerStop with
  | some f, _ => .fault f
  | none, some c => .partnerStop c
  | none, none =>
    if s.cry.takeover.isSome then .takeover
    else if orderDue s m then .switchedTo
    else if hasReleased s then .switchedFrom
    else match s.tck.trans with
      | some t => if t.target = .run ∧ s.tck.mode = .stop ∧ !runAllowedAt s then .barred else .commanded t
      | none => .none
def modeAfter (old : Mode) (c : EdgeCause) : Mode :=
  match c with
  | .fault _ | .partnerStop _ => .stop
  | .takeover | .switchedTo => .run
  | .switchedFrom => .shadow
  | .commanded t => t.target
  | .barred | .none => old
/-- TCK_FAULT.REASON: the first reason stays while the part is held in STOP by it. -/
def faultAfter (s : State) (c : EdgeCause) : Code :=
  match c with
  | .fault f => if s.tck.mode = .stop ∧ s.tck.fault ≠ 0#16 then s.tck.fault else f.code
  | .partnerStop _ => 0#16
  | _ => if modeAfter s.tck.mode c = .stop then s.tck.fault else 0#16
/-- Its parameters, with the reason (R30). -/
def faultPsAfter (s : State) (c : EdgeCause) : List Nat :=
  match c with
  | .fault f => if s.tck.mode = .stop ∧ s.tck.fault ≠ 0#16 then s.tck.faultPs else f.params
  | .partnerStop _ => []
  | _ => if modeAfter s.tck.mode c = .stop then s.tck.faultPs else []
/-- The claim as the cause leaves it: it counts for the launch of this edge already (R346, R350, R353). -/
def claimEdge (s : State) (c : EdgeCause) : State :=
  match c with
  | .fault _ => if s.cry.takeover.isSome then linksTakeOver s else s
  | .takeover => linksTakeOver s
  | .switchedTo => linksTakeOver (raiseClaim s)
  | .commanded t => if s.tck.mode = .shadow ∧ t.target = .stop ∧ !s.cry.partner then linksTakeOver (raiseClaim s) else s
  | .partnerStop _ | .switchedFrom | .barred | .none => s
/-- A STOP by command from SHADOW withdraws a bank whose data are not those of the active unit (R353). -/
def leaveShadow (s : State) : State :=
  if s.cry.readiness = 1#2 ∨ (s.cry.readiness = 3#2 ∧ s.cry.causes &&& 0x40C#16 ≠ 0#16) then dropBank s else s
/-- A unit that has raised the claim after BOOT. -/
def raised (s : State) (m : Nat) : State := tallyUp { s with cry.takeoverTick := BitVec.ofNat 32 m } 3
/-- The records that go with the cause; a unit whose takeover ends in a fault at its edge has raised the claim all the same (R484, log 63). -/
def causeEffects (s : State) (m : Nat) (c : EdgeCause) : State :=
  match c with
  | .partnerStop r => record s 0x0829 [r.toNat]
  | .takeover => raised (record s 0x0820 [claimKnown s, m % 2 ^ 24, s.cry.applied.toNat % 2 ^ 24]) m
  | .switchedTo => raised (record s 0x0826 [claimKnown s, m % 2 ^ 24]) m
  | .commanded t => if s.tck.mode = .shadow ∧ t.target = .stop then leaveShadow (refreshReady s) else s
  | .fault _ => if s.cry.takeover.isSome then tallyUp s 3 else s
  | .switchedFrom | .barred | .none => s
/-- The state of the carry receiver and of the self-test as a unit enters SHADOW. -/
def shadowFresh (s : State) : State :=
  { s with cry.rxFrames := [], cry.rxNext := none, cry.rxSeals := [], cry.controls := [], cry.ctlParts := [], cry.catchUp := [], cry.rxAreas := [], cry.rxTotal := 0
           cry.rxArea := none, cry.sealMode := 0, cry.swOrder := none, cry.causes := 0#16, cry.readiness := 3#2, cry.item := 0, cry.passed := []
           cry.rotations := 0, cry.corrections := 0#16, cry.syncing := false, cry.bulk := [], cry.bulkDone := 0, cry.sealTick := none, cry.tracked := [], cry.records := []
           cry.firstSeq := none, cry.overflow := false, cry.swapSeal := false, cry.sinceC0 := 0, cry.sinceC1 := 0, cry.sinceRe := 0, cry.swapOld := none }
/-- The new mode, with what its change alone brings; a change of program that is still under way ends at STOP (R268). -/
def enterMode (s : State) (m : Nat) (c : EdgeCause) : State :=
  let old := s.tck.mode
  let new := modeAfter old c
  let fault := faultAfter s c
  let s0 := causeEffects s m c
  let s1 := if new = .stop then endChange s0 0x060C else s0
  let s2 := { s1 with tck.mode := new, tck.fault := fault, tck.faultPs := faultPsAfter s c, tck.acked := if new = .stop then s.tck.acked else none }
  let s3 := if new = .shadow ∧ old ≠ .shadow then refreshReady (shadowFresh s2)
    else if old = .shadow ∧ new ≠ .shadow then { s2 with cry.readiness := 3#2, cry.syncing := false, cry.catchUp := [] } else s2
  let s4 := if old = .stop ∧ new ≠ .stop then abandonStaging s3 3 else s3
  if new = old ∧ (fault = s.tck.fault ∨ s.tck.fault ≠ 0#16) then s4 else raiseBoth s4 2

/-! ### What an edge does (R20, R26, R29 to R31, R93, R109, R237, R252, R511) -/

/-- The launch of edge m, and what leaves with it. -/
def launchEdge (s : State) (m : Nat) (old : Mode) : State :=
  let s1 := localLaunch (launchOutputs (localClearEdge s) m (launchRule old s.tck.mode))
  let s2 := linksEdge (canEdge (canEdge s1 0 m) 1 m)
  if holdsClaim s2 then s2 else linksQuiet s2
/-- The watchdog's registered set is made anew where something it depends on has changed. -/
def registerEdge (before s : State) : State :=
  if s.tck.mode = before.tck.mode ∧ s.ldr.inForce = before.ldr.inForce ∧ tickPeriod s = tickPeriod before ∧
     wdtSettings (blkCfg s 0x10).inForce = wdtSettings (blkCfg before 0x10).inForce ∧ (pendDue before 0x10).isNone then s
  else wdtRegister s
/-- Everything that applies at offset 0 of edge m, in the order of R117: the bank with its table, force commands, other configuration.
Watchdog settings that a resync has brought go before what CONTROL records change of them. -/
def applyEdge (s : State) (m : Nat) : State :=
  let s1 := bankEdge (controlEdge (if s.tck.mode = .shadow then pendApply s m 0x10 else s) m 0 false) m
  let newTab := decide (s1.ldr.inForce ≠ s.ldr.inForce)
  let s2 := controlEdge (controlEdge (forceEdge s1 m newTab) m 1 newTab) m 2 newTab
  let s3 := pwronEdge (countdownLoad (configEdge s2 m))
  wdtClearEdge (sltEdge (trimWindowEdge s3))
/-- Answers to the mode commands: 0 for the transition that took effect, 0x0208 for a RUN that no bank admits any more (log 93), 0x0205
for one that was overtaken. -/
def answerTrans (s : State) (m : Nat) (c : EdgeCause) : State :=
  let at' := BitVec.ofNat 64 m
  match s.tck.trans with
  | some t => respondAt { s with tck.trans := none } t.who (match c with | .commanded _ => 0 | .barred => 0x0208 | _ => 0x0205) at' []
  | none => s
def answerSwitchover (s : State) (m : Nat) (c : EdgeCause) : State :=
  match s.cry.switchover, c with
  | some x, .switchedFrom => respondAt { s with cry.switchover := none } x.who 0 (BitVec.ofNat 64 m) []
  | some _, .none => s
  | some x, _ => respondAt { s with cry.switchover := none } x.who 0x0205 (BitVec.ofNat 64 m) []
  | none, _ => s
/-- STEP: its tick begins, or it has been overtaken. -/
def answerStep (s : State) (m : Nat) : State :=
  match s.tck.stepReq with
  | some w =>
    let go := s.tck.mode == .hold
    respondAt { s with tck.stepReq := none, tck.stepped := go } w (if go then 0 else 0x0205) (BitVec.ofNat 64 m) []
  | none => { s with tck.stepped := false }
/-- At the start of the first RUN after BOOT, working copies hold stop values; a unit that takes over keeps those it received. -/
def firstRun (s : State) (c : EdgeCause) : State :=
  if s.tck.mode ≠ .run ∨ s.img.ranOnce then s
  else
    let tbl := pointTable s
    let fresh : Bool := match c with | .takeover | .switchedTo => false | _ => true
    { s with img.ranOnce := true
             img.outs := if fresh then s.img.outs.map (fun (e : Nat × OutPt) => match smGet tbl e.1 with
               | some pt => (e.1, { e.2 with work := stopValue pt e.2 })
               | none => e) else s.img.outs }
/-- Tick m begins: whether it computes, and the tasks it releases. -/
def startTick (s : State) (m : Nat) : State :=
  let go := (s.tck.mode == .run || s.tck.stepped) && (bankInForce s).isSome
  let s1 := { s with tck.computing := go, tck.phase := .edge, tck.deadlineMet := none, tck.endOfs := none, tck.sealOfs := none
                     cry.sealTick := none, cry.overflow := false, cry.queueFull := false, tck.len := tickLength s }
  if go then releaseTasks s1 m else { s1 with tasks.released := [] }
/-- Vector 1 of a port. -/
def edgeVector (s : State) (p : Port) : State :=
  let q := portSt s p
  if q.perst then s
  else if q.edgeCnt ≥ q.edgeDiv.toNat then raiseVector (setPort s p (fun q => { q with edgeCnt := 0 })) p 1
  else setPort s p (fun q => { q with edgeCnt := q.edgeCnt + 1 })
/-- The end of what happens at an edge: the host view, vector 1, and nothing left that waits for this edge. -/
def sealEdge (s : State) (m : Nat) : State :=
  let order := match s.cry.swOrder with | some t => if t.toNat + 2 ≤ m ∨ s.tck.mode ≠ .shadow then none else some t | none => none
  let s0 := diagGood s
  let s1 := { s0 with img.cutSubst := BitVec.ofNat 24 (substitutedCount s0), tck.pend := none, cry.takeover := none, cry.partnerStop := none, cry.swOrder := order }
  let s2 := refreshReady (endSync { s1 with img.view := s1.img.nextView, img.nextView := some (makeView s1) })
  edgeVector (edgeVector (batchEnd s2) .a) .b
/-- Edge m in every mode but DORMANT and BOOT: the cut and the launch under the configuration of before, the launch under the rule of
the new mode (R20, R26); then what applies at offset 0, and the mode after it (R81, R108). -/
def laterEdge (s : State) (m : Nat) : State :=
  let s1 := openTick { closeTick s with tck.elapsed := s.tck.elapsed + periodNs s } m
  let old := s1.tck.mode
  let c := edgeCause s1 m
  let s2 := claimEdge (freezeCut s1 m (holdsClaim s1 && old != .shadow)) c
  let s3 := { launchEdge { s2 with tck.mode := modeAfter old c } m old with tck.mode := old }
  let s4 := enterMode (applyEdge s3 m) m c
  let s5 := answerStep (answerSwitchover (answerTrans s4 m c) m c) m
  sealEdge (startTick (registerEdge s1 (firstRun s5 c)) m) m

/-! ### The first edge after BOOT (R19, R35, R238, R307, R324) -/

/-- The partner holds the claim. -/
def partnerHolds (s : State) : Bool := s.cry.partner && s.cry.pMode != 0#8 && s.cry.pMode != 1#8 && decide (s.cry.pRole.toNat < 2)
/-- Every enabled link goes on with its bring-up, or has failed for want of block lock. -/
def linksStart (s : State) (target : Mode) : State :=
  { s with lnk := Vector.ofFn (fun (k : Fin 24) =>
      let l := s.lnk.get k
      if linkEnabled s k.val then { l with phase := if l.lock then afterLock target else .failed } else { l with phase := .off }) }
/-- The bank that BOOT_BANK names comes into force if it is admitted. -/
def bootBank (s : State) (m : Nat) : State :=
  let b := bankOfNo (cfgField s 0x05 0x100 0 1)
  if (bankSt s b).phase = .admitted then bringIntoForce s b m else s
/-- The first edge: nothing is launched; PTP, the CAN objects and a trim window begin (R363). -/
def firstEdge (s : State) (target : Mode) (code : Code) (ps : List Nat) : State :=
  let m := match target, s.cry.adoptTick with | .shadow, some t => t.toNat + 1 | _, _ => 0
  let s1 := { s with tck.mode := target, tck.fault := code, tck.faultPs := ps, tck.bootEnd := none, tck.begun := some s.now }
  let s2 := freezeCut (openTick s1 m) m false
  let s3 := canApply (trimWindowStart (restartPtp (linksStart (bootBank s2 m) target) true)) [] m
  let s4 := if target ≠ .shadow ∧ code ≠ 0x0806#16 ∧ code ≠ 0x0807#16 ∧ !partnerHolds s3 then raiseClaim s3 else s3
  let s5 := linksEdge (if target = .shadow then startSync (shadowFresh s4) else s4)
  let s6 := wdtRegister { s5 with img.ranOnce := target == .run }
  sealEdge (startTick (raiseBoth s6 2) m) m
/-- TICK_EDGE: a part that is in BOOT has its first edge once BOOT_SEQUENCE has ended; DORMANT has none. -/
def tickEdge (s : State) : State :=
  match s.tck.mode with
  | .dormant => s
  | .boot =>
    match s.tck.bootEnd, s.tck.pend with
    | some e, some f => if e.2.1 = 0#16 then firstEdge s .stop f.code f.params else firstEdge s e.1 e.2.1 e.2.2
    | some e, none => firstEdge s e.1 e.2.1 e.2.2
    | none, _ => s
  | _ => laterEdge s (s.tck.tick.toNat + 1)

/-! ### PFW (R41, R42) -/

/-- What PFW asks of the mode; an active unit that it stops sends its FAULT of KIND 2 (R41, R334, R349). -/
def pfwRole (s : State) : State :=
  let running := s.tck.mode == .run || s.tck.mode == .hold
  if s.tck.mode = .shadow then refreshReady s
  else if !running then s
  else if (holdsClaim s && partnerShadow s && s.cry.pReady == 0#8) || cfgBit s 0x02 0x100 13 then raiseFault s 0x1301 none 0 []
  else s
/-- PFW_ASSERT. -/
def pfwAssert (s : State) : State :=
  if s.tck.mode = .dormant ∨ s.pwr.pfw then s
  else
    let s1 := record { s with pwr.pfw := true, pwr.pfwSeen := true, pwr.pfwAt := some s.now, mtr.captured := false } 0x1301 []
    pfwRole (abandonStaging (tallyUp (tailAtPfw (dropLatchSaves s1)) 4) 2)
/-- PFW_DEASSERT. -/
def pfwDeassert (s : State) : State :=
  if s.tck.mode = .dormant ∨ !s.pwr.pfw then s else refreshReady (record { s with pwr.pfw := false } 0x1302 [])

def execTickEdge (s : State) : Host.Outcome State Fault Refusal := .next (tickEdge s)
def execDeadline (s : State) : Host.Outcome State Fault Refusal := .next (deadline s)
def execPfwAssert (s : State) : Host.Outcome State Fault Refusal := .next (pfwAssert s)
def execPfwDeassert (s : State) : Host.Outcome State Fault Refusal := .next (pfwDeassert s)

end Sys2Proof.Machine
end

