-- ==== Sys2Proof/Machine/Boot.lean ====
section
/-! DEFINITION. BOOT: the eight steps, the slot that starts, stored settings and banks, the partner found, the mode that BOOT ends in (R33 to R35, R238, R351, R352, R360, R478, R480, R484, R529 to R536). -/
namespace Sys2Proof.Machine
open Sys2Proof

/-! ### Step 2: the slot pointer and the firmware slot (R531, R532) -/

/-- A slot verifies: its flash reads back, and the package passes R526 without the serial check; the package as shipped does (log 6). -/
def slotVerifies (s : State) (i : BootInputs) (n : Nat) : Bool :=
  let x := slotOf s n
  (if n = 0 then i.slot0Ok else i.slot1Ok) && x.valid && (decide (x.package = Config.factoryPackage) || (pkgReject false x.package).isNone)
def fwVersion (s : State) (n : Nat) : Nat := pkgVersion (slotOf s n).package
/-- The slot that the pointer chooses, whether it is on trial, and the pointer where its row of R531 writes it. -/
def choosePointer (s : State) (i : BootInputs) : (Nat × Bool) × Option (List Byte) :=
  match recordNow s 1 with
  | none =>
    let n := if slotVerifies s i 0 then 0 else 1
    ((n, false), some (pointerBytes n 0 0 0 (fwVersion s n) 0x1133 0 0))
  | some p =>
    let slot := leAt p 0 1
    let fall := leAt p 3 1
    if leAt p 1 1 ≠ 1 then ((slot, false), none)
    else if leAt p 2 1 < 2 then
      ((slot, true), some (pointerBytes slot 1 (leAt p 2 1 + 1) fall (leAt p 4 4) (leAt p 8 2) (leAt p 10 4) (leAt p 14 2)))
    else ((fall, false), some (pointerBytes fall 0 0 fall (fwVersion s fall) 0x1130 (leAt p 4 4) 0))
/-- Step 2: the slot that runs, none when no slot verifies (R34), and the pointer writes on the way to it. -/
def bootSlot (s : State) (i : BootInputs) : Option (Nat × Bool) × List (List Byte) :=
  let c := choosePointer s i
  let n := c.1.1
  if slotVerifies s i n then (some c.1, c.2.toList)
  else
    let o := 1 - n
    let p := c.2.getD (pointerNow s)
    if slotVerifies s i o then
      (some (o, false), c.2.toList ++ [pointerBytes o 0 0 (leAt p 3 1) (fwVersion s o) 0x1131 (leAt p 4 4) 0])
    else (none, c.2.toList)
/-- What the slate memory of this BOOT is read with: nothing selected yet, and the check-bit errors that have come up (R471, R478). -/
def freshSlate (s : State) (i : BootInputs) : State :=
  { s with slt.sel := [], slt.heads := []
           slt.ecc := i.slateErrors.foldl (fun m e => if e.1 % 8 = 0 ∧ e.1 < sltReserved then smPut m e.1 e.2 else m) s.slt.ecc }
/-- What BOOT finds of the slots (R537). -/
def noteSlots (s : State) (i : BootInputs) : State :=
  { s with fwu.slot0 := { s.fwu.slot0 with fails := !slotVerifies s i 0 }, fwu.slot1 := { s.fwu.slot1 with fails := !slotVerifies s i 1 } }
/-- The controller code of the bedrock domain follows the slot. -/
def loadBedrock (s : State) (ok : Bool) : State :=
  let v := BitVec.ofNat 32 (pkgBedrock (slotOf s (runningSlot s)).package)
  if v = s.brk.codeVersion then s
  else if ok then record { s with brk.codeVersion := v } 0x1134 [0]
  else record s 0x1134 [1]

/-! ### Step 5: settings (R480, R508, R534, R536) -/

/-- The running package can use a settings copy, as it stands or converted (log 25). -/
def usable (s : State) (x : Settings) : Bool :=
  let p := (slotOf s (runningSlot s)).package
  x.format == pkgSettingsVer p || (pkgConvert p).contains x.format
/-- The settings that step 5 reads, and the reason when a copy that is there cannot be used. -/
def chooseSettings (s : State) : Option Settings × Nat :=
  if s.fwu.trial then
    match (slotOf s (leAt (pointerNow s) 3 1)).settings with
    | none => (none, 0)
    | some x => if usable s x then (some x, 0) else (none, 0x1135)
  else
    let own := (slotOf s (runningSlot s)).settings
    let other := (slotOf s (otherSlot s)).settings
    match own.filter (usable s), other.filter (usable s) with
    | some x, _ => (some x, 0)
    | none, some x => (some x, 0)
    | none, none => (none, if own.isSome || other.isSome then 0x1132 else 0)
/-- Blocks whose settings stand in store flash; BOOT does not load block 0x10. -/
def storedBlocks : List Nat := [0x02, 0x03, 0x04, 0x06, 0x07, 0x09, 0x0B, 0x0C, 0x0D, 0x0E, 0x0F, 0x11, 0x12, 0x13]
def putBlock (s : State) (b : Nat) (f : RegFile) : State := setBlk s b (fun c => { c with inForce := f })
/-- The kept fields of blocks 0x05 and 0x08, from their slate records as step 5 scans them. -/
def keptBlocks (s : State) : State := putBlock (putBlock s 0x05 (keptLoader s)) 0x08 (keptPair s)
/-- The settings of a copy: registers and station tables. -/
def loadSettings (s : State) (x : Settings) : State :=
  let s1 := storedBlocks.foldl (fun s b => putBlock s b (smGetD x.regs b [])) s
  let s2 := putBlock s1 0x08 (mergeFile 0x08 (liveMask 0x08) (blkCfg s1 0x08).inForce (smGetD x.regs 0x08 []))
  (List.range 24).foldl (fun s k =>
    let t := smGetD x.tables k []
    setLink s k (fun l => { l with table := t, live := t.map (fun _ => freshLive) })) s2
/-- Blocks that step 5 checks; the bank that BOOT_BANK names is judged in step 6 (R238). -/
def checkedBlocks : List Nat := [0x02, 0x03, 0x04, 0x06, 0x07, 0x08, 0x09, 0x0A, 0x0B, 0x0C, 0x0D, 0x0E, 0x0F, 0x11, 0x12, 0x13]
/-- A block that fails keeps its reset values. -/
def resetBlock (s : State) (b : Nat) : State :=
  if b = 0x0A then s
  else
    let s1 := putBlock s b []
    if b = 0x07 then { s1 with lnk := s1.lnk.map (fun l => { l with table := [], live := [] }) } else s1
/-- The checks of step 5: the first reason found, with its parameters. -/
def checkBlocks (s : State) : Option (Nat × List Nat) × State :=
  checkedBlocks.foldl (fun (a : Option (Nat × List Nat) × State) b =>
    let f := (blkCfg a.2 b).inForce
    match blockCheck a.2 b f with
    | some c => (some (a.1.getD (c, reasonParams a.2 b f none c)), resetBlock a.2 b)
    | none => a) (none, s)
/-- Stage copies and LIVE values begin as what is in force; LNK_FRAME shows the tables. -/
def settle (s : State) : State :=
  let s1 := (List.range 20).foldl (fun s b => setBlk s b (fun c => { c with stage := c.inForce, written := c.inForce })) s
  (List.range 24).foldl refreshFrame s1

/-! ### The end of step 5 (R360, R484, R517, R533, R564) -/

/-- The fallback that step 2 or an earlier trial left is recorded once. -/
def recordFallback (s : State) : State :=
  match recordNow s 1 with
  | none => s
  | some p =>
    let c := leAt p 8 2
    let v := leAt p 10 4
    if c = 0 then s
    else
      let s1 := record { s with fwu.lastFallback := BitVec.ofNat 16 c } c
        (if c = 0x1133 then [] else [v / 2 ^ 24, v % 2 ^ 24] ++ (if c = 0x1132 then [leAt p 14 2] else []))
      slateAsk s1 3 (.record 1 (pointerBytes (leAt p 0 1) (leAt p 1 1) (leAt p 2 1) (leAt p 3 1) (leAt p 4 4) 0 v (leAt p 14 2)))
/-- The event of the reset that began this BOOT; that of a watchdog reset is R517's. -/
def recordReset (s : State) : State :=
  let at' : Option Nat := match s.tck.cause.toNat with
    | 1 => some 0x1020 | 2 => some 0x1021 | 3 => some 0x1022 | 5 => some 0x1025 | 6 => some 0x1023 | 7 => some 0x1024 | _ => none
  match at' with
  | some c => record s c [s.tck.prevMode.toNat]
  | none => wdtBoot s
/-- The tally counters of resets. -/
def countResets (s : State) : State :=
  let c := s.tck.cause.toNat
  let due : List (Nat × Bool) := [(0, c == 1), (1, true), (2, c == 4), (5, s.brk.resetSeen), (6, c == 7)]
  due.foldl (fun s e => if e.2 then tallyUp s e.1 else s) s
/-- Device time from a snapshot of the bedrock RTC. -/
def loadTime (s : State) : State :=
  let b := s.brk
  { s with ntm.sec := b.sec, ntm.ns := b.sub * 1000000000 / 32768, ntm.quality := if b.timeLost then 3#2 else 2#2, ntm.rate := b.trim * 1024 }
/-- What step 5 does once its settings stand. -/
def stepFiveEnd (s : State) : State :=
  let s1 := meterBoot (brkBoot (recordReset (recordFallback s)))
  loadTime (countResets (tailBoot { s1 with cry.stored := claimStored s1 }))

/-! ### Step 6: stored banks (R238) -/

/-- A valid stored copy is read into its bank and verified; the reason when the verifier rejects it. -/
def loadStored (s : State) (b : BankId) : Option Nat × State :=
  match (bankSt s b).stored with
  | some img =>
    if storedValid img then
      let s1 := setBank s b (fun q => { q with phase := .loaded, length := img.length, image := img })
      match verifyImage s1 img with
      | some x => (some x.code, rejectBank s1 b x)
      | none => (none, admitBank s1 b img)
    else (none, s)
  | none => (none, s)
def stepSix (s : State) : Option Nat × State :=
  let a := loadStored s .a
  let b := loadStored a.2 .b
  let boot := bankOfNo (cfgField s 0x05 0x100 0 1)
  ((if storedOk s boot then (match boot with | .a => a.1 | .b => b.1) else some 0x052D), b.2)

/-! ### Step 7: the partner (R319, R351, R352) -/

/-- What step 7 leads to: `apart` is the mode that R35 item 4 gives a unit whose partner in BOOT does not fit it (R352). -/
inductive PairResult | single | shadow (adopt : Bool) | fails (c : Nat) | apart
deriving DecidableEq, Repr
/-- R319, as far as a PROBE shows it. -/
def pairFits (s : State) (p : Probe) : Bool :=
  p.pair && p.domain.toNat == domainOf s && b2n p.position != positionOf s && p.period.toNat == tickPeriod s && p.sync.toNat == cfgField s 0x02 0x100 9 2
def probeHolds (p : Probe) : Bool := p.role == 0#2 || p.role == 1#2
def pairResult (s : State) (p : Probe) : PairResult :=
  match p.mode.toNat with
  | 1 =>
    let own := positionOf s == (max s.cry.stored.toNat p.claim.toNat) % 2
    if own then .single else if pairFits s p then .shadow false else .apart
  | 2 => if probeHolds p then .fails 0x0807 else .single
  | 3 | 4 => if pairFits s p ∧ p.version = 1#8 then (if probeHolds p then .shadow true else .single) else .fails 0x0806
  | _ => .single
/-- The partner as its PROBE shows it. -/
def meetPartner (s : State) (p : Probe) (r : PairResult) : State :=
  let s1 := seePartner s p.claim.toNat
  { s1 with cry.partner := true, cry.pRole := BitVec.ofNat 8 p.role.toNat, cry.pMode := BitVec.ofNat 8 p.mode.toNat
            cry.adoptTick := if r = .shadow true then some p.tick else none, cry.latency := p.roundTrip / 2 }
/-- Payload of a PROBE. -/
def probeBytes (s : State) : List Byte :=
  padTo 32 (leBytes 1 (positionOf s) ++ leBytes 1 (b2n (isPair s)) ++ leBytes 2 (domainOf s) ++ leBytes 2 (tickPeriod s) ++ leBytes 1 (cfgField s 0x02 0x100 9 2) ++
    leBytes 1 1 ++ leBytes 1 (roleNo s) ++ leBytes 1 (modeNo s.tck.mode) ++ leBytes 3 s.cry.stored.toNat ++ leBytes 1 0 ++ leBytes 8 s.tck.tick.toNat)
/-- A PROBE on every lane that is up, as often as given. -/
def sendProbes : Nat → State → State
  | 0, s => s
  | n + 1, s => sendProbes n ((List.finRange 8).foldl (fun s (i : Fin 8) => if s.cry.lanes.getLsbD i.val then emit s (.carry (some i) (carryFrame s 0x50 0 (probeBytes s))) else s) s)
/-- Step 7 in a pair: a PROBE every ms until the partner is found, at most 50 of them; how soon it is found is free. -/
def stepSeven (s : State) (probe : Option Probe) : PairResult × State :=
  if !isPair s then (.single, s)
  else match probe with
  | some p =>
    let f := freeNat s
    let s1 := sendProbes (1 + f.1 % 50) f.2
    let r := pairResult s1 p
    (r, meetPartner s1 p r)
  | none => (.single, sendProbes 50 s)

/-! ### Step 8, and the end of BOOT (R35, R307) -/

/-- Block lock of every link; an enabled link without it fails. -/
def stepEight (s : State) (locks : BitVec 24) : Option Nat × State :=
  let s1 := { s with lnk := Vector.ofFn (fun (k : Fin 24) => { s.lnk.get k with lock := locks.getLsbD k.val }) }
  let missing := (List.range 24).filter (fun k => linkEnabled s1 k && !locks.getLsbD k)
  (missing.head?, missing.foldl (fun s k => record s 0x0713 [k]) s1)
/-- The mode that BOOT ends in; `failed` is the first step that failed, with its parameters. -/
def endOfBoot (s : State) (failed : Option (Nat × List Nat)) (pair : PairResult) : Mode × Nat × List Nat :=
  match failed with
  | some f => (.stop, f.1, f.2)
  | none =>
    if s.tck.cause = 4#4 ∨ s.tck.cause = 6#4 then (.stop, 0x020A, [s.tck.cause.toNat])
    else
      match pair with
      | .shadow _ => (.shadow, 0, [])
      | .apart => (.stop, 0x0806, [])
      | _ =>
        let boot := bankOfNo (cfgField s 0x05 0x100 0 1)
        if cfgBit s 0x02 0x100 11 && (bankSt s boot).phase == .admitted then (.run, 0, []) else (.stop, 0, [])
/-- Steps 3 and 4. -/
def memoryFailures (i : BootInputs) : List (Nat × List Nat) :=
  (match i.memFail with | some k => [(0x1304, [k.val])] | none => []) ++ (match i.rodFail with | some k => [(0x0443, [k.val])] | none => [])
/-- Step 5 from the checked settings on, to the end of BOOT. -/
def finishBoot (s : State) (i : BootInputs) (settings : Option (Nat × List Nat)) : State :=
  let six := stepSix (stepFiveEnd (settle s))
  let seven := stepSeven six.2 i.probe
  let eight := stepEight seven.2 i.locks
  let one (c : Option Nat) : List (Nat × List Nat) := match c with | some c => [(c, [])] | none => []
  let failures := memoryFailures i ++ settings.toList ++ one six.1 ++ (match seven.1 with | .fails c => [(c, [])] | _ => []) ++
    (match eight.1 with | some k => [(0x0713, [k])] | none => [])
  let e := endOfBoot eight.2 failures.head? seven.1
  let s1 := if e.2.1 = 0 then eight.2 else report eight.2 (BitVec.ofNat 16 e.2.1) true e.2.2
  { s1 with tck.bootEnd := some (e.1, BitVec.ofNat 16 e.2.1, e.2.2) }
/-- A trial whose settings cannot be used or fail a check falls back (R534). -/
def trialFallback (s : State) (detail : Nat) (cut : Option (Nat × Nat)) : State :=
  let p := pointerNow s
  let fall := leAt p 3 1
  let x := writePointers s [pointerBytes fall 0 0 fall (fwVersion s fall) 0x1132 (leAt p 4 4) detail] cut
  if x.1 then coldReset x.2 7 false else x.2
/-- BOOT from the end of step 2 on; `cut` counts the pointer writes from there. -/
def bootFrom (s : State) (i : BootInputs) (cut : Option (Nat × Nat)) : State :=
  let s1 := scanSlate (loadBedrock s i.bedrockLoadOk)
  let kept := keptBlocks s1
  let c := chooseSettings kept
  let checked := checkBlocks (match c.1 with | some x => loadSettings kept x | none => kept)
  if s.fwu.trial ∧ (c.2 ≠ 0 ∨ checked.1.isSome) then trialFallback checked.2 (if c.2 ≠ 0 then c.2 else (checked.1.getD (0, [])).1) cut
  else finishBoot checked.2 i (if c.2 ≠ 0 then some (c.2, []) else checked.1)
/-- BOOT_SEQUENCE: once in a BOOT; it waits for the bedrock domain (R383). The attempt after a failed step 1 begins with a
reset of cause 6 (R33, R36). -/
def bootSequence (s : State) (i : BootInputs) : State :=
  if s.tck.mode ≠ .boot ∨ s.tck.bootEnd.isSome ∨ s.tck.bootCut ∨ s.fwu.noSlot ∨ s.brk.inReset then s
  else
    let s1 := if s.tck.bootStuck then coldReset s 6 false else s
    if !i.supervisorOk then { s1 with tck.bootStuck := true }
    else
      let s2 := noteSlots (scanRecord (freshSlate s1 i) 1) i
      let x := bootSlot s2 i
      let y := writePointers s2 x.2 i.pointerCut
      if !y.1 then y.2
      else match x.1 with
        | none => { y.2 with fwu.noSlot := true }
        | some c => bootFrom { y.2 with fwu.running := some c.1, fwu.trial := c.2 } i (i.pointerCut.map (fun p => (p.1 - x.2.length, p.2)))

/-! ### RUN, and the faults that come back with it (R22, R30, R543) -/

/-- The settings of the stored copy, checked anew: the first reason that BOOT would find. -/
def settingsReason (s : State) : Option Nat :=
  let c := chooseSettings s
  if c.2 ≠ 0 then some c.2 else (checkBlocks (match c.1 with | some x => loadSettings s x | none => s)).1.map (fun x => x.1)
/-- The reasons with which BOOT refuses stored settings. -/
def isSettingsReason (code : Nat) : Bool := code == 0x1132 || (checkedBlocks.contains (code / 256) && (reasonsOf (code / 256)).contains code)
/-- Whether the cause of an acknowledged fault persists (R30, log 85). What State shows decides it: the junction sample, PFW, block
lock, the stored copy of BOOT_BANK, stored settings, the partner. An overrun, a program fault and a restart after a watchdog or lockstep
reset leave no cause behind. Of every other cause (a memory, a rod, a higher claim) State shows nothing: it is free. -/
def causePersists (s : State) (code : Nat) : Bool × State :=
  let boot := bankOfNo (cfgField s 0x05 0x100 0 1)
  if code = 0x0209 ∨ code = 0x020A ∨ isProgramFault code then (false, s)
  else match code with
    | 0x1301 => (s.pwr.pfw, s)
    | 0x1311 => (decide (s.pwr.temp.toInt ≥ 115), s)
    | 0x0713 => ((List.range 24).any (fun k => cfgBit s 0x07 0x100 k && !(linkAt s k).lock), s)
    | 0x052D => (!storedOk s boot, s)
    | 0x0806 => if s.cry.partner && (s.cry.pMode == 1#8 || s.cry.pMode == 3#8 || s.cry.pMode == 4#8) then freeBool s else (false, s)
    | 0x0807 => (s.cry.partner && s.cry.pMode == 2#8 && decide (s.cry.pRole.toNat < 2), s)
    | _ =>
      if code / 256 = 5 then (storedOk s boot && (verifyImage s (((bankSt s boot).stored).getD [])).isSome, s)
      else if isSettingsReason code then (settingsReason s == some code, s)
      else freeBool s
/-- A RUN out of STOP meets the cause of the fault that was acknowledged last: where it persists the part faults again. A rail that has left
its window holds the part in STOP until a reset (R543). -/
def faultAgain (s : State) : State :=
  match s.pwr.railHeld, s.tck.acked with
  | some k, _ => raiseFault s 0x1312 none 0 [k]
  | none, some f =>
    let p := causePersists s f.1.toNat
    if p.1 then raiseFault p.2 f.1.toNat none 0 f.2 else p.2
  | none, none => s
/-- RUN. With a fault standing and no admitted bank in force, 0x0207 goes first: the spec orders neither (log 14). -/
def doRun (w : Who) (s : State) : State :=
  refuseOr s w (modeRefusals s (s.tck.mode == .stop || s.tck.mode == .hold) ++
    [(s.tck.mode == .stop && s.tck.fault != 0#16, 0x0207), (s.tck.mode == .stop && !runAllowed s, 0x0208)])
    (fun s => forwardMode (if s.tck.mode = .stop then faultAgain (setTransition s .run w) else setTransition s .run w) 0x0201)

def execRun (r : Req) (s : State) : Host.Outcome State Fault Refusal := .next (command s r 0x0201 (fun _ => doRun))
def execBootSequence (b : BootInputs) (s : State) : Host.Outcome State Fault Refusal := .next (bootSequence s b)

end Sys2Proof.Machine
end

