-- ==== Sys2Proof/Machine/Dispatch.lean ====
section
/-! DEFINITION. The dispatch of a command to its meaning, one arm per command of the table. -/
namespace Sys2Proof.Machine
open Sys2Proof

def exec (i : Instr) (s : State) : Host.Outcome State Fault Refusal :=
  match i with
  | .powerOn => Sys2Proof.Machine.execPowerOn s
  | .railLoss => Sys2Proof.Machine.execRailLoss s
  | .resetNPin => Sys2Proof.Machine.execResetNPin s
  | .undervoltageReset => Sys2Proof.Machine.execUndervoltageReset s
  | .lockstepMismatch => Sys2Proof.Machine.execLockstepMismatch s
  | .bootSequence b => Sys2Proof.Machine.execBootSequence b s
  | .sdPoll => Sys2Proof.Machine.execSdPoll s
  | .portReset p => Sys2Proof.Machine.execPortReset p s
  | .tickEdge => Sys2Proof.Machine.execTickEdge s
  | .computeStart => Sys2Proof.Machine.execComputeStart s
  | .segmentStart rod e => Sys2Proof.Machine.execSegmentStart rod e s
  | .bundleIssue rod e => Sys2Proof.Machine.execBundleIssue rod e s
  | .resultLand rod => Sys2Proof.Machine.execResultLand rod s
  | .xstLand rod => Sys2Proof.Machine.execXstLand rod s
  | .waitfRetire rod cycles ns => Sys2Proof.Machine.execWaitfRetire rod cycles ns s
  | .trunkGrant others => Sys2Proof.Machine.execTrunkGrant others s
  | .trunkBurstDone requester e => Sys2Proof.Machine.execTrunkBurstDone requester e s
  | .quotaWindow => Sys2Proof.Machine.execQuotaWindow s
  | .grantHeldLong => Sys2Proof.Machine.execGrantHeldLong s
  | .sealSend => Sys2Proof.Machine.execSealSend s
  | .sealOverflow => Sys2Proof.Machine.execSealOverflow s
  | .deadline => Sys2Proof.Machine.execDeadline s
  | .throttleEngage mv => Sys2Proof.Machine.execThrottleEngage mv s
  | .throttleRecover => Sys2Proof.Machine.execThrottleRecover s
  | .pfwAssert => Sys2Proof.Machine.execPfwAssert s
  | .pfwDeassert => Sys2Proof.Machine.execPfwDeassert s
  | .pfwCapture samples => Sys2Proof.Machine.execPfwCapture samples s
  | .railWindowFault rail => Sys2Proof.Machine.execRailWindowFault rail s
  | .tempSample temp => Sys2Proof.Machine.execTempSample temp s
  | .run r => Sys2Proof.Machine.execRun r s
  | .stop r => Sys2Proof.Machine.execStop r s
  | .hold r => Sys2Proof.Machine.execHold r s
  | .step r => Sys2Proof.Machine.execStep r s
  | .faultAck r => Sys2Proof.Machine.execFaultAck r s
  | .reset r => Sys2Proof.Machine.execReset r s
  | .join r => Sys2Proof.Machine.execJoin r s
  | .bar0BadAccess p read => Sys2Proof.Machine.execBar0BadAccess p read s
  | .bar2Write p => Sys2Proof.Machine.execBar2Write p s
  | .registerWrite p ofs v => Sys2Proof.Machine.execRegisterWrite p ofs v s
  | .w1cWrite p ofs v => Sys2Proof.Machine.execW1cWrite p ofs v s
  | .rcRead p ofs => Sys2Proof.Machine.execRcRead p ofs s
  | .enableWrite p ofs v => Sys2Proof.Machine.execEnableWrite p ofs v s
  | .commit p blk => Sys2Proof.Machine.execCommit p blk s
  | .discard p blk => Sys2Proof.Machine.execDiscard p blk s
  | .semRead p k tie => Sys2Proof.Machine.execSemRead p k tie s
  | .semWrite p k v => Sys2Proof.Machine.execSemWrite p k v s
  | .tckTickLoRead p => Sys2Proof.Machine.execTckTickLoRead p s
  | .doorbell p slot h payload => Sys2Proof.Machine.execDoorbell p slot h payload s
  | .hostTransferEnd p slot res => Sys2Proof.Machine.execHostTransferEnd p slot res s
  | .getIdentity r => Sys2Proof.Machine.execGetIdentity r s
  | .expertUnlock r => Sys2Proof.Machine.execExpertUnlock r s
  | .expertLock r => Sys2Proof.Machine.execExpertLock r s
  | .getConfig r => Sys2Proof.Machine.execGetConfig r s
  | .setConfig r => Sys2Proof.Machine.execSetConfig r s
  | .getStage r => Sys2Proof.Machine.execGetStage r s
  | .forceSet r => Sys2Proof.Machine.execForceSet r s
  | .forceClear r => Sys2Proof.Machine.execForceClear r s
  | .forceClearAll r => Sys2Proof.Machine.execForceClearAll r s
  | .forceList r => Sys2Proof.Machine.execForceList r s
  | .loadBegin r => Sys2Proof.Machine.execLoadBegin r s
  | .loadData r => Sys2Proof.Machine.execLoadData r s
  | .loadEnd r => Sys2Proof.Machine.execLoadEnd r s
  | .verify r => Sys2Proof.Machine.execVerify r s
  | .activate r => Sys2Proof.Machine.execActivate r s
  | .save r => Sys2Proof.Machine.execSave r s
  | .restore r => Sys2Proof.Machine.execRestore r s
  | .erase r => Sys2Proof.Machine.execErase r s
  | .bankInfo r => Sys2Proof.Machine.execBankInfo r s
  | .saveComplete passed => Sys2Proof.Machine.execSaveComplete passed s
  | .chgStart r => Sys2Proof.Machine.execChgStart r s
  | .chgAbort r => Sys2Proof.Machine.execChgAbort r s
  | .migrationLineBuild => Sys2Proof.Machine.execMigrationLineBuild s
  | .echoReceived link frame rtt => Sys2Proof.Machine.execEchoReceived link frame rtt s
  | .echoMissing link => Sys2Proof.Machine.execEchoMissing link s
  | .linkLockLost link => Sys2Proof.Machine.execLinkLockLost link s
  | .fieldFrameTurnback link frame => Sys2Proof.Machine.execFieldFrameTurnback link frame s
  | .linkLockTimeout link => Sys2Proof.Machine.execLinkLockTimeout link s
  | .rollCallReceived link frame rtt => Sys2Proof.Machine.execRollCallReceived link frame rtt s
  | .rollCallRepeat link => Sys2Proof.Machine.execRollCallRepeat link s
  | .parleyResponseReceived link frame => Sys2Proof.Machine.execParleyResponseReceived link frame s
  | .parleyTimeout link => Sys2Proof.Machine.execParleyTimeout link s
  | .noticeReceived link frame => Sys2Proof.Machine.execNoticeReceived link frame s
  | .lnkTableSet r => Sys2Proof.Machine.execLnkTableSet r s
  | .lnkTableGet r => Sys2Proof.Machine.execLnkTableGet r s
  | .lnkRollcall r => Sys2Proof.Machine.execLnkRollcall r s
  | .lnkParley r => Sys2Proof.Machine.execLnkParley r s
  | .lnkRearm r => Sys2Proof.Machine.execLnkRearm r s
  | .lnkState r => Sys2Proof.Machine.execLnkState r s
  | .carryLaneDown lane => Sys2Proof.Machine.execCarryLaneDown lane s
  | .carryLinkUp link => Sys2Proof.Machine.execCarryLinkUp link s
  | .deltaReceived lane frame => Sys2Proof.Machine.execDeltaReceived lane frame s
  | .sealReceived lane frame => Sys2Proof.Machine.execSealReceived lane frame s
  | .controlReceived lane frame => Sys2Proof.Machine.execControlReceived lane frame s
  | .heartbeatSend => Sys2Proof.Machine.execHeartbeatSend s
  | .heartbeatReceived lane frame => Sys2Proof.Machine.execHeartbeatReceived lane frame s
  | .faultFrameReceived lane frame => Sys2Proof.Machine.execFaultFrameReceived lane frame s
  | .partnerLost => Sys2Proof.Machine.execPartnerLost s
  | .nakReceived lane frame => Sys2Proof.Machine.execNakReceived lane frame s
  | .healthSend => Sys2Proof.Machine.execHealthSend s
  | .healthReceived lane frame => Sys2Proof.Machine.execHealthReceived lane frame s
  | .selftestItem passed corrected => Sys2Proof.Machine.execSelftestItem passed corrected s
  | .bulkPlace => Sys2Proof.Machine.execBulkPlace s
  | .crySwitchover r => Sys2Proof.Machine.execCrySwitchover r s
  | .cryResync r => Sys2Proof.Machine.execCryResync r s
  | .cryHealthGet r => Sys2Proof.Machine.execCryHealthGet r s
  | .ptpMessageReceived eth m => Sys2Proof.Machine.execPtpMessageReceived eth m s
  | .ptpMessageSend eth k => Sys2Proof.Machine.execPtpMessageSend eth k s
  | .ptpMasterLost => Sys2Proof.Machine.execPtpMasterLost s
  | .holdoverExpiry => Sys2Proof.Machine.execHoldoverExpiry s
  | .ntmNowNsRead p => Sys2Proof.Machine.execNtmNowNsRead p s
  | .launchTime eth late => Sys2Proof.Machine.execLaunchTime eth late s
  | .leapSecond => Sys2Proof.Machine.execLeapSecond s
  | .ntmSetTime r => Sys2Proof.Machine.execNtmSetTime r s
  | .ntmSetUtc r => Sys2Proof.Machine.execNtmSetUtc r s
  | .ntmLaunch r => Sys2Proof.Machine.execNtmLaunch r s
  | .ntmPtpState r => Sys2Proof.Machine.execNtmPtpState r s
  | .bedrockReset => Sys2Proof.Machine.execBedrockReset s
  | .backupSample mv => Sys2Proof.Machine.execBackupSample mv s
  | .wakeInstant => Sys2Proof.Machine.execWakeInstant s
  | .countdownExpiry => Sys2Proof.Machine.execCountdownExpiry s
  | .evEdge pin rising => Sys2Proof.Machine.execEvEdge pin rising s
  | .trimWindowEnd => Sys2Proof.Machine.execTrimWindowEnd s
  | .followCompare => Sys2Proof.Machine.execFollowCompare s
  | .rtcSetApply => Sys2Proof.Machine.execRtcSetApply s
  | .rtcShiftApply => Sys2Proof.Machine.execRtcShiftApply s
  | .brkCalSnapRead p => Sys2Proof.Machine.execBrkCalSnapRead p s
  | .brkCountdownSetWrite p v => Sys2Proof.Machine.execBrkCountdownSetWrite p v s
  | .brkSetTime r => Sys2Proof.Machine.execBrkSetTime r s
  | .brkShift r => Sys2Proof.Machine.execBrkShift r s
  | .brkPwron r => Sys2Proof.Machine.execBrkPwron r s
  | .brkGetTime r => Sys2Proof.Machine.execBrkGetTime r s
  | .canFrameReceived k f => Sys2Proof.Machine.execCanFrameReceived k f s
  | .canRxTimeout k obj => Sys2Proof.Machine.execCanRxTimeout k obj s
  | .canTxDone k => Sys2Proof.Machine.execCanTxDone k s
  | .canTxError k cause => Sys2Proof.Machine.execCanTxError k cause s
  | .canRecoveryDone k => Sys2Proof.Machine.execCanRecoveryDone k s
  | .canTimeMark k obj busIdle => Sys2Proof.Machine.execCanTimeMark k obj busIdle s
  | .canTtSyncLost k => Sys2Proof.Machine.execCanTtSyncLost k s
  | .canDetectDwellEnd k res => Sys2Proof.Machine.execCanDetectDwellEnd k res s
  | .canRecover r => Sys2Proof.Machine.execCanRecover r s
  | .canDetect r => Sys2Proof.Machine.execCanDetect r s
  | .canHpRead r => Sys2Proof.Machine.execCanHpRead r s
  | .lplusGroupFail g mv => Sys2Proof.Machine.execLplusGroupFail g mv s
  | .lplusGroupRestore g mv => Sys2Proof.Machine.execLplusGroupRestore g mv s
  | .localEdge ch rising => Sys2Proof.Machine.execLocalEdge ch rising s
  | .wireBreak ch => Sys2Proof.Machine.execWireBreak ch s
  | .wireBreakClear ch on => Sys2Proof.Machine.execWireBreakClear ch on s
  | .outputOverload ch => Sys2Proof.Machine.execOutputOverload ch s
  | .overloadRetry ch => Sys2Proof.Machine.execOverloadRetry ch s
  | .s0Pulse ch ms => Sys2Proof.Machine.execS0Pulse ch ms s
  | .lchOverloadWrite p v => Sys2Proof.Machine.execLchOverloadWrite p v s
  | .lchClear r => Sys2Proof.Machine.execLchClear r s
  | .lineCycleEnd f m => Sys2Proof.Machine.execLineCycleEnd f m s
  | .halfCycleBoundary f timed => Sys2Proof.Machine.execHalfCycleBoundary f timed s
  | .referenceLost f => Sys2Proof.Machine.execReferenceLost f s
  | .resultReady f => Sys2Proof.Machine.execResultReady f s
  | .energyLatch f => Sys2Proof.Machine.execEnergyLatch f s
  | .meterChannelFail c => Sys2Proof.Machine.execMeterChannelFail c s
  | .meterChannelRecover c => Sys2Proof.Machine.execMeterChannelRecover c s
  | .mtrEnergyGet r => Sys2Proof.Machine.execMtrEnergyGet r s
  | .mtrEnergyPreset r => Sys2Proof.Machine.execMtrEnergyPreset r s
  | .slateOpStart => Sys2Proof.Machine.execSlateOpStart s
  | .sltRecRead r => Sys2Proof.Machine.execSltRecRead r s
  | .sltRecWrite r => Sys2Proof.Machine.execSltRecWrite r s
  | .sltTallyRead r => Sys2Proof.Machine.execSltTallyRead r s
  | .sltTallyAdd r => Sys2Proof.Machine.execSltTallyAdd r s
  | .sltRawRead r => Sys2Proof.Machine.execSltRawRead r s
  | .sltRawWrite r => Sys2Proof.Machine.execSltRawWrite r s
  | .tailCopy => Sys2Proof.Machine.execTailCopy s
  | .archiveSegmentWrite => Sys2Proof.Machine.execArchiveSegmentWrite s
  | .recWinStateRead p => Sys2Proof.Machine.execRecWinStateRead p s
  | .recWin7Read p => Sys2Proof.Machine.execRecWin7Read p s
  | .recSeek r => Sys2Proof.Machine.execRecSeek r s
  | .recRead r => Sys2Proof.Machine.execRecRead r s
  | .recTailRead r => Sys2Proof.Machine.execRecTailRead r s
  | .recArchiveRead r => Sys2Proof.Machine.execRecArchiveRead r s
  | .recArchiveFlush r => Sys2Proof.Machine.execRecArchiveFlush r s
  | .wdtServiceWrite p v => Sys2Proof.Machine.execWdtServiceWrite p v s
  | .supervisorService => Sys2Proof.Machine.execSupervisorService s
  | .watchdogExpiry => Sys2Proof.Machine.execWatchdogExpiry s
  | .wdtEvidenceGet r => Sys2Proof.Machine.execWdtEvidenceGet r s
  | .wdtEvidenceClear r => Sys2Proof.Machine.execWdtEvidenceClear r s
  | .sdCardDetect card => Sys2Proof.Machine.execSdCardDetect card s
  | .fwuScan r => Sys2Proof.Machine.execFwuScan r s
  | .fwuStage r => Sys2Proof.Machine.execFwuStage r s
  | .fwuActivate r => Sys2Proof.Machine.execFwuActivate r s
  | .fwuConfirm r => Sys2Proof.Machine.execFwuConfirm r s
  | .trialConfirmTimeout => Sys2Proof.Machine.execTrialConfirmTimeout s
  | .fwuInfo r => Sys2Proof.Machine.execFwuInfo r s
  | .consistencyCheckEnd blk => Sys2Proof.Machine.execConsistencyCheckEnd blk s
  | .verifierEnd bank => Sys2Proof.Machine.execVerifierEnd bank s
  | .stagingEnd res => Sys2Proof.Machine.execStagingEnd res s
  | .grantPhaseEnd => Sys2Proof.Machine.execGrantPhaseEnd s
  | .fieldLinkLockGained link => Sys2Proof.Machine.execFieldLinkLockGained link s
  | .higherClaimSeen link claim => Sys2Proof.Machine.execHigherClaimSeen link claim s
  | .slewComplete => Sys2Proof.Machine.execSlewComplete s
  | .bedrockResetEnd => Sys2Proof.Machine.execBedrockResetEnd s
  | .sampleInstant samples => Sys2Proof.Machine.execSampleInstant samples s
  | .canRxError k severe => Sys2Proof.Machine.execCanRxError k severe s
  | .pfwRecordsComplete => Sys2Proof.Machine.execPfwRecordsComplete s

end Sys2Proof.Machine
end

