-- ==== Sys2Proof/Machine/Idle.lean ====
section
/-! DEFINITION. The passing of one nanosecond, which is what the block does when no command waits (log 1). -/
namespace Sys2Proof.Machine
open Sys2Proof

/-- One nanosecond passes: the RTC counts in every mode, device time and the tick's offset wherever the main die has power;
slate operations whose time is over end. -/
def idle (s : State) : State :=
  let s1 := brkAdvance { s with now := s.now + 1 }
  if s1.tck.mode = .dormant then s1 else slatePass (advanceTime { s1 with tck.ofs := s1.tck.ofs + 1 })

end Sys2Proof.Machine
end

