-- ==== Sys2Proof/Safety.lean ====
section
/-! DEFINITION. What a safe run of the block is, and the words in which statements are made: the parts of the state, frames over them, answers of commands, records entered. -/
namespace Sys2Proof.Machine
open Sys2Proof

/-- A step answers a next state. -/
def Runs (s : State) : Prop := ∃ t, step s = .next t

/-- The canonical form of the slate memory: addresses strictly rising, and no listed byte equal to what an unlisted
address reads as (log 5). -/
def Memory.sorted : List Host.Cell → Bool
  | [] => true
  | [_] => true
  | a :: b :: r => decide (a.1 < b.1) && Memory.sorted (b :: r)
def Memory.wf (m : List Host.Cell) : Bool := Memory.sorted m && m.all (fun c => c.2 != 0#8)

/-! ### Frames -/

/-- The parts of the state: the queue, the model's own fields, and the blocks of the spec. -/
inductive Part
  | pending | tx | free | now | tck | pwr | host | cfg | slt | recd | img | ldr | tasks | chg | rods | trk | ntm | lnk | cry | brk | can | lch | mtr | wdt | fwu
deriving DecidableEq, Repr

/-- A part is the same in two states. -/
def samePart (p : Part) (s t : State) : Prop :=
  match p with
  | .pending => t.pending = s.pending
  | .tx => t.tx = s.tx
  | .free => t.free = s.free
  | .now => t.now = s.now
  | .tck => t.tck = s.tck
  | .pwr => t.pwr = s.pwr
  | .host => t.host = s.host
  | .cfg => t.cfg = s.cfg
  | .slt => t.slt = s.slt
  | .recd => t.recd = s.recd
  | .img => t.img = s.img
  | .ldr => t.ldr = s.ldr
  | .tasks => t.tasks = s.tasks
  | .chg => t.chg = s.chg
  | .rods => t.rods = s.rods
  | .trk => t.trk = s.trk
  | .ntm => t.ntm = s.ntm
  | .lnk => t.lnk = s.lnk
  | .cry => t.cry = s.cry
  | .brk => t.brk = s.brk
  | .can => t.can = s.can
  | .lch => t.lch = s.lch
  | .mtr => t.mtr = s.mtr
  | .wdt => t.wdt = s.wdt
  | .fwu => t.fwu = s.fwu
/-- Every part but the named ones is the same. -/
def SameBut (ps : List Part) (s t : State) : Prop := ∀ p, p ∈ ps ∨ samePart p s t
/-- What a port holds beside its slots and interrupts is the same: read data, semaphore tag, counters, expert access, view, cursor, window, snapshot. -/
def samePortRest (p : Port) (s t : State) : Prop :=
  { portSt t p with irqStatus := (portSt s p).irqStatus, slots := (portSt s p).slots, done := (portSt s p).done } = portSt s p

/-! ### What a command answers, and what is recorded -/

/-- A response stands in the slot of a request, with at most 65,504 bytes of data; the slot is free again and its DONE bit is set (R58, R59). -/
abbrev Responded (t : State) (r : Req) (code reason : Nat) (tick : BitVec 64) (data : List Byte) : Prop :=
  ((portSt t r.port).slots.get r.slot).response =
    some { code := BitVec.ofNat 16 code, reason := BitVec.ofNat 16 reason, seq := r.seq, tick := tick, data := data.take 65504 } ∧
  ((portSt t r.port).slots.get r.slot).busy = none ∧ (portSt t r.port).done.getLsbD r.slot.val = true
/-- A request whose slot is BUSY with it waits for its answer: who is to be answered. -/
abbrev Waits (t : State) (r : Req) (code : Nat) (w : Who) : Prop :=
  w.port = r.port ∧ w.slot = r.slot ∧ w.code = BitVec.ofNat 16 code ∧ w.seq = r.seq ∧ w.notify = r.notify ∧
  ((portSt t r.port).slots.get r.slot).busy = some w.id
/-- The part is on: it is not DORMANT. -/
abbrev Awake (s : State) : Prop := s.tck.mode ≠ .dormant
/-- A port answers accesses: the part is on, and the port is neither in D3hot nor held in reset by its PERST pin (R44, R551). -/
abbrev Answers (s : State) (p : Port) : Prop := Awake s ∧ (portSt s p).d3hot = false ∧ (portSt s p).perst = false
/-- The row of a mailbox command starts its request: the mailboxes answer, the request is the first in the supervisor's queue and stands in its slot as
the row gives it; u is the state that the command then runs in, and w is who waits for its answer (R33, R59). -/
abbrev Starts (s : State) (r : Req) (code : Nat) (w : Who) (u : State) : Prop :=
  mailboxUp s = true ∧ startCmd s r code = some (r, w, u) ∧ Waits u r code w
/-- The part runs its supervisor outside BOOT and SHADOW, where every command of a host is taken (R68). -/
abbrev Serving (s : State) : Prop := s.tck.mode = .stop ∨ s.tck.mode = .run ∨ s.tck.mode = .hold
/-- No change of configuration and no transition is under way (R28, R73, R80). -/
abbrev Quiet (s : State) : Prop := anyBlkBusy s = false ∧ transPending s = false
/-- The event that report enters last: the newest of the boot buffer before the first edge after BOOT, else the newest record
of the ring, with its code and its first parameters (R490, R494). -/
def LastReport (t : State) (code : Nat) (fault : Bool) (ps : List Nat) : Prop :=
  (t.recd.started = false ∧ ∃ b, t.recd.bootBuf.getLast? = some b ∧ b.code = BitVec.ofNat 16 code ∧ b.fault = fault ∧ b.params = ps) ∨
  (t.recd.started = true ∧ ∃ e, t.recd.ring.head? = some e ∧ e.body.code = BitVec.ofNat 16 code ∧ e.body.fault = fault ∧ e.body.params = params4 ps)
/-- A record of a code goes in: no edge is collecting its records (log 130), and there is room in the boot buffer, or after BOOT the tick has room (R493) and
the limit of field-origin codes does not stop it (R496). -/
abbrev CanRecord (s : State) (code : Nat) : Prop :=
  s.recd.batch = none ∧ (
  (s.recd.started = false ∧ s.recd.bootBuf.length < 4096) ∨
  (s.recd.started = true ∧ s.recd.seq < 65536 ∧
    (isFieldOrigin code = false ∨ cfgField s 0x0F 0x100 0 16 = 0 ∨ smGetD s.recd.entered code 0 < cfgField s 0x0F 0x100 0 16)))
/-- Of the host ports only interrupt status bits have changed. -/
def IrqOnly (s t : State) : Prop := t.host = { s.host with a.irqStatus := t.host.a.irqStatus, b.irqStatus := t.host.b.irqStatus }
/-- An event is recorded, and nothing of the host ports but interrupt status bits has changed. -/
def Reports (s t : State) (code : Nat) (ps : List Nat) : Prop := (CanRecord s code → LastReport t code false ps) ∧ IrqOnly s t
/-- Of the host ports a mailbox command that has started leaves everything but its own slot, DONE and interrupt status. -/
def AnswerFrame (r : Req) (s t : State) : Prop :=
  samePortRest r.port s t ∧ (∀ k, k ≠ r.slot → (portSt t r.port).slots.get k = (portSt s r.port).slots.get k) ∧
  { portSt t (otherPort r.port) with irqStatus := (portSt s (otherPort r.port)).irqStatus } = portSt s (otherPort r.port) ∧
  t.host.sems = s.host.sems ∧ t.host.xfers = s.host.xfers ∧ t.host.queue = s.host.queue
/-- What the start of a request and the examination of those behind it leave of the host ports: everything but slots, DONE and interrupt status, and every
slot that neither is the started one nor waits in the queue. -/
def StartFrame (p : Port) (k : Fin 32) (s t : State) : Prop :=
  (∀ q, samePortRest q s t) ∧ t.host.sems = s.host.sems ∧ t.host.xfers = s.host.xfers ∧
  (∀ q j, ¬(q = p ∧ j = k) → (∀ e ∈ s.host.queue, ¬(e.port = q ∧ e.slot = j)) → (portSt t q).slots.get j = (portSt s q).slots.get j)
/-- The rows of mailbox commands. -/
def isMailboxRow (c : Instr) : Bool :=
  match c with
  | .run _ | .stop _ | .hold _ | .step _ | .faultAck _ | .reset _ | .join _ | .getIdentity _ | .expertUnlock _ | .expertLock _ | .getConfig _ | .setConfig _
  | .getStage _ | .forceSet _ | .forceClear _ | .forceClearAll _ | .forceList _ | .loadBegin _ | .loadData _ | .loadEnd _ | .verify _ | .activate _ | .save _
  | .restore _ | .erase _ | .bankInfo _ | .chgStart _ | .chgAbort _ | .lnkTableSet _ | .lnkTableGet _ | .lnkRollcall _ | .lnkParley _ | .lnkRearm _ | .lnkState _
  | .crySwitchover _ | .cryResync _ | .cryHealthGet _ | .ntmSetTime _ | .ntmSetUtc _ | .ntmLaunch _ | .ntmPtpState _ | .brkSetTime _ | .brkShift _ | .brkPwron _
  | .brkGetTime _ | .canRecover _ | .canDetect _ | .canHpRead _ | .lchClear _ | .mtrEnergyGet _ | .mtrEnergyPreset _ | .sltRecRead _ | .sltRecWrite _
  | .sltTallyRead _ | .sltTallyAdd _ | .sltRawRead _ | .sltRawWrite _ | .recSeek _ | .recRead _ | .recTailRead _ | .recArchiveRead _ | .recArchiveFlush _
  | .wdtEvidenceGet _ | .wdtEvidenceClear _ | .fwuScan _ | .fwuStage _ | .fwuActivate _ | .fwuConfirm _ | .fwuInfo _ => true
  | _ => false
/-- A rod is about to issue a bundle: it runs, nothing of its own is on its way, no divide and no repetition is under way, nothing stops its cycle, and the
bundle at its address is legal with these syllables and this length (R161, R163). -/
abbrev Issues (s : State) (k : Fin 48) (b : Bank) (ps : List Prim) (len : Nat) : Prop :=
  bankInForce s = some b ∧ (s.rods.rods.get k).run = .running ∧ (s.rods.rods.get k).flight = [] ∧ (s.rods.rods.get k).cstores = [] ∧
  (s.rods.rods.get k).divAt = none ∧ (s.rods.rods.get k).rept = 0 ∧ (s.rods.rods.get k).skipBad = false ∧ (∀ x ∈ s.rods.xst, x.dst ≠ k.val) ∧
  computeGoes s (s.rods.rods.get k).cycle = true ∧
  checkBundle (smGetD b.code k.val []) (s.rods.rods.get k).pc ((s.rods.rods.get k).noC > 0) = .ok ps len
/-- An issue in which no word of memory fails its check. -/
def noEcc : IssueEcc := { codeCorrected := 0, codeLost := false, mem := [] }
/-- What of a rod is on its way: where to, the value, and the cycle at which it lands. -/
def inFlight (r : Rod) : List (Dest × Nat × Nat) := r.flight.map (fun f => (f.dest, f.value, f.due))
/-- Commands at which the mode can change: a tick edge, the rows that reset the part or lose its rails, and the writes and
operations that can end in a reset (a watchdog service outside its window, the pointer write of FWU_ACTIVATE). -/
def changesMode (c : Instr) : Bool :=
  match c with
  | .tickEdge | .powerOn | .railLoss | .resetNPin | .undervoltageReset | .lockstepMismatch | .bootSequence _ | .reset _ | .join _
  | .slateOpStart | .watchdogExpiry | .wdtServiceWrite _ _ | .registerWrite _ _ _ | .w1cWrite _ _ _ | .enableWrite _ _ _ => true
  | _ => false

end Sys2Proof.Machine
end

