-- ==== Sys2Proof/Certificates/Slice0/Obligations.lean ====
section
/-! DEFINITION. The statements for the provers, one per entry of OBLIGATIONS.json: the queue and the whole machine first, then the commands family by family. -/
open Sys2Proof Sys2Proof.Machine

/-- A step with a command at the front of the queue runs exactly that command on the state with the queue's rest. -/
def Obligations.StepRunsFrontCommand : Prop :=
  ∀ (c : Instr) (rest : List Instr) (s : State), s.pending = c :: rest → step s = exec c { s with pending := rest }

/-- With an empty queue a step lets one nanosecond pass, and changes nothing that only commands change (log 1, the model's choice). -/
def Obligations.EmptyQueueLetsOneNanosecondPass : Prop :=
  ∀ (s : State), s.pending = [] → Awake s → s.slt.run = none → s.slt.claimRun = none →
    ∃ t, step s = .next t ∧ t.now = s.now + 1 ∧ t.tck = { s.tck with ofs := s.tck.ofs + 1 } ∧
      t.slt.mem = s.slt.mem ∧ SameBut [.now, .tck, .slt, .brk, .ntm] s t

/-- No command takes time of the model or touches the queue of commands. -/
def Obligations.CommandsKeepQueueAndTime : Prop :=
  ∀ (c : Instr) (s t : State), exec c s = .next t → t.pending = s.pending ∧ t.now = s.now

/-- The slate memory keeps its canonical form: strictly rising addresses, no byte listed that equals an unlisted one (log 5). -/
def Obligations.SlateMemoryStaysCanonical : Prop :=
  ∀ (s t : State), Memory.wf s.slt.mem = true → step s = .next t → Memory.wf t.slt.mem = true

def Obligations.SlateMemoryCanonicalAtReset : Prop :=
  Memory.wf State.reset.slt.mem = true

/-- A word written to slate memory below the reserved region: its 8 bytes read back, every other byte reads as before; a word in the reserved region changes
nothing (R467, R473). -/
def Obligations.SlateWordReadsBack : Prop :=
  ∀ (s : State) (a : Nat) (d : List Byte), Memory.wf s.slt.mem = true →
    (a < sltReserved → (∀ i, i < 8 → memByte (putWord s (a, d)).slt.mem (a + i) = (d[i]?).getD 0#8) ∧
      (∀ x, x < a ∨ a + 8 ≤ x → memByte (putWord s (a, d)).slt.mem x = memByte s.slt.mem x)) ∧
    (sltReserved ≤ a → putWord s (a, d) = s)

/-- What the machine holds after a power-on reset: the values that the spec states (R24, R36, R50, R53, R70; no claim, R324; readiness, R355; no forces, R105),
and no bank in force and no command waiting, which are the model's (log 75). -/
def Obligations.PowerOnResetValues : Prop :=
  let s := State.reset
  s.tck.mode = .boot ∧ s.tck.cause = 1#4 ∧ s.tck.tick = 0#64 ∧ s.tck.fault = 0#16 ∧ s.host.queue = [] ∧
  (∀ k : Fin 64, s.host.sems.get k = none) ∧
  (∀ p : Port, (portSt s p).irqStatus = 0#8 ∧ (portSt s p).irqEnable = 0#8 ∧ (portSt s p).semTag = 0#16 ∧ (portSt s p).done = 0#32 ∧
    (portSt s p).expert = 0#20 ∧ (portSt s p).badAccess = 0#8 ∧ (portSt s p).deniedWrite = 0#8 ∧ (portSt s p).badDoorbell = 0#8) ∧
  (∀ b ofs, fileReg (blkCfg s b).inForce b ofs = regReset b ofs ∧ fileReg (blkCfg s b).stage b ofs = regReset b ofs) ∧
  s.cry.claim = none ∧ s.cry.readiness = 3#2 ∧ s.img.forces = [] ∧ s.ldr.inForce = none ∧ s.pending = []

/-- The mode changes only at a tick edge, at a reset or the loss of the rails: every command outside changesMode leaves it, every command but a tick edge and the
loss of the rails leaves it or brings BOOT, and the loss of the rails leaves the part DORMANT (R25, R28, R36). -/
def Obligations.ModeChangesOnlyAtEdgesAndResets : Prop :=
  ∀ (c : Instr) (s t : State), exec c s = .next t →
    (changesMode c = false → t.tck.mode = s.tck.mode) ∧ (c ≠ .tickEdge → c ≠ .railLoss → t.tck.mode = s.tck.mode ∨ t.tck.mode = .boot) ∧
    (c = .railLoss → t.tck.mode = .dormant)

/-- A read of a semaphore, with the three cases of R51, and the two of a tie (R52). A tie on a free semaphore goes to the port that lost the last one, to port A
at first; the loser reads the winner's owner word (that the two reads of one cycle are one row is the model's reading, log 37). -/
def Obligations.SemaphoreReadAcquiresOrShowsOwner : Prop :=
  (∀ (s : State) (p : Port) (k : Fin 64), Answers s p →
      (s.host.sems.get k = none →
        ∃ t, exec (.semRead p k false) s = .next t ∧ (portSt t p).rdata = 0#32 ∧
          t.host.sems = s.host.sems.set k (some { port := p, tag := (portSt s p).semTag }) ∧
          portSt t (otherPort p) = portSt s (otherPort p) ∧ { portSt t p with rdata := (portSt s p).rdata } = portSt s p ∧
          SameBut [.host, .tx] s t) ∧
      (∀ o, s.host.sems.get k = some o →
        ∃ t, exec (.semRead p k false) s = .next t ∧
          (portSt t p).rdata = (if o.port = p ∧ o.tag = (portSt s p).semTag then 0#32
            else BitVec.ofNat 32 (2 ^ 31 + 2 ^ 16 * portNo o.port + o.tag.toNat)) ∧
          t.host.sems = s.host.sems ∧ portSt t (otherPort p) = portSt s (otherPort p) ∧
          { portSt t p with rdata := (portSt s p).rdata } = portSt s p ∧ SameBut [.host, .tx] s t)) ∧
  (∀ (s : State) (p : Port) (k : Fin 64), Answers s p → s.host.sems.get k = none →
      let w : Port := match s.host.lastTie with | none => .a | some x => otherPort x
      ∃ t, exec (.semRead p k true) s = .next t ∧ t.host.lastTie = some w ∧
        t.host.sems = s.host.sems.set k (some { port := w, tag := (portSt s w).semTag }) ∧ (portSt t w).rdata = 0#32 ∧
        (portSt t (otherPort w)).rdata = BitVec.ofNat 32 (2 ^ 31 + 2 ^ 16 * portNo w + (portSt s w).semTag.toNat) ∧ SameBut [.host, .tx] s t)

/-- Writes to a semaphore, port resets and resets release as R53 says; the reset after a new firmware slot (cause 7) ends an operation of slate, and is the
shared operation of the last clause. -/
def Obligations.SemaphoreReleaseRules : Prop :=
  (∀ (s : State) (p : Port) (k : Fin 64) (v : Dword) (o : SemOwner), Answers s p → s.host.sems.get k = some o → o.port = p →
    ∃ t, exec (.semWrite p k v) s = .next t ∧ t = { s with host.sems := s.host.sems.set k none }) ∧
  (∀ (s : State) (p : Port) (k : Fin 64) (v : Dword), Answers s p → (∀ o, s.host.sems.get k = some o → o.port ≠ p) →
    ∃ t, exec (.semWrite p k v) s = .next t ∧ t.host.sems = s.host.sems ∧
      (portSt t p).deniedWrite = satAdd (portSt s p).deniedWrite 1 ∧ portSt t (otherPort p) = portSt s (otherPort p) ∧
      { portSt t p with deniedWrite := (portSt s p).deniedWrite } = portSt s p ∧ SameBut [.host] s t) ∧
  (∀ (s : State) (x : PortReset), Awake s → x.perst ≠ some false → ∃ t, exec (.portReset x) s = .next t ∧
    ∀ k : Fin 64, t.host.sems.get k = (match s.host.sems.get k with | some o => if o.port = x.port then none else some o | none => none)) ∧
  (∀ (s : State) (c : Instr), ((c = .powerOn ∧ s.tck.mode = .dormant) ∨ (Awake s ∧ (c ∈ [.resetNPin, .undervoltageReset, .lockstepMismatch] ∨
      (∃ r w u, c = .reset r ∧ Quiet s ∧ Starts s r 0x0206 w u) ∨
      (∃ r w u, c = .join r ∧ Quiet s ∧ Starts s r 0x0207 w u ∧ s.tck.mode = .stop ∧ isPair s = true) ∨
      (c = .watchdogExpiry ∧ wdtT s ≤ wdtCount s)))) →
    ∃ t, exec c s = .next t ∧ ∀ k : Fin 64, t.host.sems.get k = none) ∧
  (∀ (s : State) (cause : Nat) (joining : Bool) (k : Fin 64), (coldReset s cause joining).host.sems.get k = none)

/-- A refused BAR0 access is counted; a read is answered with Completer Abort, a write does nothing (R46). A write to BAR2, and a block-window write without
expert access, are counted and do nothing else (R55, R67). -/
def Obligations.RefusedAccessesAreCounted : Prop :=
  (∀ (s : State) (p : Port) (rd : Bool), Answers s p →
      ∃ t, exec (.bar0BadAccess p rd) s = .next t ∧ (portSt t p).badAccess = satAdd (portSt s p).badAccess 1 ∧
        t.tx = (if rd then .completerAbort p :: s.tx else s.tx) ∧ { portSt t p with badAccess := (portSt s p).badAccess } = portSt s p ∧
        portSt t (otherPort p) = portSt s (otherPort p) ∧ t.host.sems = s.host.sems ∧ SameBut [.host, .tx] s t) ∧
  (∀ (s : State) (p : Port), Answers s p →
      (mailboxUp s = true → ∃ t, exec (.bar2Write p) s = .next t ∧ (portSt t p).deniedWrite = satAdd (portSt s p).deniedWrite 1 ∧
        { portSt t p with deniedWrite := (portSt s p).deniedWrite } = portSt s p ∧ portSt t (otherPort p) = portSt s (otherPort p) ∧
        t.host.sems = s.host.sems ∧ SameBut [.host] s t) ∧
      (∀ (ofs : BitVec 20) (v : Dword), 1 ≤ blkOf ofs → blkOf ofs ≤ 0x13 → inWindow ofs % 4 = 0 → (portSt s p).expert.getLsbD (blkOf ofs) = false →
        ∃ t, exec (.registerWrite p ofs v) s = .next t ∧ (portSt t p).deniedWrite = satAdd (portSt s p).deniedWrite 1 ∧
          { portSt t p with deniedWrite := (portSt s p).deniedWrite } = portSt s p ∧ portSt t (otherPort p) = portSt s (otherPort p) ∧
          t.host.sems = s.host.sems ∧ SameBut [.host] s t))

/-- A STAGED-only register, written with expert access and with no field ENABLE changed: the stage copy alone changes, and the write is sent to a standby (R70,
R339). A write that changes a field ENABLE (blocks 0x07, 0x0B, 0x0C, 0x0D) is also a COMMIT of the whole stage copy, ENABLE included (R75). -/
def Obligations.StagedWritesReachStageCopy : Prop :=
  (∀ (s : State) (p : Port) (ofs : BitVec 20) (v : Dword) (d : RegDef), Serving s → Answers s p → (portSt s p).expert.getLsbD (blkOf ofs) = true →
      1 ≤ blkOf ofs → blkOf ofs ≤ 0x13 → inWindow ofs % 4 = 0 → 0x100 ≤ inWindow ofs → regDef (blkOf ofs) (inWindow ofs) = some d →
      d.live = 0 → d.rw = 0 → d.staged ≠ 0 →
      (inWindow ofs = 0x100 → (fileReg (blkCfg s (blkOf ofs)).stage (blkOf ofs) 0x100 ^^^ v) &&& enableMask (blkOf ofs) = 0#32) →
      ∃ t, exec (.registerWrite p ofs v) s = .next t ∧
        fileReg (blkCfg t (blkOf ofs)).stage (blkOf ofs) (inWindow ofs) =
          maskWrite (fileReg (blkCfg s (blkOf ofs)).stage (blkOf ofs) (inWindow ofs)) v (BitVec.ofNat 32 d.staged) ∧
        (∀ o, o ≠ inWindow ofs → fileReg (blkCfg t (blkOf ofs)).stage (blkOf ofs) o = fileReg (blkCfg s (blkOf ofs)).stage (blkOf ofs) o) ∧
        (∀ b o, fileReg (blkCfg t b).inForce b o = fileReg (blkCfg s b).inForce b o) ∧ (∀ b, b ≠ blkOf ofs → blkCfg t b = blkCfg s b) ∧
        (blkCfg t (blkOf ofs)).check = (blkCfg s (blkOf ofs)).check ∧ (blkCfg t (blkOf ofs)).pend = (blkCfg s (blkOf ofs)).pend ∧
        SameBut [.cfg, .cry, .tx] s t ∧ ((holdsClaim s = false ∨ partnerShadow s = false) → SameBut [.cfg] s t)) ∧
  (∀ (s : State) (p : Port) (v : Dword) (b : Nat), b ∈ [0x07, 0x0B, 0x0C, 0x0D] → Serving s → Answers s p → (portSt s p).expert.getLsbD b = true → blkBusy s b = false →
      transPending s = false → (fileReg (blkCfg s b).stage b 0x100 ^^^ v) &&& enableMask b ≠ 0#32 →
      ∃ t k, exec (.enableWrite p (BitVec.ofNat 20 (windowBase b + 0x100)) v) s = .next t ∧ (blkCfg t b).check = some k ∧ k.work = .commit ∧
        k.copy = (blkCfg t b).stage ∧ fileReg (blkCfg t b).stage b 0x100 &&& enableMask b = v &&& enableMask b ∧ (blkCfg t b).pend = none ∧
        (∀ x, x ≠ b → blkCfg t x = blkCfg s x))

/-- COMMIT: the check of the stage copy begins; refused with 0xBBF0 while a change is under way, with 0xBBF1 while a mode transition is pending (R71, R73, R80).
A write that changes ENABLE commits as well, and is refused as a COMMIT is (R75). DISCARD: from the pending copy while a change is pending, after the check while
one runs, else from the values in force (R74). CONSISTENCY_CHECK_END of a COMMIT: a copy that passes becomes the pending copy and REASON is 0, one that fails
leaves its reason and changes nothing in force; a DISCARD that came while the check ran is done then, from the copy that passed, else from the values in force
(R71, R74). -/
def Obligations.ChangeGoesThroughItsCheck : Prop :=
  (∀ (s : State) (p : Port) (b : Fin 20), Serving s → Answers s p → 1 ≤ b.val → (portSt s p).expert.getLsbD b.val = true →
      (blkBusy s b.val = false → transPending s = false →
        ∃ t, exec (.commit p b) s = .next t ∧ SameBut [.cfg] s t ∧ (∀ x, x ≠ b.val → blkCfg t x = blkCfg s x) ∧
          blkCfg t b.val = { blkCfg s b.val with check := some { copy := (blkCfg s b.val).stage, work := .commit, discard := false } }) ∧
      (blkBusy s b.val = true →
        ∃ t, exec (.commit p b) s = .next t ∧ SameBut [.cfg] s t ∧ (∀ x, x ≠ b.val → blkCfg t x = blkCfg s x) ∧
          blkCfg t b.val = { blkCfg s b.val with reason := BitVec.ofNat 16 (256 * b.val + 0xF0) }) ∧
      (blkBusy s b.val = false → transPending s = true →
        ∃ t, exec (.commit p b) s = .next t ∧ SameBut [.cfg] s t ∧ (∀ x, x ≠ b.val → blkCfg t x = blkCfg s x) ∧
          blkCfg t b.val = { blkCfg s b.val with reason := BitVec.ofNat 16 (256 * b.val + 0xF1) })) ∧
  (∀ (s : State) (p : Port) (b : Fin 20), Serving s → Answers s p → 1 ≤ b.val → (portSt s p).expert.getLsbD b.val = true →
      ∃ t, exec (.discard p b) s = .next t ∧ SameBut [.cfg, .cry, .tx] s t ∧ ((holdsClaim s = false ∨ partnerShadow s = false) → SameBut [.cfg] s t) ∧ (∀ x, x ≠ b.val → blkCfg t x = blkCfg s x) ∧
        blkCfg t b.val = (match (blkCfg s b.val).check, (blkCfg s b.val).pend with
          | some k, _ => { blkCfg s b.val with check := some { k with discard := true } }
          | none, some q => { blkCfg s b.val with stage := q.copy }
          | none, none => { blkCfg s b.val with stage := (blkCfg s b.val).inForce })) ∧
  (∀ (s : State) (p : Port) (v : Dword) (b : Nat), b ∈ [0x07, 0x0B, 0x0C, 0x0D] → Serving s → Answers s p → (portSt s p).expert.getLsbD b = true →
      (fileReg (blkCfg s b).stage b 0x100 ^^^ v) &&& enableMask b ≠ 0#32 →
      ∃ t, exec (.enableWrite p (BitVec.ofNat 20 (windowBase b + 0x100)) v) s = .next t ∧ (∀ x, x ≠ b → blkCfg t x = blkCfg s x) ∧
        (∀ o, fileReg (blkCfg t b).inForce b o = fileReg (blkCfg s b).inForce b o) ∧ (blkCfg t b).pend = (blkCfg s b).pend ∧
        (blkBusy s b = false → transPending s = false → (blkCfg t b).check = some { copy := (blkCfg t b).stage, work := .commit, discard := false }) ∧
        (blkBusy s b = true → (blkCfg t b).reason = BitVec.ofNat 16 (256 * b + 0xF0) ∧ (blkCfg t b).check = (blkCfg s b).check) ∧
        (blkBusy s b = false → transPending s = true → (blkCfg t b).reason = BitVec.ofNat 16 (256 * b + 0xF1) ∧ (blkCfg t b).check = none)) ∧
  (∀ (s : State) (b : Fin 20) (k : Check), (blkCfg s b.val).check = some k → k.work = .commit →
      (workCheck s b.val k.copy k.work = none →
        ∃ t, exec (.consistencyCheckEnd b) s = .next t ∧ (blkCfg t b.val).check = none ∧ (blkCfg t b.val).reason = 0#16 ∧
          (blkCfg t b.val).pend = some { copy := k.copy, work := .commit, passedAt := s.now } ∧ (blkCfg t b.val).inForce = (blkCfg s b.val).inForce ∧
          (blkCfg t b.val).stage = (if k.discard then k.copy else (blkCfg s b.val).stage) ∧ (∀ x, x ≠ b.val → blkCfg t x = blkCfg s x)) ∧
      (∀ c, workCheck s b.val k.copy k.work = some c → (blkCfg s b.val).pend = none →
        ∃ t, exec (.consistencyCheckEnd b) s = .next t ∧
          blkCfg t b.val = { blkCfg s b.val with check := none, reason := BitVec.ofNat 16 c
                                                 stage := if k.discard then (blkCfg s b.val).inForce else (blkCfg s b.val).stage } ∧
          (∀ x, x ≠ b.val → blkCfg t x = blkCfg s x) ∧ (b.val ≠ 3 → SameBut [.cfg] s t) ∧ (b.val = 3 → SameBut [.cfg, .img, .host, .tx, .cry] s t)))

/-- Bits written 1 to SUP_MB_DONE and SUP_IRQ_STATUS are cleared, the others stay (R5, R50). A read of SUP_PORT_STATUS returns the three counts and clears them;
a read of TCK_TICK_LO latches the high bits (R23, R47, R50). -/
def Obligations.PortRegistersHaveTheirSideEffects : Prop :=
  (∀ (s : State) (p : Port) (v : Dword), Answers s p →
      (∃ t, exec (.w1cWrite p 0x14#20 v) s = .next t ∧ (portSt t p).done = (portSt s p).done &&& ~~~v ∧
        { portSt t p with done := (portSt s p).done } = portSt s p ∧ portSt t (otherPort p) = portSt s (otherPort p) ∧ SameBut [.host] s t) ∧
      (∃ t, exec (.w1cWrite p 0x1C#20 v) s = .next t ∧
        (∀ i : Fin 8, i.val ≠ 3 → (portSt t p).irqStatus.getLsbD i.val = ((portSt s p).irqStatus.getLsbD i.val && !v.getLsbD i.val)) ∧
        { portSt t p with irqStatus := (portSt s p).irqStatus } = portSt s p ∧ portSt t (otherPort p) = portSt s (otherPort p) ∧
        SameBut [.host, .tx] s t)) ∧
  (∀ (s : State) (p : Port), Answers s p →
      (∃ t, exec (.rcRead p 0x4#20) s = .next t ∧ (portSt t p).badAccess = 0#8 ∧ (portSt t p).deniedWrite = 0#8 ∧ (portSt t p).badDoorbell = 0#8 ∧
        (portSt t p).rdata = BitVec.ofNat 32 (b2n ((portSt s p).expert != 0#20) + 2 ^ 8 * (portSt s p).badAccess.toNat +
          2 ^ 16 * (portSt s p).deniedWrite.toNat + 2 ^ 24 * (portSt s p).badDoorbell.toNat) ∧
        portSt t (otherPort p) = portSt s (otherPort p) ∧ SameBut [.host, .tx] s t) ∧
      (∃ t, exec (.tckTickLoRead p) s = .next t ∧ (portSt t p).rdata = s.tck.tick.truncate 32 ∧ t.tck.tickHi = (s.tck.tick >>> 32).truncate 32 ∧
        { t.tck with tickHi := s.tck.tickHi } = s.tck ∧ portSt t (otherPort p) = portSt s (otherPort p) ∧ SameBut [.host, .tx, .tck] s t))

/-- The bytes of a request header say its fields, and the request area of a slot stands at 128 KiB times the slot's number of BAR4 (R56, R57): the first bytes
of the area are the header, the payload follows at byte 32. -/
def Obligations.RequestAreaHoldsHeaderAndPayload : Prop :=
  (∀ (h : ReqHdr) (d : List Byte), d.length ≤ 65504 →
    (hdrBytes h).length = 32 ∧ hdrOf (areaOf h d) = h ∧ slice (areaOf h d) 32 d.length = d) ∧
  (∀ (s : State) (p : Port) (k : Fin 32) (h : ReqHdr) (d : List Byte) (i : Nat), d.length ≤ 65504 → ((portSt s p).slots.get k).busy = none →
    (i < 32 → bar4Byte (writeArea s p k (areaOf h d)) p (BitVec.ofNat 22 (0x20000 * k.val + i)) = ((hdrBytes h)[i]?).getD 0#8) ∧
    (i < 65504 → bar4Byte (writeArea s p k (areaOf h d)) p (BitVec.ofNat 22 (0x20000 * k.val + 32 + i)) = (d[i]?).getD 0#8)) ∧
  (∀ (s : State) (p : Port) (k : Fin 32) (x : Response) (i : Nat), ((portSt s p).slots.get k).response = some x → i < 65536 →
    bar4Byte s p (BitVec.ofNat 22 (0x20000 * k.val + 0x10000 + i)) = ((responseBytes x)[i]?).getD 0#8 ∧
    leAt (responseBytes x) 0 2 = x.code.toNat ∧ leAt (responseBytes x) 2 2 = x.reason.toNat ∧ leAt (responseBytes x) 4 4 = x.seq.toNat ∧
    leAt (responseBytes x) 8 4 = x.data.length % 2 ^ 32 ∧ leAt (responseBytes x) 16 8 = x.tick.toNat ∧ (responseBytes x).drop 32 = x.data)

/-- A doorbell of a free slot puts the request into the supervisor's queue, behind those that wait; one that comes first is examined at once: a wrong header is
answered 0x0102 and an unknown code 0x0101. A doorbell of a BUSY slot is counted and nothing else happens. Where the mailboxes do not answer, in BOOT up to
the end of step 5, in DORMANT, in D3hot and while PERST is low, nothing happens (R33, R44, R59, R61, R551). The order of 0x0102 and 0x0101, where both hold, is
the model's (log 117). -/
def Obligations.DoorbellQueuesOrRefuses : Prop :=
  ∀ (s : State) (p : Port) (k : Fin 32) (h : ReqHdr) (d : List Byte), d.length ≤ 65504 →
    (mailboxUp s = true → Answers s p →
      (((portSt s p).slots.get k).busy = none →
        ((s.host.queue = [] ∧ badRequest h = none) ∨
            (∃ e rest, s.host.queue = e :: rest ∧ ¬(e.port = p ∧ e.slot = k) ∧ badRequest (hdrOf (requestArea s e.port e.slot)) = none)) →
        ∃ t, exec (.doorbell p k h d) s = .next t ∧ t.host.queue = s.host.queue ++ [{ port := p, slot := k, id := s.host.nextId }] ∧
          ((portSt t p).slots.get k).busy = some s.host.nextId ∧ ((portSt t p).slots.get k).request = hdrBytes h ++ d ∧
          (∀ j, j ≠ k → (portSt t p).slots.get j = (portSt s p).slots.get j) ∧ portSt t (otherPort p) = portSt s (otherPort p) ∧ SameBut [.host] s t) ∧
      (((portSt s p).slots.get k).busy = none → s.host.queue = [] → (headerWrong h = true ∨ commandCodes.contains h.code.toNat = false) →
        ∃ t, exec (.doorbell p k h d) s = .next t ∧ t.host.queue = [] ∧
          ((portSt t p).slots.get k).response = some { code := h.code, reason := if headerWrong h then 0x0102#16 else 0x0101#16, seq := h.seq
                                                       tick := s.tck.tick, data := [] } ∧
          ((portSt t p).slots.get k).busy = none ∧ (∀ j, j ≠ k → (portSt t p).slots.get j = (portSt s p).slots.get j) ∧
          portSt t (otherPort p) = portSt s (otherPort p) ∧ SameBut [.host, .tx] s t) ∧
      (((portSt s p).slots.get k).busy.isSome = true →
        ∃ t, exec (.doorbell p k h d) s = .next t ∧ (portSt t p).badDoorbell = satAdd (portSt s p).badDoorbell 1 ∧
          { portSt t p with badDoorbell := (portSt s p).badDoorbell } = portSt s p ∧ portSt t (otherPort p) = portSt s (otherPort p) ∧ SameBut [.host] s t)) ∧
    ((mailboxUp s = false ∨ (portSt s p).d3hot = true ∨ (portSt s p).perst = true) → exec (.doorbell p k h d) s = .next s)

/-- A request that its row puts into a free slot starts at once where nothing waits before it; one whose slot has waited in the queue starts when it is first,
as its area spells it, and its row's operands give nothing. Only the ports change: its slot is BUSY with it. When its command has acted, the requests that are
now first are examined: those with a wrong header or an unknown code are answered, up to the first good one, which stays first; slots that do not wait in the
queue keep everything. Where the mailboxes do not answer, the row of every mailbox command does nothing (R33, R59, R61). -/
def Obligations.RequestsStartInOrder : Prop :=
  (∀ (s : State) (r : Req) (code : Nat), mailboxUp s = true → commandCodes.contains code = true → r.payload.length ≤ 65504 →
      Answers s r.port → s.host.queue = [] → ((portSt s r.port).slots.get r.slot).busy = none →
      ∃ w u, Starts s r code w u ∧ w.id = s.host.nextId ∧ u.host.queue = [] ∧ StartFrame r.port r.slot s u ∧ SameBut [.host] s u) ∧
  (∀ (s : State) (r : Req) (code : Nat) (e : Queued) (rest : List Queued), mailboxUp s = true → s.host.queue = e :: rest →
      ((portSt s e.port).slots.get e.slot).busy = some e.id → (∀ x ∈ rest, ¬(x.port = e.port ∧ x.slot = e.slot)) → e.port = r.port → e.slot = r.slot → (hdrOf (requestArea s e.port e.slot)).code.toNat = code →
      ∃ w u, startCmd s r code = some (reqOfArea e.port e.slot (requestArea s e.port e.slot), w, u) ∧ w.id = e.id ∧
        u.host.queue = rest ∧ ((portSt u r.port).slots.get r.slot).busy = some e.id ∧ SameBut [.host, .tx] s u) ∧
  (∀ (s : State), (∀ q, samePortRest q s (serveQueue s)) ∧ (serveQueue s).host.sems = s.host.sems ∧ (serveQueue s).host.xfers = s.host.xfers ∧
      SameBut [.host, .tx] s (serveQueue s) ∧ (s.host.queue = [] → serveQueue s = s) ∧
      (∀ e rest, s.host.queue = e :: rest → badRequest (hdrOf (requestArea s e.port e.slot)) = none → serveQueue s = s) ∧
      (∀ e rest c, s.host.queue = e :: rest → badRequest (hdrOf (requestArea s e.port e.slot)) = some c → ((portSt s e.port).slots.get e.slot).busy = some e.id →
        (∀ x ∈ rest, ¬(x.port = e.port ∧ x.slot = e.slot)) →
        ((portSt (serveQueue s) e.port).slots.get e.slot).busy = none ∧
        ((portSt (serveQueue s) e.port).slots.get e.slot).response =
          some { code := (hdrOf (requestArea s e.port e.slot)).code, reason := BitVec.ofNat 16 c, seq := (hdrOf (requestArea s e.port e.slot)).seq
                 tick := s.tck.tick, data := [] }) ∧
      (∀ e rest, (serveQueue s).host.queue = e :: rest → ∃ bad, s.host.queue = bad ++ e :: rest) ∧
      (∀ q j, (∀ e ∈ s.host.queue, ¬(e.port = q ∧ e.slot = j)) → (portSt (serveQueue s) q).slots.get j = (portSt s q).slots.get j)) ∧
  (∀ (s : State) (c : Instr), isMailboxRow c = true → mailboxUp s = false → exec c s = .next s)

/-- GET_IDENTITY answers its 18 bytes, and fails with 0x0109 with a payload (R567). GET_CONFIG returns the values in force and GET_STAGE those of the stage
copy, 4 bytes for each offset named, with no side effect of a read; both answer in every mode (R568). Stated for one offset. -/
def Obligations.ReadCommandsAnswer : Prop :=
  (∀ (s : State) (r : Req), Awake s →
      (r.payload = [] → ∀ w u, Starts s r 0x0101 w u → ∃ t d, exec (.getIdentity r) s = .next (serveQueue t) ∧ Responded t r 0x0101 0 s.tck.tick d ∧ d.length = 18 ∧
        leAt d 0 2 = 0x4824 ∧ leAt d 2 1 = Config.stepping.toNat ∧ leAt d 3 1 = 0 ∧ leAt d 4 8 = Config.serial.toNat ∧ leAt d 12 1 = runningSlot s ∧ leAt d 13 1 = roleNo s ∧
        leAt d 14 2 = (if isPair s then domainOf s else 0) ∧ leAt d 16 1 = (if isPair s then positionOf s else 0) ∧ leAt d 17 1 = 0 ∧
        AnswerFrame r u t ∧ SameBut [.host, .tx] u t) ∧
      (r.payload ≠ [] → ∀ w u, Starts s r 0x0101 w u → ∃ t, exec (.getIdentity r) s = .next (serveQueue t) ∧ Responded t r 0x0101 0x0109 s.tck.tick [] ∧ AnswerFrame r u t ∧ SameBut [.host, .tx] u t)) ∧
  (∀ (s : State) (r : Req) (b o : Nat), Awake s → 1 ≤ b → b ≤ 0x13 → o < 0x8000 → o % 4 = 0 →
      r.payload = leBytes 1 b ++ leBytes 3 0 ++ leBytes 4 o →
      (∀ w u, Starts s r 0x0104 w u → ∃ t, exec (.getConfig r) s = .next (serveQueue t) ∧ Responded t r 0x0104 0 s.tck.tick (leBytes 4 (regValue u r.port b o false false).toNat) ∧
        AnswerFrame r u t ∧ SameBut [.host, .tx] u t) ∧
      (∀ w u, Starts s r 0x0106 w u → ∃ t, exec (.getStage r) s = .next (serveQueue t) ∧ Responded t r 0x0106 0 s.tck.tick (leBytes 4 (regValue u r.port b o true true).toNat) ∧
        AnswerFrame r u t ∧ SameBut [.host, .tx] u t))

/-- EXPERT_UNLOCK grants the blocks of its mask to the sending port, and records it; EXPERT_LOCK ends what the port holds of its mask in every mode (R65, R66).
The reasons for which EXPERT_UNLOCK grants nothing, in their order (R65, R68). -/
def Obligations.ExpertAccessIsGrantedAndEnds : Prop :=
  (∀ (s : State) (r : Req),
      (Serving s → r.payload.length = 8 → leAt r.payload 4 4 = 0x45585054 → maskOutside (leAt r.payload 0 4) = false →
        (portSt s (otherPort r.port)).expert &&& BitVec.ofNat 20 (leAt r.payload 0 4) = 0#20 →
        ∀ w u, Starts s r 0x0102 w u → ∃ t, exec (.expertUnlock r) s = .next (serveQueue t) ∧ Responded t r 0x0102 0 s.tck.tick [] ∧
          (portSt t r.port).expert = (portSt s r.port).expert ||| BitVec.ofNat 20 (leAt r.payload 0 4) ∧
          (portSt t (otherPort r.port)).expert = (portSt s (otherPort r.port)).expert ∧
          (CanRecord s 0x0120 → LastReport t 0x0120 false [portNo r.port, leAt r.payload 0 4]) ∧ SameBut [.host, .tx, .recd] u t) ∧
      (Awake s → r.payload.length = 4 → maskOutside (leAt r.payload 0 4) = false →
        ∀ w u, Starts s r 0x0103 w u → ∃ t, exec (.expertLock r) s = .next (serveQueue t) ∧ Responded t r 0x0103 0 s.tck.tick [] ∧
          (portSt t r.port).expert = (portSt s r.port).expert &&& ~~~(BitVec.ofNat 20 (leAt r.payload 0 4)) ∧
          (portSt t (otherPort r.port)).expert = (portSt s (otherPort r.port)).expert ∧
          (∀ b, (blkCfg t b).inForce = (blkCfg s b).inForce ∧ (blkCfg t b).pend = (blkCfg s b).pend) ∧ SameBut [.host, .tx, .recd, .cfg] u t)) ∧
  (∀ (s : State) (r : Req), Awake s →
      let c : Nat := if inBootOrShadow s then 0x0103 else if r.payload.length ≠ 8 then 0x0109 else if leAt r.payload 4 4 ≠ 0x45585054 then 0x0105
        else if maskOutside (leAt r.payload 0 4) then 0x0108
        else if (portSt s (otherPort r.port)).expert &&& BitVec.ofNat 20 (leAt r.payload 0 4) ≠ 0#20 then 0x0104 else 0
      c ≠ 0 → ∀ w u, Starts s r 0x0102 w u → ∃ t, exec (.expertUnlock r) s = .next (serveQueue t) ∧ Responded t r 0x0102 c s.tck.tick [] ∧ AnswerFrame r u t ∧ SameBut [.host, .tx] u t)

/-- SET_CONFIG starts the check of the block's values in force with the entries applied; its command waits for the edge (R78). The cases in which SET_CONFIG
fails and changes nothing, in the order of R79; REASON of the block gets the code where the request names a block and its entries are looked at (R78; log 35). -/
def Obligations.SetConfigStartsCheckOrIsRefused : Prop :=
  (∀ (s : State) (r : Req), Serving s → 16 ≤ r.payload.length → (r.payload.length - 4) % 12 = 0 → leAt r.payload 1 3 = 0 →
      1 ≤ leAt r.payload 0 1 → leAt r.payload 0 1 ≤ 0x13 → (entriesOf (r.payload.drop 4)).any (entryBad (leAt r.payload 0 1)) = false →
      expertHeld s .a (leAt r.payload 0 1) = false → expertHeld s .b (leAt r.payload 0 1) = false → blkBusy s (leAt r.payload 0 1) = false →
      transPending s = false →
      ∀ w u, Starts s r 0x0105 w u → ∃ t k, exec (.setConfig r) s = .next (serveQueue t) ∧ Waits t r 0x0105 w ∧ (blkCfg t (leAt r.payload 0 1)).check = some k ∧
        k.copy = writeFields (leAt r.payload 0 1) (blkCfg s (leAt r.payload 0 1)).inForce (stagedPart (leAt r.payload 0 1) (entriesOf (r.payload.drop 4))) ∧
        k.work = .setConfig w (directPart (leAt r.payload 0 1) (entriesOf (r.payload.drop 4))) ∧
        (∀ b, (blkCfg t b).inForce = (blkCfg s b).inForce ∧ (blkCfg t b).stage = (blkCfg s b).stage) ∧ AnswerFrame r u t ∧ SameBut [.host, .cfg] u t) ∧
  (∀ (s : State) (r : Req), Awake s →
      let d := r.payload
      let b := leAt d 0 1
      let c : Nat := if inBootOrShadow s then 0x0103 else if d.length < 16 ∨ (d.length - 4) % 12 ≠ 0 ∨ leAt d 1 3 ≠ 0 then 0x0109
        else if b = 0 ∨ b > 0x13 then 0x0108 else if (entriesOf (d.drop 4)).any (entryBad b) then 0x0107
        else if expertHeld s .a b ∨ expertHeld s .b b then 256 * b + 0xF2 else if blkBusy s b then 256 * b + 0xF0
        else if transPending s then 256 * b + 0xF1 else 0
      c ≠ 0 → ∀ w u, Starts s r 0x0105 w u → ∃ t, exec (.setConfig r) s = .next (serveQueue t) ∧ Responded t r 0x0105 c s.tck.tick [] ∧ AnswerFrame r u t ∧
        (∀ x, (blkCfg t x).reason = (if x = b ∧ (c = 0x0107 ∨ c = 256 * b + 0xF0 ∨ c = 256 * b + 0xF1 ∨ c = 256 * b + 0xF2) then BitVec.ofNat 16 c else (blkCfg s x).reason)) ∧
        (∀ x, (blkCfg t x).inForce = (blkCfg s x).inForce ∧ (blkCfg t x).stage = (blkCfg s x).stage ∧ (blkCfg t x).check = (blkCfg s x).check ∧
          (blkCfg t x).pend = (blkCfg s x).pend) ∧ SameBut [.host, .tx, .cfg] u t)

/-- Force commands that are accepted wait for their check and their edge, in the order they came (R105, R107). LOAD_DATA reads exactly its block from the
host; when the transfer ends, the block stands in the bank and the command is answered (R62, R235). The end of a transfer to the host answers its command with
0, or with 0x0106 when the transfer failed (R62). -/
def Obligations.ForcesWaitAndTransfersEnd : Prop :=
  (∀ (s : State) (r : Req), Serving s →
      (s.ldr.inForce.isSome = true → forcePayBad r.payload 12 = false →
        ∀ w u, Starts s r 0x0301 w u → ∃ t, exec (.forceSet r) s = .next (serveQueue t) ∧ Waits t r 0x0301 w ∧ AnswerFrame r u t ∧ SameBut [.host, .img] u t ∧
          t.img = { s.img with forceOps := s.img.forceOps ++ [{ work := forceSetOf r.payload, who := w, passedAt := none }] }) ∧
      (s.ldr.inForce.isSome = true → forcePayBad r.payload 4 = false →
        ∀ w u, Starts s r 0x0302 w u → ∃ t, exec (.forceClear r) s = .next (serveQueue t) ∧ Waits t r 0x0302 w ∧ AnswerFrame r u t ∧ SameBut [.host, .img] u t ∧
          t.img = { s.img with forceOps := s.img.forceOps ++ [{ work := forceClearOf r.payload, who := w, passedAt := none }] }) ∧
      (r.payload = [] →
        ∀ w u, Starts s r 0x0303 w u → ∃ t, exec (.forceClearAll r) s = .next (serveQueue t) ∧ Waits t r 0x0303 w ∧ AnswerFrame r u t ∧ SameBut [.host, .img] u t ∧
          t.img = { s.img with forceOps := s.img.forceOps ++ [{ work := .clearAll, who := w, passedAt := none }] }) ∧
      (r.payload.length = 4 →
        ∀ w u, Starts s r 0x0304 w u → ∃ t d, exec (.forceList r) s = .next (serveQueue t) ∧ Responded t r 0x0304 0 s.tck.tick d ∧ leAt d 0 4 = s.img.forces.length % 2 ^ 32 ∧
          d.length = 8 + 12 * min 4096 (s.img.forces.length - leAt r.payload 0 4) ∧ AnswerFrame r u t ∧ SameBut [.host, .tx] u t)) ∧
  ((∀ (s : State) (r : Req), Serving s → r.payload.length = 4 → leAt r.payload 0 4 < 2 ^ 29 → 0 < r.hostLen.toNat → r.hostLen.toNat ≤ 16777216 →
      bankTaken s false .a = false → (bankSt s .a).phase = .loading → leAt r.payload 0 4 + r.hostLen.toNat ≤ (bankSt s .a).length →
      ∀ w u, Starts s r 0x0502 w u → ∃ t, exec (.loadData r) s = .next (serveQueue t) ∧ Waits t r 0x0502 w ∧
        t.host.xfers = s.host.xfers ++ [{ who := w, addr := r.hostAddr, len := r.hostLen.toNat, kind := .load .a (leAt r.payload 0 4) }] ∧
        t.tx = .hostRead r.port r.hostAddr r.hostLen.toNat :: u.tx ∧ SameBut [.host, .tx] u t) ∧
    (∀ (s : State) (x : Xfer) (b : BankId) (ofs : Nat) (d : List Byte),
      s.host.xfers.find? (fun y => y.who.port == x.who.port && y.who.slot == x.who.slot) = some x → x.kind = .load b ofs →
      ((portSt s x.who.port).slots.get x.who.slot).busy = some x.who.id → (bankSt s b).phase = .loading → ofs + x.len ≤ (bankSt s b).length →
      ∃ t, exec (.hostTransferEnd x.who.port x.who.slot (.done d)) s = .next t ∧
        (bankSt t b).chunks = { ofs := ofs, len := x.len, data := some (padTo x.len d) } :: (bankSt s b).chunks ∧ (bankSt t b).phase = .loading ∧
        ((portSt t x.who.port).slots.get x.who.slot).busy = none ∧ SameBut [.host, .tx, .ldr, .cry] s t)) ∧
  (∀ (s : State) (x : Xfer) (d : List Byte) (res : TransferResult),
      s.host.xfers.find? (fun y => y.who.port == x.who.port && y.who.slot == x.who.slot) = some x → x.kind = .toHost d →
      ((portSt s x.who.port).slots.get x.who.slot).busy = some x.who.id →
      ∃ t, exec (.hostTransferEnd x.who.port x.who.slot res) s = .next t ∧ t.host.xfers = s.host.xfers.erase x ∧
        ((portSt t x.who.port).slots.get x.who.slot).response =
          some { code := x.who.code, reason := (match res with | .done _ => 0#16 | .error => 0x0106#16), seq := x.who.seq, tick := s.tck.tick, data := [] } ∧
        ((portSt t x.who.port).slots.get x.who.slot).busy = none ∧ SameBut [.host, .tx] s t)

/-- A reset of a port, by its link or by a low level of PERST, returns that port's own state to its reset values, SUP_IRQ_STATUS with it but for bit 3, which
shows that REC_HEAD has moved, drops its waiting commands and records how many responses it discards; the other port keeps everything but interrupt bits, and
but for a request of its own that now comes first with a wrong header and is answered (R59, R63). A high level of PERST ends the reset and does nothing else
(R551). -/
def Obligations.PortResetClearsOnePort : Prop :=
  (∀ (s : State) (p : Port), ∃ t, exec (.portReset { port := p, perst := some false }) s = .next t ∧ portSt t p = { portSt s p with perst := false } ∧
    portSt t (otherPort p) = portSt s (otherPort p) ∧ t.host.sems = s.host.sems ∧ t.host.queue = s.host.queue ∧ SameBut [.host] s t) ∧
  ∀ (s : State) (p : Port) (low : Option Bool), Awake s → low ≠ some false →
    ∃ t, exec (.portReset { port := p, perst := low }) s = .next t ∧ (portSt t p).perst = low.getD (portSt s p).perst ∧
      (∀ v : Fin 8, v.val ≠ 3 → (portSt t p).irqStatus.getLsbD v.val = false) ∧
      ((portSt s p).perst = false → (portSt t p).irqStatus.getLsbD 3 = decide (t.recd.head ≠ 0)) ∧
      (s.recd.batch = none → ((s.recd.started = false ∧ s.recd.bootBuf.length < 4095) ∨ (s.recd.started = true ∧ s.recd.seq < 65535)) →
        LastReport t 0x0122 false [((portSt s p).slots.toList.filter (fun x => x.busy.isSome)).length]) ∧ (portSt t p).done = 0#32 ∧ (portSt t p).irqEnable = 0#8 ∧ (portSt t p).edgeDiv = 0#8 ∧
      (portSt t p).semTag = 0#16 ∧ (portSt t p).badAccess = 0#8 ∧ (portSt t p).deniedWrite = 0#8 ∧ (portSt t p).badDoorbell = 0#8 ∧
      (portSt t p).expert = 0#20 ∧ (portSt t p).view = 0#20 ∧ (portSt t p).cursor = 0 ∧ (portSt t p).snap = BrkSnap.reset ∧
      (∀ k, ((portSt t p).slots.get k).busy = none) ∧ (∀ e ∈ t.host.queue, e ∈ s.host.queue ∧ e.port ≠ p) ∧ (∀ k, ((portSt t p).slots.get k).request = ((portSt s p).slots.get k).request) ∧
      ((∀ e ∈ s.host.queue, e.port ≠ p → badRequest (hdrOf (requestArea s e.port e.slot)) = none) →
        t.host.queue = s.host.queue.filter (fun e => e.port != p) ∧
        { portSt t (otherPort p) with irqStatus := (portSt s (otherPort p)).irqStatus } = portSt s (otherPort p)) ∧
      samePortRest (otherPort p) s t ∧
      (∀ b, (blkCfg t b).inForce = (blkCfg s b).inForce ∧ (blkCfg t b).pend = (blkCfg s b).pend) ∧ SameBut [.host, .tx, .recd, .cfg] s t

/-- RUN, STOP, HOLD and STEP are accepted in the modes of their rules, and wait for the next edge (R22, R26, R28, R31); FAULT_ACK clears the fault reason and
the part stays in STOP (R30). After a rail has left its window, a RUN that is accepted faults again with 0x1312, so that the part stays in STOP until a reset
(R30, R543). -/
def Obligations.ModeCommandsWaitForTheEdge : Prop :=
  ∀ (s : State) (r : Req), Quiet s →
    ((s.tck.mode = .hold ∨ (s.tck.mode = .stop ∧ s.tck.fault = 0#16 ∧ s.tck.acked = none ∧ s.pwr.railHeld = none ∧ runAllowed s = true)) →
      ∀ w u, Starts s r 0x0201 w u → ∃ t, exec (.run r) s = .next (serveQueue t) ∧ Waits t r 0x0201 w ∧ t.tck = { s.tck with trans := some { target := .run, who := w } } ∧
        AnswerFrame r u t ∧ SameBut [.host, .tck, .cry, .tx] u t ∧ ((holdsClaim s = false ∨ partnerShadow s = false) → SameBut [.host, .tck] u t)) ∧
    ((s.tck.mode = .run ∨ s.tck.mode = .hold ∨ s.tck.mode = .shadow) →
      ∀ w u, Starts s r 0x0202 w u → ∃ t, exec (.stop r) s = .next (serveQueue t) ∧ Waits t r 0x0202 w ∧ t.tck = { s.tck with trans := some { target := .stop, who := w } } ∧
        AnswerFrame r u t ∧ SameBut [.host, .tck, .cry, .tx] u t ∧ ((holdsClaim s = false ∨ partnerShadow s = false) → SameBut [.host, .tck] u t)) ∧
    (s.tck.mode = .run →
      ∀ w u, Starts s r 0x0203 w u → ∃ t, exec (.hold r) s = .next (serveQueue t) ∧ Waits t r 0x0203 w ∧ t.tck = { s.tck with trans := some { target := .hold, who := w } } ∧
        AnswerFrame r u t ∧ SameBut [.host, .tck, .cry, .tx] u t ∧ ((holdsClaim s = false ∨ partnerShadow s = false) → SameBut [.host, .tck] u t)) ∧
    (s.tck.mode = .hold → s.chg.stage = .idle →
      ∀ w u, Starts s r 0x0204 w u → ∃ t, exec (.step r) s = .next (serveQueue t) ∧ Waits t r 0x0204 w ∧ t.tck = { s.tck with stepReq := some w } ∧
        AnswerFrame r u t ∧ SameBut [.host, .tck, .cry, .tx] u t ∧ ((holdsClaim s = false ∨ partnerShadow s = false) → SameBut [.host, .tck] u t)) ∧
    (s.tck.mode = .stop → s.tck.fault ≠ 0#16 →
      ∀ w u, Starts s r 0x0205 w u → ∃ t, exec (.faultAck r) s = .next (serveQueue t) ∧ Responded t r 0x0205 0 s.tck.tick [] ∧ t.tck = { s.tck with fault := 0#16, faultPs := [], acked := some (s.tck.fault, s.tck.faultPs) } ∧
        AnswerFrame r u t ∧ SameBut [.host, .tx, .tck, .cry] u t) ∧
    (∀ k, s.tck.mode = .stop → s.tck.fault = 0#16 → s.tck.pend = none → s.pwr.railHeld = some k → runAllowed s = true →
      ∀ w u, Starts s r 0x0201 w u → ∃ t f, exec (.run r) s = .next (serveQueue t) ∧ Waits t r 0x0201 w ∧ t.tck.pend = some f ∧ f.code = 0x1312#16 ∧
        t.tck.mode = .stop)

/-- The reasons for which RUN, STOP, HOLD, STEP and FAULT_ACK are refused, in one order (R22, R28, R32, R80; the order of the first three is the model's, log
14). -/
def Obligations.ModeCommandRefusals : Prop :=
  ∀ (s : State) (r : Req), Awake s →
    let common (accepted : Bool) : Nat := if !accepted then 0x0206 else if transPending s then 0x0204 else if anyBlkBusy s then 0x020B else 0
    let run : Nat := if common (s.tck.mode == .stop || s.tck.mode == .hold) ≠ 0 then common (s.tck.mode == .stop || s.tck.mode == .hold)
      else if s.tck.mode = .stop ∧ s.tck.fault ≠ 0#16 then 0x0207 else if s.tck.mode = .stop ∧ runAllowed s = false then 0x0208 else 0
    (run ≠ 0 → ∀ w u, Starts s r 0x0201 w u → ∃ t, exec (.run r) s = .next (serveQueue t) ∧ Responded t r 0x0201 run s.tck.tick [] ∧ AnswerFrame r u t ∧ SameBut [.host, .tx] u t) ∧
    (common (s.tck.mode == .run || s.tck.mode == .hold || s.tck.mode == .shadow) ≠ 0 → ∀ w u, Starts s r 0x0202 w u → ∃ t, exec (.stop r) s = .next (serveQueue t) ∧
      Responded t r 0x0202 (common (s.tck.mode == .run || s.tck.mode == .hold || s.tck.mode == .shadow)) s.tck.tick [] ∧ SameBut [.host, .tx] u t) ∧
    (common (s.tck.mode == .run) ≠ 0 → ∀ w u, Starts s r 0x0203 w u → ∃ t, exec (.hold r) s = .next (serveQueue t) ∧ Responded t r 0x0203 (common (s.tck.mode == .run)) s.tck.tick [] ∧
      SameBut [.host, .tx] u t) ∧
    (common (s.tck.mode == .hold) ≠ 0 → ∀ w u, Starts s r 0x0204 w u → ∃ t, exec (.step r) s = .next (serveQueue t) ∧ Responded t r 0x0204 (common (s.tck.mode == .hold)) s.tck.tick [] ∧
      SameBut [.host, .tx] u t) ∧
    (common (s.tck.mode == .stop && s.tck.fault != 0#16) ≠ 0 → ∀ w u, Starts s r 0x0205 w u → ∃ t, exec (.faultAck r) s = .next (serveQueue t) ∧
      Responded t r 0x0205 (common (s.tck.mode == .stop && s.tck.fault != 0#16)) s.tck.tick [] ∧ SameBut [.host, .tx] u t)

/-- Every reset of R36 brings BOOT with its cause and the mode it ended, and returns the ports, the image, the banks, the claim and the registers to their reset
values; the bedrock count, the stored banks, the archive and the firmware slots stay, and the fields that slate keeps are those of its records (R7, R36, R380,
R480). The reset of cause 7 comes when the pointer write of FWU_ACTIVATE or of a BOOT without a slot has ended (R530, R536). With the rails gone the part is
DORMANT at once, and the bedrock count goes on (R25, R380). -/
def Obligations.ResetsBringBoot : Prop :=
  (∀ (s : State) (c : Instr) (cause : Nat),
      ((c = .powerOn ∧ s.tck.mode = .dormant ∧ cause = 1) ∨ (Awake s ∧ ((c = .resetNPin ∧ cause = 2) ∨ (c = .undervoltageReset ∧ cause = 5) ∨
        (c = .lockstepMismatch ∧ cause = 6) ∨ (c = .watchdogExpiry ∧ wdtT s ≤ wdtCount s ∧ cause = 4) ∨ (∃ r w u, c = .reset r ∧ Quiet s ∧ Starts s r 0x0206 w u ∧ cause = 3) ∨
        (∃ r w u, c = .join r ∧ Quiet s ∧ Starts s r 0x0207 w u ∧ s.tck.mode = .stop ∧ isPair s = true ∧ cause = 3)))) →
      ∃ t, exec c s = .next t ∧ t.tck.mode = .boot ∧ t.tck.cause = BitVec.ofNat 4 cause ∧ t.tck.prevMode = BitVec.ofNat 3 (modeNo s.tck.mode) ∧
        t.tck.tick = 0#64 ∧ t.tck.fault = 0#16 ∧ t.tck.joining = (match c with | .join _ => true | _ => false) ∧
        (∀ p, portSt t p = { PortState.reset with perst := (portSt s p).perst }) ∧ (∀ k : Fin 64, t.host.sems.get k = none) ∧ t.host.queue = [] ∧
        t.img = Img.reset ∧ t.tasks = TaskSt.reset ∧ t.chg = Chg.reset ∧ t.rods = Rods.reset ∧ t.cry = { Cry.reset with stored := t.cry.stored } ∧
        t.lch = { Lch.reset with mvAt := Vector.replicate 4 s.now } ∧ t.ldr.inForce = none ∧ t.ldr.a.phase = .empty ∧ t.ldr.b.phase = .empty ∧ t.ldr.a.stored = s.ldr.a.stored ∧ t.ldr.b.stored = s.ldr.b.stored ∧
        (∀ b o, b ≠ 0x0A → b ≠ 0x05 → b ≠ 0x08 → fileReg (blkCfg t b).inForce b o = regReset b o) ∧
        (∀ o, fileReg (blkCfg t 0x0A).inForce 0x0A o = fileReg (blkCfg s 0x0A).inForce 0x0A o) ∧
        (s.slt.run = none → s.slt.claimRun = none → (blkCfg t 0x05).inForce = keptLoader s ∧ (blkCfg t 0x08).inForce = keptPair s ∧ t.cry.stored = claimStored s ∧
          t.slt.mem = s.slt.mem) ∧
        t.brk.sec = s.brk.sec ∧ t.brk.sub = s.brk.sub ∧ t.brk.trim = s.brk.trim ∧ (cause ≠ 4 → t.brk.evidence = s.brk.evidence) ∧ t.recd.archive = s.recd.archive ∧
        t.fwu.slot0 = s.fwu.slot0 ∧ t.fwu.slot1 = s.fwu.slot1 ∧ t.fwu.card = none ∧ t.recd.bootBuf = expertEnd s .a ++ expertEnd s .b ∧ t.recd.started = false ∧
        (∀ p, (portSt s p).irqStatus.getLsbD 2 = false → (portSt s p).perst = false → (portSt s p).irqEnable.getLsbD 2 = true → Tx.msix p 2 ∈ t.tx) ∧ t.now = s.now ∧ t.pending = s.pending) ∧
  (∀ (s : State) (x : SltRun), s.pending = [] → Awake s → s.slt.claimRun = none → s.slt.run = some x → endsInReset s = true → x.finish ≤ s.now + 1 →
      ∃ t, step s = .next t ∧ t.tck.mode = .boot ∧ t.tck.cause = 7#4 ∧ t.tck.prevMode = BitVec.ofNat 3 (modeNo s.tck.mode) ∧ t.slt.run = none ∧
        t.slt.queue = [] ∧ t.host.queue = [] ∧ t.img = Img.reset ∧ t.ldr.inForce = none) ∧
  (∀ (s : State), Awake s → ∃ t, exec .railLoss s = .next t ∧ t.tck.mode = .dormant ∧ t.pwr = Pwr.reset ∧ (∀ k : Fin 64, t.host.sems.get k = none) ∧ t.img = Img.reset ∧
      t.brk.sec = s.brk.sec ∧ t.brk.sub = s.brk.sub ∧ t.ldr.a.stored = s.ldr.a.stored ∧ t.ldr.b.stored = s.ldr.b.stored)

/-- The throttle engages at the level its thresholds give and recovers to the full clock, with its two records (R38). A rail out of its window and a junction at
115 °C stop the part: the fault is recorded and waits for the edge; from 105 °C on the sample is recorded once (R27, R543, R547). -/
def Obligations.PowerAndTemperatureEvents : Prop :=
  (∀ (s : State) (mv : BitVec 12), Awake s →
      (∀ level : BitVec 2, level = (if mv.toNat ≤ 700 then 2#2 else if mv.toNat ≤ 720 then 1#2 else 0#2) → s.tck.throttle.toNat < level.toNat →
        ∃ t, exec (.throttleEngage mv) s = .next t ∧ t.tck.throttle = level ∧ t.tck.mode = s.tck.mode ∧ t.tck.fault = s.tck.fault ∧
          t.pwr.vcoreMin = (if mv.toNat < s.pwr.vcoreMin.toNat then mv else s.pwr.vcoreMin) ∧ t.pwr.l1Seen = true ∧
          t.pwr.l2Seen = (s.pwr.l2Seen || level == 2#2) ∧ Reports s t 0x0221 [level.toNat] ∧ SameBut [.tck, .pwr, .recd, .host, .tx] s t) ∧
      (s.tck.throttle ≠ 0#2 → ∃ t, exec .throttleRecover s = .next t ∧ t.tck = { s.tck with throttle := 0#2 } ∧ Reports s t 0x0222 [] ∧
        SameBut [.tck, .recd, .host, .tx] s t)) ∧
  (∀ (s : State), ticking s = true → s.tck.pend = none →
      (∀ rail : Fin 5, ∃ t f, exec (.railWindowFault rail) s = .next t ∧ t.tck.pend = some f ∧ f.code = 0x1312#16 ∧ t.tck.mode = s.tck.mode ∧
        (CanRecord s 0x1312 → LastReport t 0x1312 true [rail.val]) ∧ t.pwr = { s.pwr with railHeld := some rail.val } ∧
        SameBut [.pwr, .tck, .cry, .recd, .host, .tx, .lch] s t) ∧
      (∀ v : BitVec 8, v.toInt < 105 → ∃ t, exec (.tempSample v) s = .next t ∧ t.pwr.temp = v ∧
        t.pwr.tempMax = (if s.pwr.tempMax.toInt < v.toInt then v else s.pwr.tempMax) ∧ SameBut [.pwr] s t) ∧
      (∀ v : BitVec 8, 105 ≤ v.toInt → v.toInt < 115 → s.pwr.hotHeld = false → ∃ t, exec (.tempSample v) s = .next t ∧ t.pwr.temp = v ∧
        t.pwr.hotHeld = true ∧ Reports s t 0x1310 [v.toNat] ∧ SameBut [.pwr, .recd, .host, .tx] s t) ∧
      (∀ v : BitVec 8, 115 ≤ v.toInt → ∃ t f, exec (.tempSample v) s = .next t ∧ t.pwr.temp = v ∧ t.tck.pend = some f ∧ f.code = 0x1311#16 ∧
        SameBut [.pwr, .tck, .cry, .recd, .host, .tx, .lch] s t))

/-- PFW_ASSERT notes the state and the time of the assertion in every mode; in the slate queue the capture takes the place of energy saves of latches, copies of
the tail go to priority 2, and record 0x0020 and tally counter 4 are queued; a staging is abandoned; PFW_DEASSERT clears the state and records 0x1302 (R41, R42,
R460, R484, R500, R528). Outside RUN, HOLD and SHADOW it asks nothing of the mode. In RUN or HOLD the part faults with 0x1301 where it is the active unit
beside a READY standby, or where PFW_ACTION asks for STOP, and else goes on (R41). A standby is NOT READY while PFW stands (R355). -/
def Obligations.PfwIsNotedAndCleared : Prop :=
  (∀ (s : State), (s.tck.mode = .stop ∨ s.tck.mode = .boot) →
      (s.pwr.pfw = false → ∃ t, exec .pfwAssert s = .next t ∧ t.pwr = { s.pwr with pfw := true, pfwSeen := true, pfwAt := some s.now } ∧
        t.mtr = { s.mtr with captured := false } ∧ t.tck = s.tck ∧ t.slt.mem = s.slt.mem ∧ t.fwu = { s.fwu with staging := none } ∧
        t.slt.queue = (s.slt.queue.filter (fun o => match o.work with | .record n _ => !(decide (0x10 ≤ n) && decide (n ≤ 0x13) && o.pri == 4) | _ => true)).map
            (fun o => if isTailOp o then { o with pri := 2 } else o) ++
          [{ pri := 2, work := .record 0x20 (tailPosition t.recd), who := none, edge := 0#64 }, { pri := 4, work := .tally 4 1, who := none, edge := 0#64 }] ∧
        (CanRecord s 0x1301 → LastReport t 0x1301 false []) ∧
        (∀ g w, s.fwu.staging = some g → g.who = some w → ((portSt s w.port).slots.get w.slot).busy = some w.id →
          ((portSt t w.port).slots.get w.slot).response = some { code := w.code, reason := 0x110A#16, seq := w.seq, tick := s.tck.tick, data := [2#8] }))) ∧
  (∀ (s : State), Awake s → s.pwr.pfw = true → ∃ t, exec .pfwDeassert s = .next t ∧ t.pwr = { s.pwr with pfw := false } ∧ t.tck = s.tck ∧
      (s.tck.mode ≠ .shadow → Reports s t 0x1302 [] ∧ SameBut [.pwr, .recd, .host, .tx] s t)) ∧
  (∀ (s : State), (s.tck.mode = .run ∨ s.tck.mode = .hold) → s.pwr.pfw = false → s.tck.pend = none →
      (((holdsClaim s = true ∧ partnerShadow s = true ∧ s.cry.pReady = 0#8) ∨ cfgBit s 0x02 0x100 13 = true) →
        ∃ t f, exec .pfwAssert s = .next t ∧ t.tck.pend = some f ∧ f.code = 0x1301#16 ∧ t.tck.mode = s.tck.mode ∧
          t.pwr = { s.pwr with pfw := true, pfwSeen := true, pfwAt := some s.now }) ∧
      ((holdsClaim s = false ∨ partnerShadow s = false ∨ s.cry.pReady ≠ 0#8) → cfgBit s 0x02 0x100 13 = false →
        ∃ t, exec .pfwAssert s = .next t ∧ t.tck = s.tck ∧ t.cry = s.cry ∧ t.pwr = { s.pwr with pfw := true, pfwSeen := true, pfwAt := some s.now } ∧
          (CanRecord s 0x1301 → LastReport t 0x1301 false []))) ∧
  (∀ (s : State), s.tck.mode = .shadow → s.pwr.pfw = false →
      ∃ t, exec .pfwAssert s = .next t ∧ t.tck = s.tck ∧ t.pwr = { s.pwr with pfw := true, pfwSeen := true, pfwAt := some s.now } ∧ t.cry.readiness = 3#2 ∧
        t.cry.causes.getLsbD 6 = true ∧ t.cry.claim = s.cry.claim)

/-- TICK_EDGE after BOOT, with no tick that computes under way: the tick number advances by one, offset 0 begins, and the mode is the one that the edge's cause
decides: STOP for a fault, with its reason; else, with no partner stop, takeover or switchover, that of the commanded transition, whose command is answered;
else the mode stays (R18, R20, R25, R27 to R29). A RUN whose bank is no longer admitted for the period at its edge leaves the part in STOP (R22; the model's
choice, log 93). -/
def Obligations.TickEdgeDecidesMode : Prop :=
  ∀ (s : State), ticking s = true → s.tck.computing = false →
    ∃ t, exec .tickEdge s = .next t ∧ t.tck.tick = s.tck.tick + 1#64 ∧ t.tck.ofs = 0 ∧ t.tck.pend = none ∧ t.now = s.now ∧
      (∀ f, s.tck.pend = some f → t.tck.mode = .stop ∧
        t.tck.fault = (if s.tck.mode = .stop ∧ s.tck.fault ≠ 0#16 then s.tck.fault else f.code)) ∧
      (s.tck.pend = none → s.cry.partnerStop = none → s.cry.takeover = none → s.cry.swOrder = none → s.cry.switchover = none →
        (∀ tr, s.tck.trans = some tr → t.tck.trans = none ∧
          (¬(tr.target = .run ∧ s.tck.mode = .stop ∧ runAllowedAt s = false) → t.tck.mode = tr.target ∧ (tr.target ≠ .stop → t.tck.fault = 0#16)) ∧
          (tr.target = .run → s.tck.mode = .stop → runAllowedAt s = false → t.tck.mode = .stop ∧ t.tck.fault = s.tck.fault)) ∧
        (s.tck.trans = none → t.tck.mode = s.tck.mode))

/-- The edge that ends a computing tick of RUN, with no change of program or configuration due: the mode is that of the transition, the cut of the new tick is
frozen (an arrived value of a field-link point and the state of a local channel enter it, a lost station's point gets its substitute), every output that is due
is sent by the rule of the new mode (its launch copy in RUN, its stop value in STOP, the last value sent in RUN in HOLD), and the image of the ended tick is the one
that the host reads until the new one is (R20, R26, R93, R95 to R97, R100, R103, R115, R427). -/
def Obligations.TickEdgeFreezesCutAndLaunches : Prop :=
  ∀ (s : State) (b : Bank), s.tck.mode = .run → s.tck.computing = true → s.tck.phase = .ended → s.tck.deadlineMet = some true → bankInForce s = some b →
    holdsClaim s = true → s.tck.pend = none → s.cry.partnerStop = none → s.cry.takeover = none → s.tck.stepReq = none → s.img.ranOnce = true →
    s.ldr.activate = none → s.chg.stage = .idle → s.cry.controls = [] → s.img.forceOps = [] → (∀ x, (blkCfg s x).pend = none) →
    (s.tck.trans = none ∨ ∃ tr, s.tck.trans = some tr ∧ (tr.target = .stop ∨ tr.target = .hold)) →
    let n := s.tck.tick.toNat + 1
    let new : Mode := match s.tck.trans with | none => .run | some tr => tr.target
    ∃ t, exec .tickEdge s = .next t ∧ t.tck.mode = new ∧ t.tck.computing = (new == .run) ∧ t.ldr.inForce = s.ldr.inForce ∧
      t.img.view = s.img.nextView ∧ (∃ v, t.img.nextView = some v ∧ v.tick = s.tck.tick + 1#64) ∧ t.img.cutTick = BitVec.ofNat 32 n ∧
      (∀ a pt o, smGet (pointTable s) a = some pt → smGet s.img.outs a = some o → dueOut n (sourcePhase s pt) pt.divisor = true → o.since ≤ n →
        ∃ x, smGet t.img.outs a = some x ∧ x.everSent = true ∧ x.work = o.work ∧
          (new = .run → x.sent = applyForce (forceOf s a) pt.word o.launch ∧ x.runVal = o.launch) ∧ (new = .stop → x.sent = stopValue pt o) ∧
          (new = .hold → cfgBit s 0x02 0x100 12 = false → x.sent = applyForce (forceOf s a) pt.word o.runVal)) ∧
      (∀ a pt i ch, smGet (pointTable s) a = some pt → pt.source = .local ch 0 → smGet s.img.ins a = some i → dueIn n 0 pt.divisor false = true →
        groupEnabled s (ch / 8) = true → groupFailed s (ch / 8) = false → s.lch.breaks.getLsbD ch = false →
        ∃ x, smGet t.img.ins a = some x ∧ x.substituted = false ∧
          x.cut = BitVec.ofNat 24 (b2n (s.lch.level.getLsbD ch || (cfgField s 0x0C (0x200 + 4 * ch) 9 1 == 1 && s.lch.caught.getLsbD ch)))) ∧
      (∀ a pt i k d path w bit j, smGet (pointTable s) a = some pt → pt.source = .link k d path w bit → smGet s.img.ins a = some i →
        indexOfPath (linkAt s k).table path = some j →
        ((liveAt s k j).lost = true → ∃ x, smGet t.img.ins a = some x ∧ x.substituted = true ∧ x.cut = substituteIn pt i) ∧
        (∀ v, (liveAt s k j).lost = false → dueIn n (sourcePhase s pt) pt.divisor true = true → i.since + 2 ≤ n → i.recv = some v →
          ∃ x, smGet t.img.ins a = some x ∧ x.substituted = false ∧ x.cut = v))

/-- BOOT_SEQUENCE: a failed self-test keeps the part in BOOT, and the next sequence follows the reset of cause 6 out of BOOT (R34, R36); outside a trial, a part
whose firmware verifies learns the mode in which BOOT ends, and a failed memory or rod ends it in STOP with its reason (R33 to R35). The first edge after BOOT
enters the mode in which BOOT ends, with its fault reason; a fault detected in BOOT ends it in STOP where BOOT itself did not fail (log 96); a part in BOOT that
has not ended, and one in DORMANT, have no edge (R19, R24, R35). -/
def Obligations.BootEndsAtTheFirstEdge : Prop :=
  (∀ (s : State) (i : BootInputs), s.tck.mode = .boot → s.tck.bootEnd = none → s.tck.bootCut = false → s.tck.bootStuck = false → s.fwu.noSlot = false →
      s.brk.inReset = false →
      (i.supervisorOk = false → ∃ t, exec (.bootSequence i) s = .next t ∧ t = { s with tck.bootStuck := true }) ∧
      (i.supervisorOk = true → i.pointerCut = none → ∀ n, (bootSlot (noteSlots (scanRecord (freshSlate s i) 1) i) i).1 = some (n, false) → ∃ t e, exec (.bootSequence i) s = .next t ∧ t.tck.bootEnd = some e ∧
        t.tck.mode = .boot ∧ t.fwu.running = some n ∧ (∀ k, i.memFail = some k → e = (.stop, 0x1304#16, [k.val])) ∧
        (∀ k, i.memFail = none → i.rodFail = some k → e = (.stop, 0x0443#16, [k.val])))) ∧
  (∀ (s : State) (i : BootInputs), s.tck.mode = .boot → s.tck.bootEnd = none → s.tck.bootCut = false → s.tck.bootStuck = true → s.fwu.noSlot = false → s.brk.inReset = false →
      exec (.bootSequence i) s = exec (.bootSequence i) (coldReset s 6 false) ∧ (coldReset s 6 false).tck.cause = 6#4 ∧
      (coldReset s 6 false).tck.prevMode = 1#3) ∧
  ((∀ (s : State) (e : Mode × Code × List Nat), s.tck.mode = .boot → s.tck.bootEnd = some e →
      (s.tck.pend = none → ∃ t, exec .tickEdge s = .next t ∧ t.tck.mode = e.1 ∧ t.tck.fault = e.2.1 ∧ t.tck.bootEnd = none ∧ t.tck.ofs = 0 ∧
        (e.1 ≠ .shadow → t.tck.tick = 0#64)) ∧
      (∀ f, s.tck.pend = some f → ∃ t, exec .tickEdge s = .next t ∧ t.tck.bootEnd = none ∧ t.tck.pend = none ∧
        (e.2.1 = 0#16 → t.tck.mode = .stop ∧ t.tck.fault = f.code) ∧ (e.2.1 ≠ 0#16 → t.tck.mode = e.1 ∧ t.tck.fault = e.2.1))) ∧
    (∀ (s : State), (s.tck.mode = .dormant ∨ (s.tck.mode = .boot ∧ s.tck.bootEnd = none)) → exec .tickEdge s = .next s))

/-- COMPUTE_START in a tick that computes: every rod has its registers cleared and waits for its first segment, or is done with none; no exchange store is on
its way (R16, R128, R142, R248). Stated for a tick in which some rod has a segment to run. DEADLINE: with every rod at its schedule end and no seal owed, every
launch copy becomes its working copy; with a rod still running it is a tick overrun, recorded with the number of rods, and the part will stop (R17, R18, R27). -/
def Obligations.ComputeStartAndDeadline : Prop :=
  (∀ (s : State) (b : Bank) (k : Fin 48), bankInForce s = some b → s.tck.computing = true → s.tck.phase = .edge → (nextSeg s b k.val 0).isSome = true →
      ∃ t, exec .computeStart s = .next t ∧ t.tck = { s.tck with phase := .compute } ∧ t.rods.xst = [] ∧ t.img.stores = [] ∧
        (∀ n : Fin 48, t.rods.rods.get n =
          { Rod.reset with fqOrder := (s.rods.rods.get n).fqOrder, run := if (nextSeg s b n.val 0).isSome then .waiting else .done }) ∧
        t.ldr.inForce = s.ldr.inForce ∧ SameBut [.tck, .rods, .img, .cry, .ldr, .free, .chg, .trk] s t) ∧
  (∀ (s : State), ticking s = true → s.tck.computing = true → s.tck.deadlineMet = none → s.tck.pend = none →
      (s.tck.phase = .ended → s.cry.sealTick = none → s.cry.switchover = none → s.chg.stage = .idle →
        ∃ t, exec .deadline s = .next t ∧ t.tck = { s.tck with deadlineMet := some true } ∧
          t.img = { s.img with outs := s.img.outs.map (fun e => (e.1, { e.2 with launch := e.2.work })) } ∧
          t.chg = { s.chg with dirtyUnits := dirtyUnits s } ∧ SameBut [.tck, .img, .chg] s t) ∧
      (s.tck.phase = .compute → 0 < rodsLeft s →
        ∃ t f, exec .deadline s = .next t ∧ t.tck.deadlineMet = some false ∧ t.tck.pend = some f ∧ f.code = 0x0209#16 ∧
          (CanRecord s 0x0209 → LastReport t 0x0209 true [rodsLeft s, b2n s.tck.sealOfs.isSome, s.tck.throttle.toNat]) ∧ t.img = s.img ∧ t.rods = s.rods))

/-- SEGMENT_START at its START cycle, of a rod with nothing on its way: the rod runs at the entry address, g1, g2 and g3 hold the release count, the first
identifier and the tick number, and the entry bundle issues (R246, R247). BUNDLE_ISSUE, with nothing of the rod on its way: of a bundle of syllables of classes B,
A and M outside the divide class the results of those whose guards hold are on their way to their distances, no register has changed yet, and the rod goes on at
the next address in the next cycle, or at the target of a transfer after its two delay bundles (R163, R165, R174, R179); with every guard false only the address
and the cycle move (R165). One syllable of class L alone: a load of LOCAL, of the instance cache or of a point is on its way, a store reaches LOCAL, its exchange
region, the cache or the working copies' list, a store to the constant region is an access error and stores nothing, FETCH and TSTORE take their queue slot
(R131, R132, R135, R137, R206 to R213). One of class C alone: a branch, a loop, a call and a return set their target, WAITF retires or stalls, END ends the segment
(R138, R179, R214 to R217). -/
def Obligations.SegmentsStartAndBundlesIssue : Prop :=
  (∀ (s : State) (k : Fin 48) (e : IssueEcc) (b : Bank) (i : Nat) (g : SchedSeg) (rel : Release), bankInForce s = some b →
      (s.rods.rods.get k).run = .waiting → (s.rods.rods.get k).flight = [] → (s.rods.rods.get k).cstores = [] → (s.rods.rods.get k).cycle ≤ g.start →
      (∀ x ∈ s.rods.xst, x.dst ≠ k.val) → computeGoes s g.start = true →
      nextSeg s b k.val (s.rods.rods.get k).pos = some i → (smGetD b.scheds k.val [])[i]? = some g →
      s.tasks.released.find? (fun x => x.task = g.task) = some rel →
      ∃ t q, exec (.segmentStart k e) s = .next t ∧ t = issueAt (setRod s k.val q) b k.val e ∧ q.run = .running ∧ q.cycle = g.start ∧ q.pos = i ∧
        q.pc = g.entry ∧ q.task = g.task ∧ q.g.get 1 = BitVec.ofNat 24 (min rel.count 0xFFFFFF) ∧ q.g.get 2 = BitVec.ofNat 24 rel.first ∧
        q.g.get 3 = s.tck.tick.truncate 24 ∧ (∀ n : Fin 64, n.val = 0 ∨ 3 < n.val → q.g.get n = (s.rods.rods.get k).g.get n) ∧
        q.p = (s.rods.rods.get k).p ∧ q.loc = (s.rods.rods.get k).loc ∧ q.stack = (s.rods.rods.get k).stack) ∧
  (∀ (s : State) (k : Fin 48) (b : Bank) (ps : List Prim) (len : Nat), let r := s.rods.rods.get k
      Issues s k b ps len →
      ((∀ p ∈ ps, p.row.cls < 3 ∧ isDivide p = false) →
        ∃ t q, exec (.bundleIssue k noEcc) s = .next t ∧ t.rods.rods.get k = q ∧ q.cycle = r.cycle + 1 ∧ q.run = .running ∧
          inFlight q = ((ps.filter (fun p => guardHolds r p)).flatMap (fun p => (aluResults r p).map (fun x => (x.1, x.2, r.cycle + p.row.dist)))).reverse ∧
          (r.delay = 0 → q.pc = r.pc + len ∧ q.delay = 0) ∧ (r.delay = 2 → q.pc = r.pc + len ∧ q.delay = 1 ∧ q.target = r.target) ∧
          (r.delay = 1 → q.pc = r.target.getD (r.pc + len) ∧ q.delay = 0 ∧ q.target = none) ∧
          q.g = r.g ∧ q.p = r.p ∧ q.lc = r.lc ∧ q.seg = r.seg ∧ q.loc = r.loc ∧ q.fq = r.fq ∧ q.stack = r.stack ∧
          (∀ n : Fin 48, n ≠ k → t.rods.rods.get n = s.rods.rods.get n) ∧ SameBut [.rods] s t) ∧
      (r.delay = 0 → (∀ p ∈ ps, p.row.cls < 4 ∧ guardHolds r p = false) →
        ∃ t, exec (.bundleIssue k noEcc) s = .next t ∧
          t.rods.rods.get k = { r with cycle := r.cycle + 1, pc := r.pc + len, noC := r.noC - 1 } ∧
          (∀ n : Fin 48, n ≠ k → t.rods.rods.get n = s.rods.rods.get n) ∧ SameBut [.rods] s t)) ∧
  (∀ (s : State) (k : Fin 48) (b : Bank) (p : Prim) (len : Nat), let r := s.rods.rods.get k
      Issues s k b [p] len → r.delay = 0 → p.row.cls = 3 → guardHolds r p = true →
      let c := r.cycle
      let d := sDest p.w
      let lofs := (rdG r (sSrc1 p.w) + disp9 p) % 2 ^ 24
      let ref := (rdG r (sSrc1 p.w) + disp7 p) % 2 ^ 24
      let v := BitVec.ofNat 24 (rdG r (sSrc2 p.w))
      let seg := rdSeg r (segNo p)
      let base := (rdG r (sSrc1 p.w) + field (sImm p.w) 0 9) % 2 ^ 24
      let dst := (rdG r (sSrc2 p.w) + fqLocDisp p) % 2 ^ 24
      ∃ t q, exec (.bundleIssue k noEcc) s = .next t ∧ t.rods.rods.get k = q ∧ q.cycle = c + 1 ∧ q.pc = r.pc + len ∧ q.run = .running ∧ q.g = r.g ∧ q.p = r.p ∧
        q.lc = r.lc ∧ q.seg = r.seg ∧ q.stack = r.stack ∧ (∀ n : Fin 48, n ≠ k → t.rods.rods.get n = s.rods.rods.get n) ∧
        (p.row.op = 0x01 → lofs < 524288 → inFlight q = [(.g d, (locWord b k.val r lofs).toNat, c + 3)] ∧ q.loc = r.loc ∧ SameBut [.rods] s t) ∧
        (p.row.op = 0x02 → (constOf b k.val).1 ≤ lofs → lofs < 0x7C000 → q.loc = smPut r.loc lofs v ∧ q.flight = [] ∧ SameBut [.rods] s t) ∧
        (p.row.op = 0x02 → lofs < (constOf b k.val).1 → q.loc = r.loc ∧ q.flight = [] ∧ t.rods.errCount = satAdd s.rods.errCount 1 ∧ t.rods.lastKind = 2#3 ∧
          t.rods.lastRod = BitVec.ofNat 6 k.val ∧ t.rods.lastOfs = BitVec.ofNat 24 lofs) ∧
        (∀ x, p.row.op = 0x03 → ldcErr b k.val seg lofs = none → s.ldr.inForce = some x →
          inFlight q = [(.g d, (instWord s x (wordKey seg lofs)).toNat, c + 8)] ∧ q.loc = r.loc ∧ SameBut [.rods] s t) ∧
        (p.row.op = 0x04 → stcErr b k.val seg lofs = none → q.cstores = [(c + 8, wordKey seg lofs, v)] ∧ q.loc = r.loc ∧ q.flight = [] ∧
          SameBut [.rods, .cry, .chg] s t) ∧
        (p.row.op = 0x05 → xstErr b seg lofs = none → q.loc = r.loc ∧ q.flight = [] ∧ SameBut [.rods] s t ∧
          t.rods.xst = s.rods.xst ++ [{ due := c + 32 + (p.slot - 5), src := k.val, dst := seg - 0x100, ofs := lofs, value := v }]) ∧
        (∀ pt, p.row.op = 0x08 → imageErr s ref false = none → smGet (pointTable s) (ref % 2 ^ 23) = some pt → SameBut [.rods] s t ∧
          inFlight q = [(.p (field (sImm p.w) 7 5), b2n (pointRead s c (ref % 2 ^ 23) pt).2, c + 8),
            (.g d, if pt.word then (pointRead s c (ref % 2 ^ 23) pt).1.toNat else (pointRead s c (ref % 2 ^ 23) pt).1.toNat % 2, c + 8)]) ∧
        (∀ pt, p.row.op = 0x0A → imageErr s ref true = none → smGet (pointTable s) (ref % 2 ^ 23) = some pt → q.loc = r.loc ∧ q.flight = [] ∧
          SameBut [.rods, .img, .cry] s t ∧ t.img = { s.img with stores :=
            { cycle := c, rod := k.val, lslot := p.slot - 5, point := ref % 2 ^ 23, value := if pt.word then v else v &&& 1#24 } :: s.img.stores }) ∧
        ((p.row.op = 0x10 ∨ p.row.op = 0x11) → d < 16 → fqAt r d = none → fqErr b (p.row.op == 0x11) k.val seg base (fqLen p) = none →
          fqLocErr (constOf b k.val).1 dst (fqLen p) = none →
          ∃ o, fqAt q d = some o ∧ o.store = (p.row.op == 0x11) ∧ o.seg = seg ∧ o.base = base ∧ o.loc = dst ∧ o.len = fqLen p ∧ o.failed = false ∧
            o.order = r.fqOrder ∧ (∀ j, j ≠ d → fqAt q j = fqAt r j) ∧ q.loc = r.loc ∧ SameBut [.rods, .cry, .chg] s t)) ∧
  (∀ (s : State) (k : Fin 48) (b : Bank) (p : Prim) (len : Nat), let r := s.rods.rods.get k
      Issues s k b [p] len → r.delay = 0 → p.row.cls = 4 → guardHolds r p = true →
      let c := r.cycle
      let dest := (((r.pc : Int) + branchDisp p) % (2 ^ 24 : Nat)).toNat
      let v := rdG r (sSrc1 p.w)
      (p.row.op = 0x01 → ∃ t q, exec (.bundleIssue k noEcc) s = .next t ∧ t.rods.rods.get k = q ∧ q.cycle = c + 1 ∧ q.pc = r.pc + len ∧ q.delay = 2 ∧
        q.target = some dest ∧ q.flight = [] ∧ q.g = r.g ∧ q.stack = r.stack ∧ SameBut [.rods] s t) ∧
      (p.row.op = 0x02 → let n := (rdLc r (sDest p.w) + 0xFFFFFF) % 2 ^ 24
        ∃ t q, exec (.bundleIssue k noEcc) s = .next t ∧ t.rods.rods.get k = q ∧ q.cycle = c + 1 ∧ q.pc = r.pc + len ∧ q.delay = 2 ∧
          q.target = (if n ≠ 0 then some dest else none) ∧ inFlight q = [(.lc (sDest p.w), n, c + 1)] ∧ q.lc = r.lc ∧ SameBut [.rods] s t) ∧
      (p.row.op = 0x03 → r.stack.length < 16 →
        ∃ t q, exec (.bundleIssue k noEcc) s = .next t ∧ t.rods.rods.get k = q ∧ q.cycle = c + 1 ∧ q.pc = r.pc + len ∧ q.delay = 2 ∧ q.target = some dest ∧
          q.stack = (skipBundles (smGetD b.code k.val []) 2 (r.pc + len), BitVec.ofNat 24 (rdSeg r 7)) :: r.stack ∧ inFlight q = [(.seg 7, v, c + 3)] ∧
          SameBut [.rods] s t) ∧
      (∀ f rest, p.row.op = 0x04 → r.stack = f :: rest →
        ∃ t q, exec (.bundleIssue k noEcc) s = .next t ∧ t.rods.rods.get k = q ∧ q.cycle = c + 1 ∧ q.pc = r.pc + len ∧ q.delay = 2 ∧ q.target = some f.1 ∧
          q.stack = rest ∧ inFlight q = [(.seg 7, f.2.toNat, c + 3)] ∧ SameBut [.rods] s t) ∧
      (∀ o, p.row.op = 0x10 → fqAt r (field (sImm p.w) 0 4) = some o →
        ∃ t q, exec (.bundleIssue k noEcc) s = .next t ∧ t.rods.rods.get k = q ∧ q.pc = r.pc + len ∧ q.g = r.g ∧ SameBut [.rods] s t ∧
          (opComplete o = true → q.run = .running ∧ q.cycle = c + 1 ∧ fqAt q (field (sImm p.w) 0 4) = none) ∧
          (opComplete o = false → q.run = .stalled (field (sImm p.w) 0 4) s.now ∧ q.cycle = c ∧ q.fq = r.fq)) ∧
      (p.row.op = 0x1F →
        (∀ i, nextSeg s b k.val (r.pos + 1) = some i →
          ∃ t q, exec (.bundleIssue k noEcc) s = .next t ∧ t.rods.rods.get k = q ∧ q.run = .waiting ∧ q.pos = r.pos + 1 ∧ q.cycle = c + 1 ∧ SameBut [.rods] s t) ∧
        (nextSeg s b k.val (r.pos + 1) = none → r.signals ≤ 8 →
          ∃ t, exec (.bundleIssue k noEcc) s = .next t ∧ (t.rods.rods.get k).run = .done)))

/-- g0 reads 0, p0 reads true and s0 reads the LOCAL segment whatever stands in a rod, and a write to them is discarded: no result that lands changes what
stands there, and one that lands there alone changes nothing else either (R124). -/
def Obligations.HardwiredRegistersReadConstant : Prop :=
  (∀ r : Rod, rdG r 0 = 0 ∧ rdP r 0 = true ∧ rdSeg r 0 = 0) ∧
  (∀ (s : State) (k : Fin 48), ∃ t, exec (.resultLand k) s = .next t ∧ (t.rods.rods.get k).g.get 0 = (s.rods.rods.get k).g.get 0 ∧
    (t.rods.rods.get k).p.getLsbD 0 = (s.rods.rods.get k).p.getLsbD 0 ∧ (t.rods.rods.get k).seg.get 0 = (s.rods.rods.get k).seg.get 0 ∧ SameBut [.rods] s t) ∧
  (∀ (s : State) (k : Fin 48) (f : Flight), (s.rods.rods.get k).flight = [f] → (f.dest = .g 0 ∨ f.dest = .p 0 ∨ f.dest = .seg 0) →
    f.due ≤ (s.rods.rods.get k).cycle → (s.rods.rods.get k).divAt = none →
    ∃ t, exec (.resultLand k) s = .next t ∧ t.rods.rods.get k = { s.rods.rods.get k with flight := [] } ∧
      (∀ n, n ≠ k → t.rods.rods.get n = s.rods.rods.get n) ∧ SameBut [.rods] s t)

/-- A result on its way reaches its register when its distance has passed, and not before; g0 discards it (R124, R174). An exchange store that is due reaches
its word of the target rod's exchange region and is on its way no more (R135). A stalled WAITF whose operation is complete frees its queue slot, and the rod
goes on after the stall; the longest stall is kept (R138, R139). -/
def Obligations.ResultsAndStoresLand : Prop :=
  (∀ (s : State) (k : Fin 48) (f : Flight) (n : Fin 64), let r := s.rods.rods.get k
      r.flight = [f] → f.dest = .g n.val →
      (f.due ≤ r.cycle → ∃ t, exec (.resultLand k) s = .next t ∧ (t.rods.rods.get k).flight = [] ∧
        (t.rods.rods.get k).g.get n = (if n.val = 0 then r.g.get n else BitVec.ofNat 24 f.value) ∧
        (∀ m, m ≠ n → (t.rods.rods.get k).g.get m = r.g.get m) ∧ (t.rods.rods.get k).p = r.p ∧ (t.rods.rods.get k).pc = r.pc ∧
        (∀ j, j ≠ k → t.rods.rods.get j = s.rods.rods.get j) ∧ SameBut [.rods] s t) ∧
      (r.cycle < f.due → ∃ t, exec (.resultLand k) s = .next t ∧ (t.rods.rods.get k).flight = [f] ∧ (t.rods.rods.get k).g = r.g ∧
        (t.rods.rods.get k).p = r.p ∧ SameBut [.rods] s t)) ∧
  (∀ (s : State) (k : Fin 48) (x : XStore), s.rods.xst = [x] → x.dst = k.val → (s.rods.rods.get k).run = .running →
      x.due ≤ (s.rods.rods.get k).cycle → smGetD (s.rods.rods.get k).landed (0x7C000 + x.ofs) (x.due + 1, 0, false) = (x.due + 1, 0, false) →
      ∃ t, exec (.xstLand k) s = .next t ∧ t.rods.xst = [] ∧ smGetD (t.rods.rods.get k).loc (0x7C000 + x.ofs) 0#24 = x.value ∧
        (∀ a, a ≠ 0x7C000 + x.ofs → smGetD (t.rods.rods.get k).loc a 0#24 = smGetD (s.rods.rods.get k).loc a 0#24) ∧
        (t.rods.rods.get k).g = (s.rods.rods.get k).g ∧ (∀ j, j ≠ k → t.rods.rods.get j = s.rods.rods.get j) ∧ SameBut [.rods] s t) ∧
  (∀ (s : State) (k : Fin 48) (slot since cycles ns : Nat) (o : FqOp), slot < 16 → (s.rods.rods.get k).run = .stalled slot since →
      (s.rods.rods.get k).fq.toArray.getD slot none = some o → opComplete o = true → computeGoes s ((s.rods.rods.get k).cycle + cycles) = true →
      ∃ t, exec (.waitfRetire k cycles ns) s = .next t ∧ (t.rods.rods.get k).run = .running ∧
        (t.rods.rods.get k).cycle = (s.rods.rods.get k).cycle + cycles + 1 ∧ (t.rods.rods.get k).fq.toArray.getD slot none = none ∧
        (t.rods.rods.get k).g = (s.rods.rods.get k).g ∧
        (o.failed = false → o.store = false → ∀ i, i < o.data.length → smGet (t.rods.rods.get k).loc (o.loc + i) = o.data[i]?) ∧
        t.rods.waitfNs = (if s.rods.waitfNs.toNat < ns then BitVec.ofNat 24 (min ns 0xFFFFFF) else s.rods.waitfNs) ∧
        (∀ j, j ≠ k → t.rods.rods.get j = s.rods.rods.get j) ∧ SameBut [.rods] s t)

/-- Integer addition, subtraction, saturation, and division with its edge cases give the results of the spec's tables (R194, R197, R198). Signed division and
remainder of 24-bit words give back the dividend, and the remainder is smaller than the divisor (R197). -/
def Obligations.IntegerArithmeticResults : Prop :=
  (∀ (r : Rod) (p : Prim), let a := rdG r (sSrc1 p.w); let b := rdG r (sSrc2 p.w); let d := sDest p.w
      (p.row.cls = 1 → p.row.op = 0x01 → aluResults r p = [(.g d, (a + b) % 2 ^ 24)]) ∧
      (p.row.cls = 1 → p.row.op = 0x02 → ∃ v, aluResults r p = [(.g d, v)] ∧ v < 2 ^ 24 ∧ (v + b) % 2 ^ 24 = a % 2 ^ 24) ∧
      (p.row.cls = 1 → p.row.op = 0x05 → ∃ v, aluResults r p = [(.g d, v)] ∧ v < 2 ^ 24 ∧
        ofTwos 24 v = max (-8388608) (min 8388607 (ofTwos 24 a + ofTwos 24 b))) ∧
      (p.row.cls = 2 → p.row.op = 0x01 → aluResults r p = [(.g d, a * b % 2 ^ 24)]) ∧
      (p.row.cls = 2 → p.row.op = 0x08 → b = 0 → aluResults r p = [(.g d, 0xFFFFFF)]) ∧
      (p.row.cls = 2 → p.row.op = 0x0A → b = 0 → aluResults r p = [(.g d, a % 2 ^ 24)]) ∧
      (p.row.cls = 2 → p.row.op = 0x08 → a = 0x800000 → b = 0xFFFFFF → aluResults r p = [(.g d, 0x800000)]) ∧
      (p.row.cls = 2 → p.row.op = 0x0A → a = 0x800000 → b = 0xFFFFFF → aluResults r p = [(.g d, 0)])) ∧
  (∀ (a b : Nat), a < 2 ^ 24 → b < 2 ^ 24 → b ≠ 0 →
      (divide24 0x08 a b * b + divide24 0x0A a b) % 2 ^ 24 = a ∧
      (ofTwos 24 (divide24 0x0A a b)).natAbs < (ofTwos 24 b).natAbs ∧
      (0 ≤ ofTwos 24 a → 0 ≤ ofTwos 24 (divide24 0x0A a b)) ∧ (ofTwos 24 a ≤ 0 → ofTwos 24 (divide24 0x0A a b) ≤ 0))

/-- The trunk grants to a request that none outranks and that its quota has not masked (R149 to R151). Its commands: a grant of the free stage counts in the
window, the end of a grant phase brings the burst into service, where a fetch of a rod reads its words, a burst that is done leaves service and its corrected
codewords are counted and recorded, a window's end restarts every count, and of the bursts held or preempted the one that was granted first is named when it has
been held for 50 µs (R139, R145, R146, R149, R150, R153). -/
def Obligations.TrunkGrantsAndMovesBursts : Prop :=
  (∀ (s : State) (others : List Nat) (w : Nat), arbitrate s others = some w →
    w ∈ requests s others ∧ masked s w = false ∧ ∀ v ∈ requests s others, trunkRank s v ≤ trunkRank s w) ∧
  (∀ (s : State) (others : List Nat) (w : Nat), s.trk.grant = none → arbitrate s others = some w →
    ∃ t g, exec (.trunkGrant others) s = .next t ∧ t.trk.grant = some g ∧ g.who = w ∧ smGetD t.trk.counts w 0 = smGetD s.trk.counts w 0 + 1 ∧
      (w < 48 ∨ t.rods = s.rods) ∧ SameBut [.trk, .rods] s t ∧
      (∀ (k : Fin 48) (op j : Nat), w = k.val → rodBurst (s.rods.rods.get k) = some (op, j) → g.op = op ∧ g.burst = j ∧
        (∀ n, n ≠ k → t.rods.rods.get n = s.rods.rods.get n) ∧
        ∃ o x, findOp (s.rods.rods.get k) op = some o ∧ findOp (t.rods.rods.get k) op = some x ∧ x = { o with bursts := o.bursts.set j .granted })) ∧
  (∀ (s : State) (g : Grant) (k : Fin 48) (o : FqOp) (b : BankId), s.trk.grant = some g → g.who = k.val → findOp (s.rods.rods.get k) g.op = some o → o.bank = some b →
    ∃ t x, exec .grantPhaseEnd s = .next t ∧ t.trk.grant = none ∧ t.trk.service = s.trk.service ++ [(g.who, g.op, g.burst)] ∧
      findOp (t.rods.rods.get k) g.op = some x ∧ x.bursts = o.bursts.set g.burst .service ∧ x.loc = o.loc ∧ x.len = o.len ∧ (o.store = true → x.data = o.data) ∧
      (o.store = false → (∀ i, i < min 64 (o.len - 64 * g.burst) → x.data[64 * g.burst + i]? = some (instWord s b (wordKey o.seg (o.base + 64 * g.burst + i)))) ∧
        t.ldr = s.ldr) ∧ (∀ n, n ≠ k → t.rods.rods.get n = s.rods.rods.get n) ∧ SameBut [.trk, .rods, .ldr] s t) ∧
  (∀ (s : State) (x : Nat × Nat × Nat) (k : Fin 48) (o : FqOp), s.trk.service.find? (fun y => y.1 = k.val) = some x → findOp (s.rods.rods.get k) x.2.1 = some o →
    ∃ t, exec (.trunkBurstDone k.val []) s = .next t ∧ t.trk = { s.trk with service := s.trk.service.erase x } ∧
      findOp (t.rods.rods.get k) x.2.1 = some { o with bursts := o.bursts.set x.2.2 .done } ∧ (∀ n, n ≠ k → t.rods.rods.get n = s.rods.rods.get n) ∧
      SameBut [.trk, .rods] s t) ∧
  (∀ (s : State) (g : Grant), s.trk.grant = some g → 48 ≤ g.who →
    ∃ t, exec .grantPhaseEnd s = .next t ∧ t.trk.grant = none ∧ t.trk.service = s.trk.service ++ [(g.who, 0, 0)] ∧ SameBut [.trk] s t) ∧
  (∀ (s : State) (x : Nat × Nat × Nat), s.trk.service.find? (fun y => y.1 = x.1) = some x → 48 ≤ x.1 →
    ∃ t, exec (.trunkBurstDone x.1 []) s = .next t ∧ t.trk = { s.trk with service := s.trk.service.erase x } ∧ SameBut [.trk] s t) ∧
  (∀ (s : State) (x : Nat × Nat × Nat) (a : BitVec 48), Awake s → s.trk.service.find? (fun y => y.1 = x.1) = some x → 48 ≤ x.1 →
    ∃ t, exec (.trunkBurstDone x.1 [.corrected a]) s = .next t ∧
      t.trk = { s.trk with service := s.trk.service.erase x, eccCorrected := satAdd s.trk.eccCorrected 1 } ∧ Reports s t 0x1221 [stackOf a] ∧
      t.cry = { s.cry with corrections := if s.tck.mode = .shadow then satAdd s.cry.corrections 1 else s.cry.corrections } ∧
      SameBut [.trk, .cry, .recd, .host, .tx] s t) ∧
  (∀ (s : State), ∃ t, exec .quotaWindow s = .next t ∧ t.trk.counts = [] ∧ t.trk.linkMaskedNow = false ∧ t.trk.carryMaskedNow = false ∧
      t.trk.linkMasked = (if s.trk.linkMaskedNow then satAdd s.trk.linkMasked 1 else s.trk.linkMasked) ∧
      t.trk.carryMasked = (if s.trk.carryMaskedNow then satAdd s.trk.carryMasked 1 else s.trk.carryMasked) ∧ t.trk.grant = s.trk.grant ∧ SameBut [.trk] s t) ∧
  (∀ (s : State) (g : Grant), Awake s → longestHeld s = some g →
    (s.trk.grant = some g ∨ ∃ k, (k, g) ∈ s.trk.preempted) ∧ g.named = false ∧ (∀ x, s.trk.grant = some x → x.named = false → g.first ≤ x.first) ∧
    (∀ k x, (k, x) ∈ s.trk.preempted → x.named = false → g.first ≤ x.first) ∧
    ∃ t, exec .grantHeldLong s = .next t ∧ t.trk.heldLong = true ∧ t.trk.heldWho = BitVec.ofNat 7 g.who ∧
      (s.trk.grant = some g → t.trk.grant = some { g with named := true }) ∧
      Reports s t 0x1210 [g.who] ∧ SameBut [.trk, .recd, .host, .tx] s t)

/-- Commands of block 0x05 on a bank that is free for them: LOAD_BEGIN opens it empty for its length, LOAD_END with every byte written hands the image to the
verifier, VERIFY hands it again, ERASE empties the bank; RESTORE brings the stored copy into the bank and hands it to the verifier; SAVE begins a stored-copy
write, during which the stored copy is invalid; ACTIVATE in STOP waits for its edge; BANK_INFO answers (R234 to R238). -/
def Obligations.BankCommandsAct : Prop :=
  (∀ (s : State) (r : Req) (b : BankId), Serving s → bankOfNo (leAt r.payload 0 1) = b → bankTaken s false b = false → activatePending s b = false →
    (r.payload.length = 8 → leAt r.payload 0 1 ≤ 1 → leAt r.payload 1 3 = 0 → 48 ≤ leAt r.payload 4 4 → leAt r.payload 4 4 ≤ 268435456 →
      ∀ w u, Starts s r 0x0501 w u → ∃ t, exec (.loadBegin r) s = .next (serveQueue t) ∧ Responded t r 0x0501 0 s.tck.tick [] ∧ (bankSt t b).phase = .loading ∧
        (bankSt t b).length = leAt r.payload 4 4 ∧ (bankSt t b).chunks = [] ∧ (bankSt t b).stored = (bankSt s b).stored ∧
        (∀ x, x ≠ b → bankSt t x = bankSt s x) ∧ AnswerFrame r u t ∧ SameBut [.host, .tx, .ldr, .img, .cry] u t) ∧
    (bankPayWrong r.payload = false → (bankSt s b).phase = .loading → (assemble (bankSt s b)).any (fun x => x.isNone) = false →
      ∀ w u, Starts s r 0x0503 w u → ∃ t, exec (.loadEnd r) s = .next (serveQueue t) ∧ Waits t r 0x0503 w ∧ (bankSt t b).phase = .loaded ∧
        (bankSt t b).image = (assemble (bankSt s b)).filterMap id ∧ t.ldr.verify = s.ldr.verify ++ [{ bank := b, who := some w }] ∧
        (∀ x, x ≠ b → bankSt t x = bankSt s x) ∧ SameBut [.host, .tx, .ldr, .cry] u t) ∧
    (bankPayWrong r.payload = false → ((bankSt s b).phase = .loaded ∨ (bankSt s b).phase = .admitted) →
      ∀ w u, Starts s r 0x0504 w u → ∃ t, exec (.verify r) s = .next (serveQueue t) ∧ Waits t r 0x0504 w ∧ t.ldr = { s.ldr with verify := s.ldr.verify ++ [{ bank := b, who := some w }] } ∧
        SameBut [.host, .tx, .ldr, .cry] u t) ∧
    (bankPayWrong r.payload = false → s.ldr.inForce ≠ some b →
      ∀ w u, Starts s r 0x0508 w u → ∃ t, exec (.erase r) s = .next (serveQueue t) ∧ Responded t r 0x0508 0 s.tck.tick [] ∧ (bankSt t b).phase = .empty ∧ (bankSt t b).image = [] ∧
        (bankSt t b).stored = (bankSt s b).stored ∧ t.ldr.inForce = s.ldr.inForce ∧ (∀ x, x ≠ b → bankSt t x = bankSt s x) ∧
        AnswerFrame r u t ∧ SameBut [.host, .tx, .ldr, .cry] u t)) ∧
  (∀ (s : State) (r : Req) (b : BankId), bankOfNo (leAt r.payload 0 1) = b → bankPayWrong r.payload = false →
    (Serving s → bankTaken s false b = false → activatePending s b = false → ∀ img, (bankSt s b).stored = some img → storedValid img = true →
      ∀ w u, Starts s r 0x0507 w u → ∃ t, exec (.restore r) s = .next (serveQueue t) ∧ Waits t r 0x0507 w ∧ (bankSt t b).phase = .loaded ∧ (bankSt t b).image = img ∧
        (bankSt t b).stored = some img ∧ t.ldr.verify = s.ldr.verify ++ [{ bank := b, who := some w }] ∧ (∀ x, x ≠ b → bankSt t x = bankSt s x)) ∧
    (Serving s → chgUses s b = false → ((bankSt s b).phase = .loaded ∨ (bankSt s b).phase = .admitted) →
      ∀ w u, Starts s r 0x0506 w u → ∃ t, exec (.save r) s = .next (serveQueue t) ∧ Waits t r 0x0506 w ∧ (bankSt t b).stored = none ∧
        t.ldr.saves = s.ldr.saves ++ [{ bank := b, who := some w, image := (bankSt s b).image }] ∧ (bankSt t b).phase = (bankSt s b).phase ∧
        (∀ x, x ≠ b → bankSt t x = bankSt s x) ∧ SameBut [.host, .tx, .ldr, .cry] u t) ∧
    (s.tck.mode = .stop → s.chg.stage = .idle → s.ldr.activate = none → (bankSt s b).phase = .admitted → s.ldr.inForce ≠ some b →
      ∀ w u, Starts s r 0x0505 w u → ∃ t, exec (.activate r) s = .next (serveQueue t) ∧ Waits t r 0x0505 w ∧ t.ldr = { s.ldr with activate := some { bank := b, who := w, accepted := s.now } } ∧
        SameBut [.host, .tx, .ldr, .cry] u t) ∧
    (Serving s → ∀ w u, Starts s r 0x0509 w u → ∃ t d, exec (.bankInfo r) s = .next (serveQueue t) ∧ Responded t r 0x0509 0 s.tck.tick d ∧ d.length = 14 ∧
      leAt d 8 1 = (if s.ldr.inForce = some b then 4 else match (bankSt s b).phase with | .empty => 0 | .loading => 1 | .loaded => 2 | .admitted => 3) ∧
      AnswerFrame r u t ∧ SameBut [.host, .tx] u t))

/-- The verifier admits a bank that passes every check for the tick period in force; a bank it rejects stays LOADED, is in force no more, and the command fails
with the reason found (R87, R236, R239); one for which an ACTIVATE waits stays as it was admitted (the model's choice, log 99). A stored-copy write that a command
began ends: the copy is valid once no other write of the bank is under way, recorded and answered, or it fails with 0x052C and the copy is invalid (R236). -/
def Obligations.VerifierAndSaveEnd : Prop :=
  (∀ (s : State) (b : BankId) (w : Who), s.ldr.verify.find? (fun v => v.bank == b) = some { bank := b, who := some w } →
      ((portSt s w.port).slots.get w.slot).busy = some w.id → ((bankSt s b).phase = .loaded ∨ (bankSt s b).phase = .admitted) →
      (s.tck.mode = .shadow → ∀ v ∈ s.ldr.verify, v.bank = b → v.who ≠ some noWho) →
      (verifyImage { s with ldr.verify := s.ldr.verify.erase { bank := b, who := some w } } (bankSt s b).image = none →
        ∃ t, exec (.verifierEnd b) s = .next t ∧ (bankSt t b).phase = .admitted ∧ (bankSt t b).period = tickPeriod s ∧
          (bankSt t b).prog = some (parseBank (bankSt s b).image) ∧ t.ldr.verify = s.ldr.verify.erase { bank := b, who := some w } ∧
          ((portSt t w.port).slots.get w.slot).busy = none ∧ (∀ x, x ≠ b → bankSt t x = bankSt s x) ∧ t.ldr.inForce = s.ldr.inForce) ∧
      (∀ x, verifyImage { s with ldr.verify := s.ldr.verify.erase { bank := b, who := some w } } (bankSt s b).image = some x →
        ∃ t, exec (.verifierEnd b) s = .next t ∧ t.ldr.failRod = BitVec.ofNat 6 x.rod ∧ t.ldr.failAddr = BitVec.ofNat 15 x.addr ∧
          t.ldr.failIndex = BitVec.ofNat 4 x.idx ∧ t.ldr.verify = s.ldr.verify.erase { bank := b, who := some w } ∧ (∀ x, x ≠ b → bankSt t x = bankSt s x) ∧
          (activatePending s b = false → (bankSt t b).phase = .loaded ∧ (bankSt t b).prog = none ∧ (bankSt t b).image = (bankSt s b).image ∧
            t.ldr.inForce = (if s.ldr.inForce = some b then none else s.ldr.inForce)) ∧
          (activatePending s b = true → bankSt t b = bankSt s b ∧ t.ldr.inForce = s.ldr.inForce) ∧
          ((portSt t w.port).slots.get w.slot).response = some { code := w.code, reason := BitVec.ofNat 16 x.code, seq := w.seq, tick := s.tck.tick, data := [] } ∧
          SameBut [.host, .tx, .ldr, .img] s t ∧ (s.ldr.inForce ≠ some b → t.img = s.img))) ∧
  (∀ (s : State) (v : Save) (rest : List Save) (w : Who), Awake s → s.ldr.saves = v :: rest → v.who = some w →
      ((portSt s w.port).slots.get w.slot).busy = some w.id →
      (∃ t, exec (.saveComplete true) s = .next t ∧ t.ldr.saves = rest ∧ (bankSt t v.bank).stored = (if rest.any (fun x => x.bank == v.bank) then none else some v.image) ∧
        (CanRecord s 0x0542 → LastReport t 0x0542 false [bankNo v.bank]) ∧ ((portSt t w.port).slots.get w.slot).busy = none ∧
        SameBut [.host, .tx, .ldr, .recd] s t) ∧
      (∃ t, exec (.saveComplete false) s = .next t ∧ t.ldr.saves = rest ∧ (bankSt t v.bank).stored = none ∧ (bankSt t v.bank).phase = (bankSt s v.bank).phase ∧
        (CanRecord s 0x052C → LastReport t 0x052C false []) ∧ (∀ x, x ≠ v.bank → bankSt t x = bankSt s x) ∧
        ((portSt t w.port).slots.get w.slot).response = some { code := w.code, reason := 0x052C#16, seq := w.seq, tick := s.tck.tick, data := [] } ∧
        SameBut [.host, .tx, .ldr, .recd] s t))

/-- The verifier rejects with a reason of R239's table, or 0x0605 for a broken migration map, and with no other: never with 0, and a broken header first (R239,
R272). A command that fails where the
spec names no code answers one of the codes that the spec lists for its block (R4, R83, R559, R562; log 11). -/
def Obligations.VerifierAndCommandsFailWithListedCodes : Prop :=
  (∀ (s : State) (img : List Byte), headerBad img = true → verifyImage s img = some { code := 0x0527, rod := 63, addr := 0, idx := 0 }) ∧
  (∀ (s : State) (img : List Byte) (x : Reject), verifyImage s img = some x →
    (0x0501 ≤ x.code ∧ x.code ≤ 0x050A) ∨ (0x0510 ≤ x.code ∧ x.code ≤ 0x0525) ∨ x.code = 0x0527 ∨ x.code = 0x052E ∨ x.code = 0x0605) ∧
  (∀ (s : State) (w : Who), ((portSt s w.port).slots.get w.slot).busy = some w.id → commandCodes.contains w.code.toNat = true →
    ∃ r, r.reason.toNat ∈ reasonsOf (w.code.toNat / 256) ∧ ((portSt (respondFree s w) w.port).slots.get w.slot).response = some r ∧ r.reason.toNat / 256 = w.code.toNat / 256 ∧
      1 ≤ r.reason.toNat % 256 ∧ r.reason.toNat % 256 ≤ 0xEF)

/-- CHG_START of an admitted bank that meets R258 starts the first pass; MIGRATION_LINE_BUILD takes the next line, and the last line of the first pass makes the
change converge; CHG_ABORT before the swap is ordered leaves nothing of the new bank and both commands are answered (R257, R258, R260, R268). -/
def Obligations.OnlineChangeStartsBuildsAborts : Prop :=
  (∀ (s : State) (r : Req) (b : BankId) (old new : Bank), (s.tck.mode = .run ∨ s.tck.mode = .hold) → bankPayWrong r.payload = false →
    bankOfNo (leAt r.payload 0 1) = b → bankInForce s = some old → (bankSt s b).prog = some new → s.chg.stage = .idle →
    (bankSt s b).phase = .admitted → s.ldr.inForce ≠ some b → admissionMatches s (bankSt s b) = true → new.base = old.id → cacheFull old new = none →
    constUnits old new ≤ 2048 → migSourceOk old new = true → standbyReady s = true → allLines new ≠ [] →
    ∀ w u, Starts s r 0x0601 w u → ∃ t, exec (.chgStart r) s = .next (serveQueue t) ∧ Waits t r 0x0601 w ∧ t.chg.stage = .first ∧ t.chg.target = b ∧ t.chg.who = some w ∧
      t.chg.toBuild = allLines new ∧ t.ldr.inForce = s.ldr.inForce ∧ t.tck = s.tck ∧ t.img = s.img) ∧
  (∀ (s : State) (l : Nat) (rest : List Nat), Awake s → s.cry.catchUp = [] → s.chg.stage = .first → s.chg.toBuild = l :: rest →
    ∃ t, exec .migrationLineBuild s = .next t ∧ t.chg.toBuild = rest ∧ t.chg.stage = (if rest = [] then .converging else .first) ∧
      t.ldr.inForce = s.ldr.inForce ∧ t.tck = s.tck) ∧
  (∀ (s : State) (r : Req), Serving s → r.payload = [] → s.chg.stage ≠ .ordered → (∀ w, s.chg.who = some w → w.port ≠ r.port ∨ w.slot ≠ r.slot) →
    ∀ w u, Starts s r 0x0602 w u → ∃ t, exec (.chgAbort r) s = .next (serveQueue t) ∧ Responded t r 0x0602 0 s.tck.tick [] ∧ t.chg.stage = .idle ∧ t.ldr = s.ldr ∧
      t.tck = s.tck ∧ t.img = s.img ∧
      (∀ v, s.chg.who = some v → s.chg.stage ≠ .idle → ((portSt u v.port).slots.get v.slot).busy = some v.id →
        ((portSt t v.port).slots.get v.slot).response = some { code := v.code, reason := 0x060A#16, seq := v.seq, tick := s.tck.tick, data := [] } ∧
        ((portSt t v.port).slots.get v.slot).busy = none))

/-- Every frame that the unit builds for a field link passes the checks of its header and of the whole frame, and its fields and body read back (R277 to R280).
A SUMMON that is turned back becomes an ECHO with the same body whose header check is good, and whose frame check is good exactly when the SUMMON's was (R280,
R321). Every other frame goes back as it came; one that is broken, or longer than 65,536 blocks, is cut off (R276; log 83). A unit without the claim sends
every frame back on the same link, and keeps the highest claim seen, in BOOT too once the mailboxes answer (R307, R321, R324; log 127). -/
def Obligations.FieldFramesPassChecksAndTurnBack : Prop :=
  (∀ (type flags claim tick period domain link : Nat) (body : List Byte), let f := fieldFrame type flags claim tick period domain link body
    hcrcOk f = true ∧ fcrcOk f = true ∧ frameType f = type % 2 ^ 8 ∧ frameClaim f = claim % 2 ^ 24 ∧ frameTick f = tick % 2 ^ 24 ∧
    frameDomain f = domain % 2 ^ 16 ∧ frameBody f = body) ∧
  (∀ (k : Fin 24) (x : RxFrame), hcrcOk x.bytes = true → frameType x.bytes = 0x51 → frameBroken x = false →
      ∃ g, turnFrame k x = .link k g ∧ frameType g = 0x45 ∧ hcrcOk g = true ∧ frameBody g = frameBody x.bytes ∧ fcrcOk g = fcrcOk x.bytes ∧
        frameTick g = frameTick x.bytes ∧ frameClaim g = frameClaim x.bytes ∧ frameDomain g = frameDomain x.bytes) ∧
  (∀ (k : Fin 24) (x : RxFrame), frameBroken x = false → (hcrcOk x.bytes = false ∨ frameType x.bytes ≠ 0x51) → turnFrame k x = .link k x.bytes) ∧
  (∀ (k : Fin 24) (x : RxFrame), frameBroken x = true → ∃ g, turnFrame k x = .linkCut k g ∧
      ((hcrcOk x.bytes = false ∨ frameType x.bytes ≠ 0x51) → g = x.bytes.take (7 + 8 * 65535)) ∧
      (65536 < frameBlocks x.bytes.length → g.length = 7 + 8 * 65535)) ∧
  (∀ (s : State) (k : Fin 24) (x : RxFrame), mailboxUp s = true → s.cry.claim = none →
      ∃ t, exec (.fieldFrameTurnback k x) s = .next t ∧ turnFrame k x ∈ t.tx ∧ (∀ j, j ≠ k → t.lnk.get j = s.lnk.get j) ∧ t.cry.claim = none ∧
        (hcrcOk x.bytes = false → (t.lnk.get k).errHcrc = satAdd (s.lnk.get k).errHcrc 1) ∧
        (hcrcOk x.bytes = true → frameDomain x.bytes = domainOf s → t.cry.seenField = max s.cry.seenField (frameClaim x.bytes)) ∧
        ((hcrcOk x.bytes = false ∨ frameType x.bytes ≠ 0x51) → t.tx = turnFrame k x :: s.tx ∧ (hcrcOk x.bytes = true → t.lnk = s.lnk) ∧ SameBut [.lnk, .tx, .cry] s t))

/-- The ECHO of the running round is taken: the round has had its ECHO, its round-trip time stands, no other link changes (R292, R295). A round without ECHO, or
whose link loses block lock, loses every station that is not blocked (R292, R298). -/
def Obligations.EchoIsTakenOrMissed : Prop :=
  (∀ (s : State) (k : Fin 24) (f : RxFrame) (rtt : BitVec 16) (c : Nat), ticking s = true → s.cry.claim = some c → hcrcOk f.bytes = true → frameBroken f = false →
      (frameDomain f.bytes ≠ domainOf s ∨ frameClaim f.bytes ≤ c) → frameType f.bytes = 0x45 → frameTick f.bytes = s.tck.tick.toNat % 2 ^ 24 →
      (s.lnk.get k).summoned = true → (s.lnk.get k).echoed = false →
      ∃ t, exec (.echoReceived k f rtt) s = .next t ∧ (t.lnk.get k).echoed = true ∧ (t.lnk.get k).rttLast = rtt ∧
        (t.lnk.get k).table = (s.lnk.get k).table ∧ (∀ j, j ≠ k → t.lnk.get j = s.lnk.get j) ∧ t.tck.mode = s.tck.mode ∧ t.tck.tick = s.tck.tick) ∧
  (∀ (s : State) (k : Fin 24) (c : Instr), (c = .echoMissing k ∨ c = .linkLockLost k) → (s.lnk.get k).summoned = true → (s.lnk.get k).echoed = false →
      ∃ t, exec c s = .next t ∧ (t.lnk.get k).echoed = true ∧ (t.lnk.get k).rttLast = 0xFFFF#16 ∧ (∀ i, i < (s.lnk.get k).table.length → blockedAt (s.lnk.get k) i = false → (liveAt t k.val i).lost = true) ∧
        (c = .linkLockLost k → (t.lnk.get k).lock = false) ∧ (∀ j, j ≠ k → t.lnk.get j = s.lnk.get j) ∧
        SameBut [.lnk, .recd, .host, .tx, .tasks] s t)

/-- Losing a station that answered is recorded and counted once; a lost one that answers two rounds in a row is readmitted, unless a SET_MAP of the unit that
holds the claim failed for it (R298, R299, R311). Bring-up of a link: block lock ends its first step, a lock that does not come fails it and is recorded, an
answer to a ROLL CALL that is not the last run is kept, and a lost station asks for a further ROLL CALL (R306, R307; log 104). -/
def Obligations.StationsAndLinksComeAndGo : Prop :=
  (∀ (s : State) (k : Fin 24) (i cause : Nat) (x : StLive), (s.lnk.get k).live[i]? = some x → Awake s →
      (x.lost = false → (liveAt (markLost s k.val i cause) k.val i).lost = true ∧
        ((markLost s k.val i cause).lnk.get k).lossLost = satAdd (s.lnk.get k).lossLost 1 ∧
        (CanRecord s 0x0730 → LastReport (markLost s k.val i cause) 0x0730 false (pathParams k.val (stationAt (s.lnk.get k).table i).path ++ [cause]))) ∧
      (x.lost = true → (liveAt (markLost s k.val i cause) k.val i).lost = true ∧ (markLost s k.val i cause).recd = s.recd ∧
        ((markLost s k.val i cause).lnk.get k).lossLost = (s.lnk.get k).lossLost) ∧
      (∀ st : Byte, st.getLsbD 2 = false → x.lost = true → (x.mapFailed = false ∨ s.cry.claim = none) → blockedAt (s.lnk.get k) i = false →
        (liveAt (stationValid s k.val i st) k.val i).lost = decide (x.goodRun = 0) ∧ (liveAt (stationValid s k.val i st) k.val i).goodRun = x.goodRun + 1)) ∧
  (∀ (s : State) (k : Fin 24), Awake s →
      (∃ t, exec (.fieldLinkLockGained k) s = .next t ∧ SameBut [.lnk] s t ∧ (∀ j, j ≠ k → t.lnk.get j = s.lnk.get j) ∧
        t.lnk.get k = { s.lnk.get k with lock := true, phase := if (s.lnk.get k).phase = .lock then afterLock s.tck.mode else (s.lnk.get k).phase }) ∧
      ((s.lnk.get k).phase = .lock → (s.lnk.get k).lock = false →
        ∃ t, exec (.linkLockTimeout k) s = .next t ∧ (CanRecord s 0x0713 → LastReport t 0x0713 false [k.val]) ∧
          t.lnk.get k = { s.lnk.get k with phase := .failed, queue := [], rollWho := [], rollPending := false } ∧
          (∀ j, j ≠ k → t.lnk.get j = s.lnk.get j) ∧ SameBut [.lnk, .recd, .host, .tx, .free] s t ∧
          (∀ w, (s.lnk.get k).rollWho = [w] → (s.lnk.get k).queue = [] → ((portSt s w.port).slots.get w.slot).busy = some w.id →
            ((portSt t w.port).slots.get w.slot).busy = none)) ∧
      (∀ (f : RxFrame) (rtt : BitVec 16) (c n : Nat), (s.lnk.get k).phase = .roll (n + 1) → (s.lnk.get k).rollSent = true → s.cry.claim = some c →
        hcrcOk f.bytes = true → frameBroken f = false → fcrcOk f.bytes = true → frameType f.bytes = 0x52 → frameDomain f.bytes = domainOf s →
        frameClaim f.bytes = c → 8 * rtt.toNat ≤ 1000 * lnkField s k.val 2 8 →
        ∃ t, exec (.rollCallReceived k f rtt) s = .next t ∧ t.lnk.get k = { s.lnk.get k with rttRoll := rtt, rollSent := false, roll := rollEntries (frameBody f.bytes) } ∧
          (∀ j, j ≠ k → t.lnk.get j = s.lnk.get j) ∧ SameBut [.lnk, .cry] s t) ∧
      (holdsClaim s = true → (s.lnk.get k).phase = .cyclic → (s.lnk.get k).live.any (fun x => x.lost) = true →
        ∃ t, exec (.rollCallRepeat k) s = .next t ∧ t.lnk.get k = { s.lnk.get k with rollPending := true } ∧
          (∀ j, j ≠ k → t.lnk.get j = s.lnk.get j) ∧ SameBut [.lnk] s t))

/-- A higher claim of the own domain in a field-link header fences a unit that holds the claim: it releases the claim and will stop with 0x0810; a unit without
the claim keeps the highest one seen (R324, R348). PARLEY of a host command: a response with PSTATUS 0 and its tag answers the command, 100 ticks without one
fail it with 0x0715; a NOTICE that is to be recorded is recorded with its path, code and data (R311 to R313). -/
def Obligations.ClaimFencesAndParleyEnds : Prop :=
  (∀ (s : State) (k : Fin 24) (claim : BitVec 24), mailboxUp s = true →
      (∀ c, s.cry.claim = some c → c < claim.toNat → s.tck.pend = none →
        ∃ t f, exec (.higherClaimSeen k claim) s = .next t ∧ t.cry.claim = none ∧ t.lch.outs = 0#32 ∧ t.tck.pend = some f ∧ f.code = 0x0810#16 ∧
          t.cry.seenField = max s.cry.seenField claim.toNat ∧ (CanRecord s 0x0810 → LastReport t 0x0810 true [k.val, claim.toNat]) ∧
          SameBut [.cry, .tck, .recd, .host, .tx, .lch] s t) ∧
      ((∀ c, s.cry.claim = some c → claim.toNat ≤ c) →
        ∃ t, exec (.higherClaimSeen k claim) s = .next t ∧ t.cry = { s.cry with seenField := max s.cry.seenField claim.toNat } ∧ SameBut [.cry] s t)) ∧
  (∀ (s : State) (k : Fin 24), Awake s →
      (∀ (q : Parley) (w : Who) (f : RxFrame), (s.lnk.get k).out = some q → q.why = .host w → ((portSt s w.port).slots.get w.slot).busy = some w.id →
        hcrcOk f.bytes = true → frameBroken f = false → fcrcOk f.bytes = true → frameType f.bytes = 0x50 →
        (∀ c, s.cry.claim = some c → frameDomain f.bytes = domainOf s → frameClaim f.bytes ≤ c) →
        leAt (frameBody f.bytes) 0 1 = 1 → leAt (frameBody f.bytes) 8 2 = q.tag → leAt (frameBody f.bytes) 3 1 = 0 →
        ∃ t, exec (.parleyResponseReceived k f) s = .next t ∧ t.lnk.get k = { s.lnk.get k with out := none, outAge := 0 } ∧
          ((portSt t w.port).slots.get w.slot).response = some { code := w.code, reason := 0#16, seq := w.seq, tick := s.tck.tick, data := frameBody f.bytes } ∧
          SameBut [.lnk, .host, .tx, .cry] s t) ∧
      (∀ (q : Parley) (w : Who), (s.lnk.get k).out = some q → q.why = .host w → 100 ≤ (s.lnk.get k).outAge →
        ((portSt s w.port).slots.get w.slot).busy = some w.id →
        ∃ t, exec (.parleyTimeout k) s = .next t ∧ t.lnk.get k = { s.lnk.get k with out := none, outAge := 0 } ∧
          ((portSt t w.port).slots.get w.slot).response = some { code := w.code, reason := 0x0715#16, seq := w.seq, tick := s.tck.tick, data := [] } ∧
          SameBut [.lnk, .host, .tx] s t) ∧
      (∀ (f : RxFrame), ticking s = true → hcrcOk f.bytes = true → frameBroken f = false → fcrcOk f.bytes = true → frameType f.bytes = 0x4E →
        (∀ c, s.cry.claim = some c → frameDomain f.bytes = domainOf s → frameClaim f.bytes ≤ c) → lnkField s k.val 21 1 = 1 →
        let b := frameBody f.bytes
        ∃ t, exec (.noticeReceived k f) s = .next t ∧
          Reports s t 0x0740 (pathParams k.val (slice b 4 (leAt b 0 1)) ++ [leAt b 2 2, leAt b 24 3]) ∧
          (leAt b 2 2 ≠ 1 → leAt b 2 2 ≠ 2 → t.lnk = s.lnk) ∧ (∀ j, j ≠ k → t.lnk.get j = s.lnk.get j) ∧
          SameBut [.recd, .host, .tx, .cry, .lnk] s t))

/-- The commands of block 0x07 (R316): a table in range is checked as a change of the block; the table and the state of a link are returned; ROLL CALL, PARLEY
and REARM wait for their turn on a link that runs. -/
def Obligations.LinkCommandsAct : Prop :=
  ∀ (s : State) (r : Req) (k : Fin 24), leAt r.payload 0 1 = k.val →
    (∀ tb, Serving s → Quiet s → expertHeld s .a 7 = false → expertHeld s .b 7 = false → 4 ≤ r.payload.length → leAt r.payload 1 3 = 0 →
      parseTable (r.payload.drop 4) = some tb →
      ∀ w u, Starts s r 0x0701 w u → ∃ t, exec (.lnkTableSet r) s = .next (serveQueue t) ∧ Waits t r 0x0701 w ∧
        blkCfg t 7 = { blkCfg s 7 with check := some { copy := (blkCfg s 7).inForce, work := .linkTable w k.val tb, discard := false } } ∧
        (∀ b, b ≠ 7 → blkCfg t b = blkCfg s b) ∧ AnswerFrame r u t ∧ SameBut [.host, .cfg] u t) ∧
    (inBoot s = false → linkPayWrong r.payload = false →
      (∀ w u, Starts s r 0x0702 w u → ∃ t, exec (.lnkTableGet r) s = .next (serveQueue t) ∧ Responded t r 0x0702 0 s.tck.tick ((s.lnk.get k).table.flatMap stationBytes) ∧ AnswerFrame r u t ∧ SameBut [.host, .tx] u t) ∧
      (∀ w u, Starts s r 0x0706 w u → ∃ t, exec (.lnkState r) s = .next (serveQueue t) ∧ Responded t r 0x0706 0 s.tck.tick
        ((s.lnk.get k).live.flatMap (fun x => leBytes 1 (b2n x.lost) ++ leBytes 1 (b2n x.failsafe) ++ [x.status])) ∧ AnswerFrame r u t ∧ SameBut [.host, .tx] u t) ∧
      (linkRuns s k.val = true → ∀ w u, Starts s r 0x0703 w u → ∃ t, exec (.lnkRollcall r) s = .next (serveQueue t) ∧ Waits t r 0x0703 w ∧
        t.lnk.get k = { s.lnk.get k with rollPending := true, rollWho := (s.lnk.get k).rollWho ++ [w] } ∧ (∀ j, j ≠ k → t.lnk.get j = s.lnk.get j) ∧
        AnswerFrame r u t ∧ SameBut [.host, .lnk, .cry, .tx] u t ∧
        ((holdsClaim s = false ∨ partnerShadow s = false) → SameBut [.host, .lnk] u t))) ∧
    (linkRuns s k.val = true → 33 ≤ r.payload.length → leAt r.payload 1 1 = 0 → 1 ≤ leAt r.payload 3 1 → leAt r.payload 3 1 ≤ 16 → leAt r.payload 7 2 ≤ 1024 →
      ∀ w u, Starts s r 0x0704 w u → ∃ t q, exec (.lnkParley r) s = .next (serveQueue t) ∧ Waits t r 0x0704 w ∧ (t.lnk.get k).queue = (s.lnk.get k).queue ++ [q] ∧ q.why = .host w ∧
        q.op = leAt r.payload 2 1 ∧ q.path = slice r.payload 11 (leAt r.payload 3 1) ∧ q.index = leAt r.payload 5 2 ∧ q.len = leAt r.payload 7 2 ∧
        (∀ j, j ≠ k → t.lnk.get j = s.lnk.get j) ∧ AnswerFrame r u t ∧ SameBut [.host, .lnk, .cry, .tx] u t ∧
        ((holdsClaim s = false ∨ partnerShadow s = false) → SameBut [.host, .lnk] u t)) ∧
    (linkRuns s k.val = true → 1 ≤ leAt r.payload 1 1 → leAt r.payload 1 1 ≤ 16 → 2 + leAt r.payload 1 1 ≤ r.payload.length →
      ∀ w u, Starts s r 0x0705 w u → ∃ t q, exec (.lnkRearm r) s = .next (serveQueue t) ∧ Waits t r 0x0705 w ∧ (t.lnk.get k).queue = (s.lnk.get k).queue ++ [q] ∧ q.why = .hostRearm w ∧ q.op = 0x11 ∧
        q.path = slice r.payload 2 (leAt r.payload 1 1) ∧ (∀ j, j ≠ k → t.lnk.get j = s.lnk.get j) ∧ AnswerFrame r u t ∧ SameBut [.host, .lnk, .cry, .tx] u t ∧
        ((holdsClaim s = false ∨ partnerShadow s = false) → SameBut [.host, .lnk] u t))

/-! ### The pair (10) -/

/-- Events of the carry links outside SHADOW: a lane that fails and a link that comes up are recorded, a HEARTBEAT leaves on lanes 0 and 4 and makes the partner
present, its silence loses the partner, and so does a standby that shows STOP (log 58), HEALTH is kept, a NAK is answered with the frame it names, a seal ends
the tick's delta, an overflow starts a resync, and a BULK record takes its octets (R326, R330, R331, R336, R340, R341, R343, R345, R349). -/
def Obligations.CarryEventsOfTheActiveUnit : Prop :=
  ∀ (s : State), Serving s →
    (∀ lane : Fin 8, s.cry.lanes.getLsbD lane.val = true →
      ∃ t, exec (.carryLaneDown lane) s = .next t ∧ t.cry.lanes = s.cry.lanes &&& ~~~(1#8 <<< lane.val) ∧
        t.cry.down = (if carryUp s (linkOfLane lane) then satAdd s.cry.down 1 else s.cry.down) ∧ Reports s t 0x0827 [b2n (linkOfLane lane), lane.val] ∧
        SameBut [.cry, .recd, .host, .tx] s t) ∧
    (∀ k : Bool, carryUp s k = false →
      ∃ t, exec (.carryLinkUp k) s = .next t ∧ t.cry = { s.cry with lanes := s.cry.lanes ||| (if k then 0xF0#8 else 0x0F#8) } ∧ Reports s t 0x0828 [b2n k] ∧
        SameBut [.cry, .recd, .host, .tx] s t) ∧
    (isPair s = true → s.cry.lanes.getLsbD 0 = true → s.cry.lanes.getLsbD 4 = true → s.slt.claimRun = none → (∀ o ∈ s.slt.queue, isClaimOp o = false) →
      ∃ t f, exec .heartbeatSend s = .next t ∧ carryOk f = true ∧ carryType f = 0x48 ∧ leAt (carryBody f) 0 1 = roleNo s ∧ leAt (carryBody f) 1 1 = modeNo s.tck.mode ∧
        t.tx = .carry (some 4) f :: .carry (some 0) f :: s.tx ∧ SameBut [.tx] s t) ∧
    (s.cry.partner = true → ∃ t, exec .partnerLost s = .next t ∧ t.cry.partner = false ∧ t.cry.claim = s.cry.claim ∧ t.cry.bulk = [] ∧
      Reports s t 0x0821 [0, 0, 0] ∧ SameBut [.cry, .recd, .host, .tx] s t) ∧
    (∀ (lane : Fin 8) (f : List Byte), isPair s = true → s.cry.lanes.getLsbD lane.val = true → carryOk f = true → carryClaim f ≤ s.cry.stored.toNat →
      (carryType f = 0x48 →
        ∃ t, exec (.heartbeatReceived lane f) s = .next t ∧ t.cry.partner = true ∧ t.cry.pRole = BitVec.ofNat 8 (leAt (carryBody f) 0 1) ∧
          t.cry.pMode = BitVec.ofNat 8 (leAt (carryBody f) 1 1) ∧ t.cry.pReady = BitVec.ofNat 8 (leAt (carryBody f) 2 1) ∧
          t.cry.pApplied = BitVec.ofNat 32 (leAt (carryBody f) 4 4) ∧ t.cry.seenPartner = carryClaim f ∧ t.cry.claim = s.cry.claim ∧
          SameBut [.cry, .recd, .host, .tx, .free] s t ∧ ((s.cry.claim = none ∨ (leAt (carryBody f) 1 1 ≠ 5 ∧ (leAt (carryBody f) 1 1 ≠ 2 ∨ partnerShadow s = false))) → t.cry.bulk = s.cry.bulk ∧
            t.cry.switchover = s.cry.switchover ∧ t.cry.syncProgress = s.cry.syncProgress ∧ SameBut [.cry] s t) ∧
          (holdsClaim s = true → partnerShadow s = true → leAt (carryBody f) 1 1 = 2 → t.cry.bulk = [] ∧ Reports s t 0x0821 [0, 0, 0])) ∧
      (carryType f = 0x52 → ∃ t, exec (.healthReceived lane f) s = .next t ∧ t.cry.health = carryBody f ∧
        t.cry.healthTick = BitVec.ofNat 64 (fullTick s.tck.tick.toNat (carryTick f)) ∧ SameBut [.cry, .recd, .host, .tx] s t) ∧
      (∀ n e, carryType f = 0x4E → holdsClaim s = true → (List.range ((carryBody f).length / 4)).map (fun i => leAt (carryBody f) (4 * i) 4) = [n, n] →
        s.cry.kept.find? (fun e => e.1 == n) = some e →
        ∃ t, exec (.nakReceived lane f) s = .next t ∧ t.tx = .carry none e.2 :: s.tx ∧ t.cry.retrans = satAdd s.cry.retrans 1 ∧ t.cry.kept = s.cry.kept ∧
          SameBut [.cry, .tx] s t)) ∧
    (s.cry.sealTick = some s.tck.tick → s.tck.phase = .ended →
      ∃ t, exec .sealSend s = .next t ∧ t.cry.sealTick = none ∧ t.cry.applied = BitVec.ofNat 32 s.tck.tick.toNat ∧ t.cry.records = [] ∧ t.cry.tracked = [] ∧
        t.cry.overflow = false ∧ t.tck.sealOfs = some s.tck.ofs ∧ t.tck.mode = s.tck.mode ∧ t.img = s.img ∧ t.rods = s.rods) ∧
    (s.cry.sealTick = some s.tck.tick → s.tck.sealOfs = none → s.cry.overflow = false → s.tck.phase = .compute →
      ∃ t, exec .sealOverflow s = .next t ∧ t.cry.overflow = true ∧ t.cry.tracked = [] ∧ t.cry.bulk = areaOrder.map (fun a => (a, 0)) ∧
        t.cry.sealTick = s.cry.sealTick ∧ t.tck = s.tck ∧ SameBut [.cry, .recd, .host, .tx, .free] s t) ∧
    (∀ a ofs rest, s.cry.sealTick = some s.tck.tick → s.cry.overflow = false → s.cry.tracked = [] → s.cry.bulk = (a, ofs) :: rest →
      ∃ t, exec .bulkPlace s = .next t ∧ t.cry.bulkDone = s.cry.bulkDone + (slice (areaOctets s (syncOctets s) a) ofs 1016).length ∧
        t.cry.bulk = (if (areaOctets s (syncOctets s) a).length ≤ ofs + (slice (areaOctets s (syncOctets s) a) ofs 1016).length then rest
          else (a, ofs + (slice (areaOctets s (syncOctets s) a) ofs 1016).length) :: rest) ∧ SameBut [.cry, .tx, .free] s t)

/-- Events of the standby: DELTA, seal and CONTROL frames in order are taken as they come, the parts of a CONTROL record joined, the HEALTH record leaves at its tick, a self-test item that passes is
kept and one that fails is a fault with 0x0811, and a FAULT frame of a partner that stopped makes a READY standby raise the claim and take over at the next
edge, while one that may not take over only loses its partner; one whose carry links both went down takes over by its readiness of before (log 132) (R329, R338, R339, R343 to R345, R349). -/
def Obligations.CarryEventsOfTheStandby : Prop :=
  ∀ (s : State), s.tck.mode = .shadow → isPair s = true → s.cry.takeover = none →
    (∀ (lane : Fin 8) (f : List Byte), s.cry.lanes.getLsbD lane.val = true → carryOk f = true → carryClaim f ≤ s.cry.stored.toNat →
      (s.cry.rxNext = some (carrySeq f) → s.cry.rxFrames = [] → s.cry.rxSeals = [] →
        (carryType f = 0x44 → ∃ t, exec (.deltaReceived lane f) s = .next t ∧ SameBut [.cry] s t ∧
          t.cry = { s.cry with seenPartner := carryClaim f, rxNext := some ((carrySeq f + 1) % 2 ^ 32), rxFrames := [(carrySeq f, f)] }) ∧
        (carryType f = 0x43 → leAt (carryBody f) 6 1 = s.cry.ctlParts.length / 1016 % 256 →
          ∃ t, exec (.controlReceived lane f) s = .next t ∧ t.cry.rxNext = some ((carrySeq f + 1) % 2 ^ 32) ∧ SameBut [.cry] s t ∧
            (leAt (carryBody f) 7 1 = 1 → t.cry.ctlParts = [] ∧
              t.cry.controls = s.cry.controls ++ [{ apply := BitVec.ofNat 32 (leAt (carryBody f) 0 4), code := BitVec.ofNat 16 (leAt (carryBody f) 4 2)
                                                    data := s.cry.ctlParts ++ (carryBody f).drop 8 }]) ∧
            (leAt (carryBody f) 7 1 ≠ 1 → t.cry.ctlParts = s.cry.ctlParts ++ (carryBody f).drop 8 ∧ t.cry.controls = s.cry.controls)) ∧
        (carryType f = 0x53 → s.cry.syncing = false → s.cry.catchUp = [] → leAt (carryBody f) 8 4 = 0 → leAt (carryBody f) 12 4 = crc32 [] → leAt (carryBody f) 17 1 = 0 →
          leAt (carryBody f) 20 4 = carrySeq f →
          ∃ t, exec (.sealReceived lane f) s = .next t ∧ t.cry.rxNext = some ((carrySeq f + 1) % 2 ^ 32) ∧ t.cry.rxSeals = [] ∧ t.cry.rxFrames = [] ∧
            t.cry.applied = BitVec.ofNat 32 (leAt (carryBody f) 0 8) ∧ t.cry.sealMode = leAt (carryBody f) 16 1 ∧ SameBut [.cry] s t)) ∧
      (carryType f = 0x46 → s.cry.partner = true → leAt (carryBody f) 2 1 = 0 → s.cry.exhausted = false → s.cry.stored.toNat < 0xFFFFFE →
        s.cry.seenField ≤ s.cry.stored.toNat → (carryUp s false = true ∨ carryUp s true = true) →
        (s.cry.readiness = 0#2 → (s.cry.sealMode = 3 ∨ s.cry.sealMode = 4) →
          ∃ t c, exec (.faultFrameReceived lane f) s = .next t ∧ t.cry.takeover = some false ∧ t.cry.partner = false ∧ t.cry.claim = some c ∧
            s.cry.stored.toNat < c ∧ c % 2 = positionOf s ∧ t.tck.mode = .shadow) ∧
        (s.cry.readiness = 3#2 → s.cry.claim = none →
          ∃ t, exec (.faultFrameReceived lane f) s = .next t ∧ t.cry.takeover = none ∧ t.cry.partner = false ∧ t.cry.claim = none ∧ t.tck.mode = .shadow))) ∧
    (s.cry.partner = true → carryUp s false = false → carryUp s true = false → s.cry.readyBefore = 0#2 → (s.cry.sealMode = 3 ∨ s.cry.sealMode = 4) →
      s.cry.exhausted = false → max s.cry.stored.toNat (max s.cry.seenPartner s.cry.seenField) < 0xFFFFFE →
      ∃ t c, exec .partnerLost s = .next t ∧ t.cry.takeover = some false ∧ t.cry.partner = false ∧ t.cry.claim = some c ∧ s.cry.stored.toNat < c ∧
        c % 2 = positionOf s ∧ t.tck.mode = .shadow) ∧
    (s.tck.tick.toNat % healthTicks s = 0 →
      ∃ t, exec .healthSend s = .next t ∧ t.cry.healthTick = s.tck.tick ∧ t.cry.corrections = 0#16 ∧ t.cry.sinceC0 = 0 ∧ t.cry.sinceC1 = 0 ∧ t.cry.sinceRe = 0 ∧
        t.cry.health.length = 32 ∧ SameBut [.cry, .recd, .host, .tx] s t) ∧
    (∀ n : BitVec 16, s.cry.item < selfItems →
      (∃ t, exec (.selftestItem true n) s = .next t ∧ t.cry.item = (s.cry.item + 1) % selfItems ∧ smGet t.cry.passed s.cry.item = some s.now ∧
        t.cry.corrections = satAdd s.cry.corrections n.toNat ∧ SameBut [.cry, .trk, .rods, .recd, .host, .tx, .free] s t) ∧
      (s.tck.pend = none → ∃ t x, exec (.selftestItem false n) s = .next t ∧ t.tck.pend = some x ∧ x.code = 0x0811#16 ∧
        (n = 0#16 → CanRecord s 0x0811 → LastReport t 0x0811 true [s.cry.item]) ∧ t.cry.passed = s.cry.passed))

/-- CRY_SWITCHOVER beside a READY standby waits for its order with the next seal, CRY_RESYNC starts a resync and is answered, CRY_HEALTH_GET returns the latest
HEALTH record and its tick number (R350, R356). CAN_RECOVER asks for the recovery of a bus that is off and is answered, CAN_DETECT on an enabled listen-only bus
begins and waits, CAN_HP_READ returns an HP buffer and empties it (R406, R412, R422; the layout of an entry, log 15). -/
def Obligations.CarryAndCanCommandsAct : Prop :=
  (∀ (s : State) (r : Req), r.payload = [] →
    (s.tck.mode = .run → transPending s = false → s.chg.stage = .idle → holdsClaim s = true → partnerShadow s = true → s.cry.pReady = 0#8 → s.cry.exhausted = false →
      max s.cry.stored.toNat (max s.cry.seenPartner s.cry.seenField) < 0xFFFFFE →
      ∀ w u, Starts s r 0x0801 w u → ∃ t, exec (.crySwitchover r) s = .next (serveQueue t) ∧ Waits t r 0x0801 w ∧ AnswerFrame r u t ∧ SameBut [.host, .cry, .tx] u t ∧
        t.cry.switchover = some { who := w, orderedAt := none, confirmed := false, postponed := 0 } ∧ t.cry.claim = s.cry.claim ∧ t.cry.readiness = s.cry.readiness) ∧
    (inBoot s = false → holdsClaim s = true → partnerShadow s = true →
      ∀ w u, Starts s r 0x0802 w u → ∃ t, exec (.cryResync r) s = .next (serveQueue t) ∧ Responded t r 0x0802 0 s.tck.tick [] ∧ t.cry.bulk = areaOrder.map (fun a => (a, 0)) ∧ t.cry.syncProgress = 0#7 ∧
        SameBut [.host, .tx, .cry, .recd, .free] u t) ∧
    (inBoot s = false →
      ∀ w u, Starts s r 0x0803 w u → ∃ t, exec (.cryHealthGet r) s = .next (serveQueue t) ∧ Responded t r 0x0803 0 s.tck.tick (padTo 32 s.cry.health ++ leBytes 8 s.cry.healthTick.toNat) ∧
        AnswerFrame r u t ∧ SameBut [.host, .tx] u t)) ∧
  (∀ (s : State) (r : Req) (k : Fin 2), Serving s → r.payload.length = 4 → leAt r.payload 0 1 = k.val →
    (leAt r.payload 1 3 = 0 → ∀ w u, Starts s r 0x0B01 w u → ∃ t, exec (.canRecover r) s = .next (serveQueue t) ∧ Responded t r 0x0B01 0 s.tck.tick [] ∧ canAt t k.val = { canAt s k.val with recovering := (canAt s k.val).recovering || (canAt s k.val).busOff } ∧
      AnswerFrame r u t ∧ SameBut [.host, .tx, .can, .cry] u t) ∧
    (leAt r.payload 1 1 = 0 → 10 ≤ leAt r.payload 2 2 → leAt r.payload 2 2 ≤ 10000 → (canAt s k.val).det = none → canEnabled s k.val = true → canField s k.val 0 0 2 = 1 →
      ∀ w u, Starts s r 0x0B02 w u → ∃ t, exec (.canDetect r) s = .next (serveQueue t) ∧ Waits t r 0x0B02 w ∧ AnswerFrame r u t ∧ SameBut [.host, .tx, .can, .cry] u t ∧
        canAt t k.val = { canAt s k.val with det := some { who := w, dwell := leAt r.payload 2 2, nominal := none, index := 0 } }) ∧
    (∀ n, leAt r.payload 2 2 = 0 → (hpObjects (blkCfg s 0x0B).inForce k.val)[leAt r.payload 1 1]? = some n →
      ∀ w u, Starts s r 0x0B03 w u → ∃ t, exec (.canHpRead r) s = .next (serveQueue t) ∧ Responded t r 0x0B03 0 s.tck.tick ((canObjSt (canAt s k.val) n).hp.flatMap hpBytes) ∧
        canObjSt (canAt t k.val) n = { canObjSt (canAt s k.val) n with hp := [] } ∧ (∀ m, m ≠ n → canObjSt (canAt t k.val) m = canObjSt (canAt s k.val) m) ∧
        AnswerFrame r u t ∧ SameBut [.host, .tx, .can, .cry] u t))

/-! ### Network time (11) -/

/-- Events of device time: PTP messages act on the port and the servo (a Sync, with its stamp or a Follow_Up, within the lock offset counts towards the lock, eight
in a row give LOCKED, one beyond it starts again), only those of the port's master count, the second Announce of a qualified master makes the port of a slave-only
clock uncalibrated (log 125), a master port sends its Announce and answers Delay_Req, the loss of the master begins holdover and its expiry ends it, device time never goes back while it slews, a leap second moves the UTC offset, a read
of NTM_NOW_NS latches its instant, and the frame at the head of a launch queue waits for its time and the line (log 108), leaves with its FCS at it, or is dropped
as late (log 126 for the answer) (R359, R361,
R362, R364 to R367, R374, R378). -/
def Obligations.NetworkTimeEvents : Prop :=
  ∀ (s : State) (eth : Bool), Awake s →
    (ptpOn s eth = true → (ptpPort s eth).st ≠ 1 → ∃ t, exec (.ptpMessageReceived eth .management) s = .next t ∧ t = { s with ntm.mgmt := satAdd s.ntm.mgmt 1 }) ∧
    (∀ (m : PtpMsg) (q : BitVec 16) (t1 t2 : Int), ptpOn s eth = true → (ptpPort s eth).st ≠ 1 → s.ntm.slave = some eth →
      ((m = .sync (BitVec.ofNat 7 (ptpDomain s)) s.ntm.parent q (some t1) ∧ t2 = timeNs s + (ingressNs s eth : Nat)) ∨
        (m = .followUp (BitVec.ofNat 7 (ptpDomain s)) s.ntm.parent q t1 ∧ (ptpPort s eth).syncIn = some (t2, q))) →
      let ofs : Int := t2 - t1 - (ptpPort s eth).delay
      let lock : Int := (cfgField s 0x09 0x108 0 16 : Nat)
      ∃ t, exec (.ptpMessageReceived eth m) s = .next t ∧ t.ntm.offset = satInt 32 ofs ∧ (ptpPort t eth).st = 9 ∧
        (ofs ≤ lock → -lock ≤ ofs → t.ntm.goodRun = s.ntm.goodRun + 1 ∧ t.ntm.quality = (if 7 ≤ s.ntm.goodRun then 0#2 else 2#2)) ∧
        ((ofs < -lock ∨ lock < ofs) → t.ntm.goodRun = 0 ∧ t.ntm.quality = 2#2) ∧ (1000000 < ofs.natAbs → t.ntm.step = some (.by (-ofs) true)) ∧
        timeNs t = timeNs s ∧ t.brk = { s.brk with winOk := t.brk.winOk } ∧ SameBut [.ntm, .brk, .recd, .host, .tx, .free] s t) ∧
    (∀ (d : BitVec 7) (src : BitVec 80) (q : BitVec 16) (t1 : Option Int), s.ntm.slave = some eth → (src ≠ s.ntm.parent ∨ d.toNat ≠ ptpDomain s) →
      exec (.ptpMessageReceived eth (.sync d src q t1)) s = .next s) ∧
    (∀ q : BitVec 16, ptpOn s eth = true → (ptpPort s eth).st ≠ 1 → s.ntm.slave = some eth →
      ∃ t, exec (.ptpMessageReceived eth (.sync (BitVec.ofNat 7 (ptpDomain s)) s.ntm.parent q none)) s = .next t ∧
        (ptpPort t eth).syncIn = some (timeNs s + (ingressNs s eth : Nat), q) ∧ ptpPort t (!eth) = ptpPort s (!eth) ∧ t.ntm.offset = s.ntm.offset ∧
        timeNs t = timeNs s ∧ SameBut [.ntm] s t) ∧
    (∀ a : Announce, ptpOn s eth = true → (ptpPort s eth).st ≠ 1 → a.domain.toNat = ptpDomain s → slaveOnly s = true → s.ntm.slave = none →
      s.ntm.p0.best = none → s.ntm.p1.best = none →
      ((ptpPort s eth).foreign = [] → ∃ t, exec (.ptpMessageReceived eth (.announce a)) s = .next t ∧ t.ntm.slave = none ∧
        (ptpPort t eth).foreign = [{ ann := a, at' := s.now, prev := none }] ∧ timeNs t = timeNs s) ∧
      (∀ x : Foreign, (ptpPort s eth).foreign = [x] → x.ann.sender = a.sender → s.now ≤ x.at' + 4 * intervalNs s 4 →
        a.sender.toNat / 65536 ≠ Config.clockIdentity.toNat → a.stepsRemoved.toNat < 255 → (ptpPort s eth).st ≠ 8 → (ptpPort s eth).st ≠ 9 →
        ∃ t, exec (.ptpMessageReceived eth (.announce a)) s = .next t ∧ t.ntm.slave = some eth ∧ (ptpPort t eth).st = 8 ∧ (ptpPort t eth).best = some a ∧
          t.ntm.parent = a.sender ∧ t.ntm.grandmaster = a.grandmaster ∧ t.ntm.stepsRemoved = a.stepsRemoved + 1#16 ∧ timeNs t = timeNs s)) ∧
    (ptpOn s eth = true → (ptpPort s eth).st = 6 → launchQueue s eth = [] →
      (∃ t, exec (.ptpMessageSend eth .announce) s = .next t ∧
        t.tx = .ptp eth (cfgBit s 0x09 0x100 4) (ptpDomain s) (.announce (ownAnnounce s eth)) :: s.tx ∧ SameBut [.tx, .ntm] s t) ∧
      (∀ (src : BitVec 80) (q : BitVec 16), peerDelay s = false →
        ∃ t, exec (.ptpMessageReceived eth (.delayReq (BitVec.ofNat 7 (ptpDomain s)) src q)) s = .next t ∧
          t.tx = .ptp eth (cfgBit s 0x09 0x100 4) (ptpDomain s) (.delayResp src q (timeNs s + (ingressNs s eth : Nat))) :: s.tx ∧ SameBut [.tx, .ntm] s t)) ∧
    (s.ntm.slave = some eth → (ptpPort s (!eth)).best = none → s.ntm.quality = 0#2 → (∀ x ∈ (ptpPort s eth).foreign, x.ann.sender = s.ntm.parent) →
      ((∀ x ∈ (ptpPort s eth).foreign, x.at' + announceNs s ≤ s.now) ∨ (ptpPort s eth).syncAt + 4 * intervalNs s 0 ≤ s.now) →
      ∃ t, exec .ptpMasterLost s = .next t ∧ t.ntm.slave = none ∧ t.ntm.quality = 1#2 ∧ t.ntm.holdAt = s.now ∧ t.ntm.grandmaster = Config.clockIdentity ∧
        timeNs t = timeNs s ∧ (s.ntm.grandmaster = Config.clockIdentity → Reports s t 0x0911 []) ∧ SameBut [.ntm, .brk, .recd, .host, .tx] s t) ∧
    (s.ntm.quality = 1#2 → s.ntm.holdAt + 60000000000 * cfgField s 0x09 0x108 16 16 ≤ s.now →
      ∃ t, exec .holdoverExpiry s = .next t ∧ t.ntm = { s.ntm with quality := 2#2 } ∧ t.brk = { s.brk with winOk := t.brk.winOk } ∧ Reports s t 0x0912 [] ∧
        SameBut [.ntm, .brk, .recd, .host, .tx] s t) ∧
    ((s.ntm.slew = 0 → exec .slewComplete s = .next { s with ntm.slewing := false }) ∧ (s.ntm.slew ≠ 0 → exec .slewComplete s = .next s) ∧
      timeNs s ≤ timeNs (advanceTime s) ∧ timeNs (advanceTime s) ≤ timeNs s + 3 ∧ (advanceTime s).ntm.slew.natAbs ≤ s.ntm.slew.natAbs) ∧
    (s.ntm.utc.getLsbD 17 = true →
      ∃ t, exec .leapSecond s = .next t ∧ t.ntm.utc.truncate 16 = s.ntm.utc.truncate 16 + 1#16 ∧ t.ntm.utc.getLsbD 17 = false ∧ t.ntm.utc.getLsbD 18 = false ∧
        t.ntm.utc.getLsbD 16 = s.ntm.utc.getLsbD 16 ∧ timeNs t = timeNs s ∧
        Reports s t 0x0932 [toTwos 24 (ofTwos 16 s.ntm.utc.toNat), toTwos 24 (ofTwos 16 s.ntm.utc.toNat + 1)] ∧ SameBut [.ntm, .brk, .recd, .host, .tx] s t) ∧
    (∀ p : Port, Answers s p → ∃ t, exec (.ntmNowNsRead p) s = .next t ∧ (portSt t p).rdata = packNs s.ntm.ns s.ntm.quality ∧
      t.ntm = { s.ntm with nowNs := packNs s.ntm.ns s.ntm.quality, nowSecLo := BitVec.ofNat 32 s.ntm.sec, nowSecHi := BitVec.ofNat 32 ((s.ntm.sec / 2 ^ 32) % 2 ^ 16)
                           utcSnap := s.ntm.utc } ∧
      { portSt t p with rdata := (portSt s p).rdata } = portSt s p ∧ portSt t (otherPort p) = portSt s (otherPort p) ∧ SameBut [.host, .tx, .ntm] s t) ∧
    (∀ (l : Launch) (rest : List Launch), launchQueue s eth = l :: rest → ((portSt s l.who.port).slots.get l.who.slot).busy = some l.who.id → ∀ late : Fin 9,
      (timeNs s < (launchNs l : Nat) → exec (.launchTime eth late) s = .next s) ∧
      ((launchNs l : Nat) ≤ timeNs s → timeNs s ≤ (launchNs l + 8 : Nat) → s.now < (ptpPort s eth).busyUntil → exec (.launchTime eth late) s = .next s) ∧
      ((launchNs l : Nat) ≤ timeNs s → timeNs s ≤ (launchNs l + 8 : Nat) → (ptpPort s eth).busyUntil ≤ s.now → (∀ x ∈ rest, launchNs x ≠ launchNs l) → ∃ t T, exec (.launchTime eth late) s = .next t ∧ launchQueue t eth = rest ∧ launchQueue t (!eth) = launchQueue s (!eth) ∧
        .eth eth (l.frame ++ leBytes 4 (crc32 l.frame)) ∈ t.tx ∧ launchNs l ≤ T ∧ T ≤ launchNs l + 8 ∧
        ((portSt t l.who.port).slots.get l.who.slot).response =
          some { code := l.who.code, reason := 0#16, seq := l.who.seq, tick := s.tck.tick
                 data := leBytes 6 (T / 1000000000) ++ leBytes 4 (packNs (T % 1000000000) s.ntm.quality).toNat } ∧
        SameBut [.ntm, .host, .tx] s t) ∧
      ((launchNs l + 8 : Nat) < timeNs s → ∃ t, exec (.launchTime eth late) s = .next t ∧ launchQueue t eth = rest ∧ launchQueue t (!eth) = launchQueue s (!eth) ∧
        (eth = false → t.ntm.droppedE0 = satAdd s.ntm.droppedE0 1) ∧ (eth = true → t.ntm.droppedE1 = satAdd s.ntm.droppedE1 1) ∧
        (CanRecord s 0x0930 → LastReport t 0x0930 false [b2n eth]) ∧
        ((portSt t l.who.port).slots.get l.who.slot).response = some { code := l.who.code, reason := 0x0930#16, seq := l.who.seq, tick := s.tck.tick, data := [] } ∧
        SameBut [.ntm, .host, .tx, .recd] s t))

/-- Commands of block 0x09: NTM_SET_TIME in mode OFF waits for its edge, NTM_SET_UTC without LOCKED and HOLDOVER time sets the UTC fields at once, NTM_LAUNCH
reads its frame from the host or fails with 0x0906 where the port is down (a free value, log 45), NTM_PTP_STATE returns the data sets (R374, R376, R377). -/
def Obligations.NetworkTimeCommandsAct : Prop :=
  ∀ (s : State) (r : Req), Serving s →
    (ntmMode s = 0 → r.payload.length = 12 → leAt r.payload 6 2 = 0 → leAt r.payload 8 4 ≤ 999999999 →
      ∀ w u, Starts s r 0x0901 w u → ∃ t, exec (.ntmSetTime r) s = .next (serveQueue t) ∧ Waits t r 0x0901 w ∧ AnswerFrame r u t ∧ SameBut [.host, .tx, .ntm, .cry] u t ∧
        t.ntm = { s.ntm with step := some (.to (leAt r.payload 0 6) (leAt r.payload 8 4)), stepWho := s.ntm.stepWho ++ [w] }) ∧
    (2 ≤ s.ntm.quality.toNat → r.payload.length = 4 → leAt r.payload 3 1 = 0 → leAt r.payload 2 1 ≤ 3 →
      ∀ w u, Starts s r 0x0902 w u → ∃ t, exec (.ntmSetUtc r) s = .next (serveQueue t) ∧ Responded t r 0x0902 0 s.tck.tick [] ∧ t.ntm.utc.truncate 16 = BitVec.ofNat 16 (leAt r.payload 0 2) ∧
        t.ntm.utc.getLsbD 16 = true ∧ t.ntm.utc.getLsbD 19 = true ∧ t.ntm.utc.getLsbD 17 = bitOf (leAt r.payload 2 1) 0 ∧
        t.ntm.utc.getLsbD 18 = bitOf (leAt r.payload 2 1) 1 ∧ timeNs t = timeNs s ∧ AnswerFrame r u t ∧ SameBut [.host, .tx, .ntm, .brk, .cry] u t) ∧
    (r.payload.length = 12 → leAt r.payload 0 1 ≤ 1 → leAt r.payload 1 1 = 0 → leAt r.payload 8 4 ≤ 999999999 → (launchQueue s (leAt r.payload 0 1 == 1)).length < 16 →
      60 ≤ r.hostLen.toNat → r.hostLen.toNat ≤ 1514 →
      ∀ w u, Starts s r 0x0903 w u → ∃ t, exec (.ntmLaunch r) s = .next (serveQueue t) ∧ SameBut [.host, .tx, .free] u t ∧
        ((freeBool s).1 = true → Responded t r 0x0903 0x0906 s.tck.tick [] ∧ t.host.xfers = s.host.xfers) ∧
        ((freeBool s).1 = false → Waits t r 0x0903 w ∧ t.tx = .hostRead r.port r.hostAddr r.hostLen.toNat :: u.tx ∧
          t.host.xfers = s.host.xfers ++ [{ who := w, addr := r.hostAddr, len := r.hostLen.toNat
                                            kind := .launch (leAt r.payload 0 1 == 1) (leAt r.payload 2 6) (leAt r.payload 8 4) }])) ∧
    (r.payload = [] → ∀ w u, Starts s r 0x0904 w u → ∃ t d, exec (.ntmPtpState r) s = .next (serveQueue t) ∧ Responded t r 0x0904 0 s.tck.tick d ∧ d.length = 30 ∧ leAt d 0 8 = Config.clockIdentity.toNat ∧
      leAt d 8 1 = s.ntm.p0.st % 256 ∧ leAt d 9 1 = s.ntm.p1.st % 256 ∧ leAt d 10 10 = s.ntm.parent.toNat ∧ leAt d 20 8 = s.ntm.grandmaster.toNat ∧
      leAt d 28 2 = s.ntm.stepsRemoved.toNat ∧ AnswerFrame r u t ∧ SameBut [.host, .tx] u t)

/-! ### The bedrock domain (12) -/

/-- Events of the bedrock domain: its reset and the end of it, the backup sample, the wake instant and the end of the countdown with their PWRON requests, an EV
edge with its stamp, the end of a trim window, the comparison of FOLLOW, and a set and a shift of the count that apply (R382 to R384, R386, R391 to R399). -/
def Obligations.BedrockEvents : Prop :=
  ∀ (s : State), Awake s →
    (∃ t, exec .bedrockReset s = .next t ∧ t.brk.inReset = true ∧ t.brk.sec = 946684800 ∧ t.brk.sub = 0 ∧ t.brk.trim = 0 ∧ t.brk.timeLost = true ∧ t.brk.resetSeen = true ∧
      (∀ o, fileReg (blkCfg t 0x0A).inForce 0x0A o = regReset 0x0A o) ∧ (∀ b, b ≠ 0x0A → blkCfg t b = blkCfg s b) ∧ SameBut [.brk, .cfg] s t) ∧
    (∃ t, exec .bedrockResetEnd s = .next t ∧ t = { s with brk := { s.brk with inReset := false, calOfs := if s.ntm.utc.getLsbD 16 then BitVec.ofNat 16 s.ntm.utc.toNat else s.brk.calOfs } }) ∧
    (∀ mv : BitVec 12, (2000 ≤ mv.toNat → ∃ t, exec (.backupSample mv) s = .next t ∧ t = { s with brk.backupMv := mv, brk.backupLow := false }) ∧
      (mv.toNat < 2000 → s.brk.backupLow = false → ∃ t, exec (.backupSample mv) s = .next t ∧ t.brk = { s.brk with backupMv := mv, backupLow := true } ∧
        Reports s t 0x0A34 [mv.toNat] ∧ SameBut [.brk, .recd, .host, .tx] s t)) ∧
    (s.brk.inReset = false → wakeDue s = true →
      ∃ t, exec .wakeInstant s = .next t ∧ t.brk = { s.brk with wakeSeen := true, wakeDone := rtcCount s.brk, pwron := s.brk.pwron || cfgBit s 0x0A 0x100 6 } ∧
        Reports s t 0x0A32 [0, 0, 0] ∧ SameBut [.brk, .recd, .host, .tx] s t) ∧
    (s.brk.inReset = false → s.brk.cdRun = true → s.brk.cd = 0 →
      ∃ t, exec .countdownExpiry s = .next t ∧ t.brk = { s.brk with cdRun := false, cd := 0, cdSeen := true, pwron := s.brk.pwron || cfgBit s 0x0A 0x100 7 } ∧
        Reports s t 0x0A33 [0, 0, 0] ∧ SameBut [.brk, .recd, .host, .tx] s t) ∧
    (∀ (k : Fin 4) (rising : Bool), s.brk.inReset = false → evField s k.val 0 2 = 1 → bitOf (evField s k.val 2 2) (if rising then 0 else 1) = true →
      let c := rtcCount s.brk - evField s k.val 4 4
      ∃ t, exec (.evEdge k rising) s = .next t ∧ t.brk = { s.brk with pwron := s.brk.pwron || bitOf (evField s k.val 8 1) 0 } ∧
        Reports s t 0x0A30 (stampParams { pin := k.val, rising := rising, sec := c / 32768, sub := c % 32768 } 0) ∧ SameBut [.brk, .recd, .host, .tx] s t) ∧
    (s.brk.inReset = false → (trimSource s = 1 ∨ trimSource s = 2) → trimWindowOver s = true →
      ((s.brk.winOk = true ∧ trimRefValid s = true) → ∃ t x, exec .trimWindowEnd s = .next t ∧ t.brk.trimNext = some (x, BitVec.ofNat 2 (trimSource s)) ∧
        -200000 ≤ x ∧ x ≤ 200000 ∧ t.brk.trim = s.brk.trim ∧ rtcCount t.brk = rtcCount s.brk ∧
        Reports s t 0x0A20 [toTwos 24 s.brk.trim, toTwos 24 x, trimSource s] ∧ SameBut [.brk, .recd, .host, .tx, .free] s t) ∧
      ((s.brk.winOk = false ∨ trimRefValid s = false) → ∃ t, exec .trimWindowEnd s = .next t ∧ t.brk.trim = s.brk.trim ∧ t.brk.trimNext = s.brk.trimNext ∧
        Reports s t 0x0A21 [trimSource s] ∧ SameBut [.brk, .recd, .host, .tx] s t)) ∧
    (s.brk.inReset = false → cfgBit s 0x0A 0x100 4 = true → s.ntm.quality = 0#2 → brkOpBusy s = none →
      let diff : Int := timeNs s * 32768 - ((rtcCount s.brk * 1000000000 : Nat) : Int)
      (diff.natAbs < 99 * 32768000 → ∃ t, exec .followCompare s = .next t ∧ SameBut [.free] s t) ∧
      (100 * 32768000 ≤ diff → diff < 999999 * 32768000 → ∃ t n, exec .followCompare s = .next t ∧ t.brk = { s.brk with handed := some (.shift n), handedShown := true } ∧ 0 < n ∧
        (CanRecord s 0x0A22 → ∃ d, LastReport t 0x0A22 false [0, d]) ∧ SameBut [.brk, .recd, .host, .tx, .free] s t)) ∧
    (∀ sec sub : Nat, s.brk.handed = some (.set sec sub) →
      ∃ t, exec .rtcSetApply s = .next t ∧ t.brk = { s.brk with handed := none, sec := sec, sub := sub, timeLost := false, wakeDone := sec * 32768 + sub } ∧
        Reports s t 0x0A11 [(s.brk.sec / 2 ^ 24) % 2 ^ 24, s.brk.sec % 2 ^ 24, (sec / 2 ^ 24) % 2 ^ 24, sec % 2 ^ 24] ∧ SameBut [.brk, .recd, .host, .tx] s t) ∧
    (∀ n : Int, s.brk.handed = some (.shift n) → 0 ≤ (rtcCount s.brk : Int) + n →
      ∃ t, exec .rtcShiftApply s = .next t ∧ (rtcCount t.brk : Int) = rtcCount s.brk + n ∧ t.brk.handed = none ∧ t.brk.timeLost = s.brk.timeLost ∧
        Reports s t 0x0A12 [toTwos 24 n] ∧ SameBut [.brk, .recd, .host, .tx] s t)

/-- Commands and accesses of block 0x0A: BRK_CAL_SNAP latches the snapshot of its port, BRK_COUNTDOWN_SET is noted for the next edge, BRK_SET_TIME and BRK_SHIFT
are checked as a change of the block, BRK_PWRON waits for its edge, BRK_GET_TIME returns the count, the calendar and the status (R387, R390, R397, R402, R403). -/
def Obligations.BedrockCommandsAct : Prop :=
  ∀ (s : State) (r : Req), Serving s →
    (∀ p : Port, Answers s p → ∃ t, exec (.brkCalSnapRead p) s = .next t ∧ (portSt t p).rdata = calSnap s.brk ∧ (portSt t p).snap = snapOf s.brk ∧
      { portSt t p with rdata := (portSt s p).rdata, snap := (portSt s p).snap } = portSt s p ∧ portSt t (otherPort p) = portSt s (otherPort p) ∧
      SameBut [.host, .tx] s t) ∧
    (∀ (p : Port) (v : Dword), Answers s p → (portSt s p).expert.getLsbD 0x0A = true →
      ∃ t, exec (.brkCountdownSetWrite p v) s = .next t ∧ t.brk = { s.brk with cdWritten := true } ∧ (∀ b, b ≠ 0x0A → blkCfg t b = blkCfg s b) ∧
        fileReg (blkCfg t 0x0A).written 0x0A 0x110 &&& 0xFFFFFF#32 = v &&& 0xFFFFFF#32 ∧ portSt t p = portSt s p ∧ SameBut [.brk, .cfg, .cry, .tx] s t) ∧
    (blkBusy s 0x0A = false → transPending s = false → s.brk.handed = none →
      (∀ w u, Starts s r 0x0A01 w u → ∃ t, exec (.brkSetTime r) s = .next (serveQueue t) ∧ Waits t r 0x0A01 w ∧ AnswerFrame r u t ∧ SameBut [.host, .cfg] u t ∧ (∀ b, b ≠ 0x0A → blkCfg t b = blkCfg s b) ∧
        blkCfg t 0x0A = { blkCfg s 0x0A with check := some { copy := (blkCfg s 0x0A).inForce, work := .brkOp w (setOfPay r.payload), discard := false } }) ∧
      (∀ w u, Starts s r 0x0A02 w u → ∃ t, exec (.brkShift r) s = .next (serveQueue t) ∧ Waits t r 0x0A02 w ∧ AnswerFrame r u t ∧ SameBut [.host, .cfg] u t ∧ (∀ b, b ≠ 0x0A → blkCfg t b = blkCfg s b) ∧
        blkCfg t 0x0A = { blkCfg s 0x0A with check := some { copy := (blkCfg s 0x0A).inForce, work := .brkOp w (shiftOfPay r.payload), discard := false } })) ∧
    (r.payload.length = 4 → leAt r.payload 0 1 ≤ 1 → leAt r.payload 1 3 = 0 →
      ∀ w u, Starts s r 0x0A03 w u → ∃ t, exec (.brkPwron r) s = .next (serveQueue t) ∧ Waits t r 0x0A03 w ∧ AnswerFrame r u t ∧ SameBut [.host, .tx, .brk, .cry] u t ∧
        t.brk = { s.brk with pwronOps := s.brk.pwronOps ++ [(leAt r.payload 0 1 == 1, w)] }) ∧
    (r.payload = [] → ∀ w u, Starts s r 0x0A04 w u → ∃ t, exec (.brkGetTime r) s = .next (serveQueue t) ∧ AnswerFrame r u t ∧ SameBut [.host, .tx] u t ∧ Responded t r 0x0A04 0 s.tck.tick
      (leBytes 6 s.brk.sec ++ leBytes 2 s.brk.sub ++ leBytes 4 (calendar s.brk).1.toNat ++ leBytes 4 (calendar s.brk).2.toNat ++ leBytes 4 (brkStatus s)))

/-! ### CAN and the local channels (13, 14) -/

/-- Events of a CAN controller that takes part on its bus: a frame goes to the first object that takes it, or is counted as unmatched; a frame sent leaves the
queue, an FD frame with the ESI of the error state; a frame that failed gives way to a newer one of its object; errors move the counters to error passive and bus-off, recovery ends it, a time mark starts its frame or drops it, lost synchronisation and a receive
timeout are recorded, detection goes on rate by rate (the counting of received errors, log 119) (R405, R410, R411, R412, R415 to R417, R419, R420). -/
def Obligations.CanEvents : Prop :=
  ∀ (s : State) (k : Fin 2), Awake s → let c := canAt s k.val
    (∀ f : CanFrame, canEnabled s k.val = true → c.busOff = false → c.det = none → f.remote = false → (f.fdf = true → canField s k.val 0 2 1 ≠ 0) → c.rxErr ≤ 127 → ttRole s k.val = 0 →
      ((canMatch s k.val f 128 0).1 = none → ∃ t, exec (.canFrameReceived k f) s = .next t ∧ (canAt t k.val).unmatched = satAdd c.unmatched 1 ∧ (canAt t k.val).objs = c.objs ∧
        (∀ j : Fin 2, j ≠ k → canAt t j.val = canAt s j.val) ∧ SameBut [.can] s t) ∧
      (∀ n, (canMatch s k.val f 128 0).1 = some n → hpRank s k.val n = none → (canObjSt c n).failed = false →
        ∃ t, exec (.canFrameReceived k f) s = .next t ∧ (canObjSt (canAt t k.val) n).recv = some f.data ∧ (canObjSt (canAt t k.val) n).seen = s.tck.tick.toNat + 1 ∧
          (∀ m, m ≠ n → canObjSt (canAt t k.val) m = canObjSt c m) ∧ (canAt t k.val).overwrite = (if (canObjSt c n).recv.isSome then satAdd c.overwrite 1 else c.overwrite) ∧
          (∀ j : Fin 2, j ≠ k → canAt t j.val = canAt s j.val) ∧ SameBut [.can] s t)) ∧
    (∀ n : Fin 128, canEnabled s k.val = true → objReceive s k.val n.val = true → objField s k.val n.val 8 12 12 ≠ 0 → (canObjSt c n.val).failed = false →
      (canObjSt c n.val).seen + objField s k.val n.val 8 12 12 ≤ s.tck.tick.toNat →
      ∃ t, exec (.canRxTimeout k n) s = .next t ∧ (canObjSt (canAt t k.val) n.val).failed = true ∧ (canObjSt (canAt t k.val) n.val).recv = none ∧ Reports s t 0x0B31 [k.val, n.val] ∧
        SameBut [.can, .recd, .host, .tx, .img, .tasks] s t) ∧
    (∀ f : CanTxF, canEnabled s k.val = true → canListen s k.val = false → c.cur = some f → c.busOff = false → f.obj < 128 →
      ((c.passive = false ∧ c.txErr < 128 ∧ c.rxErr < 128) ∨ (c.passive = true ∧ 128 < c.txErr ∧ c.txErr < 256)) →
      ∃ t, exec (.canTxDone k) s = .next t ∧ t.tx = .can k (if f.ide then f.id else f.id >>> 18) f.ide f.fdf f.brs (f.fdf && c.passive) f.data :: s.tx ∧ (canAt t k.val).txErr = c.txErr - 1 ∧
        (canAt t k.val).cur = none ∧ (canAt t k.val).queue = c.queue ∧ SameBut [.can, .tx] s t) ∧
    (∀ f : CanTxF, canEnabled s k.val = true → canListen s k.val = false → c.cur = some f → f.oneShot = false → c.rxErr < 128 → c.busOff = false →
      (c.txErr < 120 → c.passive = false → c.queue.any (fun x => x.obj = f.obj) = false →
        ∃ t, exec (.canTxError k .bitError) s = .next t ∧ (canAt t k.val).txErr = c.txErr + 8 ∧ (canAt t k.val).errBit = satAdd c.errBit 1 ∧ (canAt t k.val).cur = none ∧
          (canAt t k.val).queue = insertFrame f c.queue ∧ SameBut [.can] s t) ∧
      (c.txErr < 120 → c.passive = false → c.queue.any (fun x => x.obj = f.obj) = true →
        ∃ t, exec (.canTxError k .bitError) s = .next t ∧ (canAt t k.val).cur = none ∧ (canAt t k.val).queue = c.queue ∧
          (canObjSt (canAt t k.val) f.obj).hits = 0 ∧ SameBut [.can] s t) ∧
      (248 ≤ c.txErr → c.queue = [] →
        ∃ t, exec (.canTxError k .bitError) s = .next t ∧ (canAt t k.val).busOff = true ∧ (canAt t k.val).queue = [] ∧ (canAt t k.val).cur = none ∧
          (canAt t k.val).recovering = (canField s k.val 0 3 1 == 1) ∧ Reports s t 0x0B21 [k.val] ∧ SameBut [.can, .recd, .host, .tx] s t)) ∧
    (c.busOff = true → c.recovering = true →
      ∃ t, exec (.canRecoveryDone k) s = .next t ∧ canAt t k.val = { c with busOff := false, recovering := false, passive := false, txErr := 0, rxErr := 0 } ∧ Reports s t 0x0B22 [k.val] ∧
        SameBut [.can, .recd, .host, .tx] s t) ∧
    (∀ n : Fin 128, canSends s k.val = true → objSend s k.val n.val = true → objTt s k.val n.val = true → canFormatOn s k.val (objField s k.val n.val 4 29 2 != 0) = true → ttRole s k.val ≠ 0 → c.ttSync = true →
      c.cycle % 2 ^ objField s k.val n.val 0xC 22 3 = objField s k.val n.val 0xC 16 6 →
      (c.cur = none → ∃ t, exec (.canTimeMark k n true) s = .next t ∧ canAt t k.val = { c with cur := some (canFrameOf s k.val n.val (canBuild s k.val n.val)) } ∧ SameBut [.can] s t) ∧
      (∃ t, exec (.canTimeMark k n false) s = .next t ∧ Reports s t 0x0B40 [k.val, n.val, 7] ∧ SameBut [.recd, .host, .tx] s t)) ∧
    (canEnabled s k.val = true → ttRole s k.val ≠ 0 → c.ttSync = true → c.lastRef + 3 * canField s k.val 0xC 5 12 ≤ s.tck.tick.toNat →
      ∃ t, exec (.canTtSyncLost k) s = .next t ∧ canAt t k.val = { c with ttSync := false, ttLost := true } ∧ Reports s t 0x0B50 [k.val] ∧ SameBut [.can, .recd, .host, .tx] s t) ∧
    (∀ severe : Bool, canEnabled s k.val = true → canListen s k.val = false → c.busOff = false → c.passive = false → c.txErr < 128 → c.rxErr ≤ 255 →
      let e := min 255 (c.rxErr + if severe then 8 else 1)
      let q := if severe then c.errSfc else satAdd c.errSfc 1
      (e < 128 → ∃ t, exec (.canRxError k severe) s = .next t ∧ canAt t k.val = { c with rxErr := e, errSfc := q } ∧ SameBut [.can] s t) ∧
      (128 ≤ e → ∃ t, exec (.canRxError k severe) s = .next t ∧ canAt t k.val = { c with rxErr := e, errSfc := q, passive := true } ∧ Reports s t 0x0B20 [k.val] ∧ SameBut [.can, .recd, .host, .tx] s t)) ∧
    (∀ d : CanDet, c.det = some d → d.nominal = none → ((portSt s d.who.port).slots.get d.who.slot).busy = some d.who.id →
      (d.index < 8 → ∃ t, exec (.canDetectDwellEnd k .none) s = .next t ∧ canAt t k.val = { c with det := some { d with index := d.index + 1 } } ∧ SameBut [.can] s t) ∧
      (∃ t, exec (.canDetectDwellEnd k .found) s = .next t ∧ canAt t k.val = { c with det := none } ∧ SameBut [.can, .host, .tx] s t ∧
        ((portSt t d.who.port).slots.get d.who.slot).response = some { code := d.who.code, reason := 0#16, seq := d.who.seq, tick := s.tck.tick
                                                                       data := leBytes 2 (nominalRates.getD d.index 0) ++ leBytes 2 0 }))

/-- The local channels: a group that fails switches its outputs off and is recorded, and its return is; an accepted edge sets the level and counts where the
mode does; wire breaks and overloads latch, are recorded and clear; an S0 pulse of 25 ms counts and a shorter one is noted; LCH_OVERLOAD and LCH_CLEAR ask for
clears at the edge (R424, R427 to R429, R433, R435, R437, R438, R441). -/
def Obligations.LocalChannelEvents : Prop :=
  ∀ (s : State), Awake s →
    (∀ (g : Fin 4) (mv : BitVec 16), s.lch.groupFail.getLsbD g.val = false →
      ∃ t, exec (.lplusGroupFail g mv) s = .next t ∧ Reports s t 0x0C20 [g.val, mv.toNat] ∧ SameBut [.lch, .recd, .host, .tx, .tasks, .tck] s t ∧
        t.lch = { s.lch with groupFail := s.lch.groupFail ||| (1#4 <<< g.val), mv := s.lch.mv.setIfInBounds g.val mv
                             mvAt := s.lch.mvAt.setIfInBounds g.val s.now, outs := s.lch.outs &&& ~~~chBits (8 * g.val) 8 } ∧
        t.tck = { s.tck with pend := s.tck.pend.map (fun f => { f with outs := f.outs &&& ~~~chBits (8 * g.val) 8 }) }) ∧
    (∀ (g : Fin 4) (mv : BitVec 16), s.lch.groupFail.getLsbD g.val = true →
      ∃ t, exec (.lplusGroupRestore g mv) s = .next t ∧ Reports s t 0x0C21 [g.val] ∧ SameBut [.lch, .recd, .host, .tx] s t ∧
        t.lch = { s.lch with groupFail := s.lch.groupFail &&& ~~~(1#4 <<< g.val), mv := s.lch.mv.setIfInBounds g.val mv
                             mvAt := s.lch.mvAt.setIfInBounds g.val s.now }) ∧
    (∀ (ch : Fin 32), groupEnabled s (ch.val / 8) = true →
      (∀ rising : Bool, edgeMode (chMode s ch.val) = true → s.lch.level.getLsbD ch.val = !rising →
        ∃ t, exec (.localEdge ch rising) s = .next t ∧ SameBut [.lch, .tasks] s t ∧
          (∀ i : Fin 32, t.lch.level.getLsbD i.val = if i = ch then rising else s.lch.level.getLsbD i.val) ∧ (rising = true → t.lch.caught.getLsbD ch.val = true) ∧
          (∀ i : Fin 8, t.lch.count.get i = if i.val = ch.val ∧ chMode s ch.val = 5 ∧ rising = true then s.lch.count.get i + 1#24 else s.lch.count.get i) ∧
          t.lch.outs = s.lch.outs ∧ t.lch.overload = s.lch.overload) ∧
      (chMode s ch.val = 3 → s.lch.breaks.getLsbD ch.val = false →
        ∃ t, exec (.wireBreak ch) s = .next t ∧ t.lch = { s.lch with breaks := s.lch.breaks ||| chBit ch.val } ∧ Reports s t 0x0C30 [ch.val] ∧
          SameBut [.lch, .recd, .host, .tx, .tasks] s t) ∧
      (∀ on : Bool, s.lch.breaks.getLsbD ch.val = true →
        ∃ t, exec (.wireBreakClear ch on) s = .next t ∧ t.lch.breaks = s.lch.breaks &&& ~~~chBit ch.val ∧ t.lch.level.getLsbD ch.val = on ∧ Reports s t 0x0C31 [ch.val] ∧
          SameBut [.lch, .recd, .host, .tx] s t) ∧
      (∀ ms : Nat, chMode s ch.val = 6 → ch.val ≤ 7 →
        (25 ≤ ms → ∃ t, exec (.s0Pulse ch ms) s = .next t ∧ SameBut [.lch] s t ∧
          t.lch.count.toArray.getD ch.val 0#24 = s.lch.count.toArray.getD ch.val 0#24 + 1#24 ∧ t.lch.shortCnt = s.lch.shortCnt) ∧
        (2 ≤ ms → ms < 25 → ∃ t, exec (.s0Pulse ch ms) s = .next t ∧ t.lch.count = s.lch.count ∧ t.lch.shortCnt = satAdd s.lch.shortCnt 1 ∧ t.lch.shortCh = BitVec.ofNat 3 ch.val ∧
          (s.lch.shortAt = none → Reports s t 0x0C34 [ch.val, ms]) ∧ SameBut [.lch, .recd, .host, .tx] s t))) ∧
    (∀ (ch : Fin 32), chMode s ch.val = 4 → let b := chBits (outputOf s ch.val).1 (outputOf s ch.val).2
      (∃ t, exec (.outputOverload ch) s = .next t ∧
          t.lch = { s.lch with outs := s.lch.outs &&& ~~~b, overload := s.lch.overload ||| b, overAt := t.lch.overAt } ∧
          t.lch.overAt.toArray.getD (outputOf s ch.val).1 0 = s.now ∧
          t.tck = { s.tck with pend := s.tck.pend.map (fun f => { f with outs := f.outs &&& ~~~b }) } ∧
          Reports s t 0x0C32 [(outputOf s ch.val).1, (outputOf s ch.val).2] ∧ SameBut [.lch, .recd, .host, .tx, .tck] s t) ∧
      (cfgBit s 0x0C 0x100 4 = true → retryDue s (outputOf s ch.val).1 = true → s.lch.overload &&& b ≠ 0#32 →
        ∃ t, exec (.overloadRetry ch) s = .next t ∧ t.lch.overload = s.lch.overload &&& ~~~b ∧ t.lch.level = s.lch.level ∧ t.lch.breaks = s.lch.breaks ∧
          SameBut [.lch, .recd, .host, .tx] s t)) ∧
    (∀ (p : Port) (v : Dword), Serving s → Answers s p → (portSt s p).expert.getLsbD 0x0C = true →
      ∃ t, exec (.lchOverloadWrite p v) s = .next t ∧ t.lch = { s.lch with clearBits := s.lch.clearBits ||| v } ∧
        (∀ b o, fileReg (blkCfg t b).inForce b o = fileReg (blkCfg s b).inForce b o ∧ fileReg (blkCfg t b).stage b o = fileReg (blkCfg s b).stage b o) ∧ SameBut [.lch, .cfg, .cry, .tx] s t ∧
        ((holdsClaim s = false ∨ partnerShadow s = false) → SameBut [.lch, .cfg] s t)) ∧
    (∀ r : Req, Serving s → r.payload.length = 4 →
      ∀ w u, Starts s r 0x0C01 w u → ∃ t, exec (.lchClear r) s = .next (serveQueue t) ∧ Waits t r 0x0C01 w ∧ AnswerFrame r u t ∧ SameBut [.host, .tx, .lch, .cry] u t ∧
        t.lch = { s.lch with clearBits := s.lch.clearBits ||| BitVec.ofNat 32 (leAt r.payload 0 4), clearWho := s.lch.clearWho ++ [w] })

/-! ### Metering (15) -/

/-- Events of the metering: the end of a line cycle judges the frequency and, with a failed channel, adds no energy; a half cycle below the sag threshold begins
a sag; a reference that is lost is recorded; what is ready enters the results for the next cut; a latch copies the accumulators; channels fail and recover;
full-scale samples are clips; at PFW the energy of each feeder goes to slate (R444 to R446, R451, R454 to R456, R458 to R460, R481). MTR_ENERGY_GET returns the
set that entered a cut last, with its LSB and its cut; MTR_ENERGY_PRESET is checked as a change of block 0x0D (R462, R465). -/
def Obligations.MeterEventsAndCommands : Prop :=
  (∀ (s : State), ticking s = true →
      (∀ f : Fin 4, feederOn s f.val = true → let x := feederAt s f.val
        (∀ m : CycleMeas, (x.lost = false ∨ m.timed = true) →
          ∃ t, exec (.lineCycleEnd f m) s = .next t ∧ (feederAt t f.val).cyc = x.cyc + 1 ∧ (feederAt t f.val).freqValid = (!m.timed && !x.lost && nearNominal s m.periodNs) ∧
            (feederFailed s f.val = true → (feederAt t f.val).acc = x.acc ∧ (feederAt t f.val).wraps = x.wraps) ∧ (feederAt t f.val).seq = x.seq ∧
            (∀ j : Fin 4, j ≠ f → feederAt t j.val = feederAt s j.val) ∧ t.brk = { s.brk with winOk := t.brk.winOk } ∧
            (feederAt t f.val).wave = [] ∧ (feederAt t f.val).cycStart = s.now ∧ SameBut [.mtr, .brk, .recd, .host, .tx, .free] s t) ∧
        (∀ timed : Bool, (x.lost = false ∨ timed = true) →
          (x.halfPrev = none → ∃ t, exec (.halfCycleBoundary f timed) s = .next t ∧ feederAt t f.val = { x with half := HalfSum.reset, halfPrev := some x.half } ∧
            (∀ j : Fin 4, j ≠ f → feederAt t j.val = feederAt s j.val) ∧ SameBut [.mtr] s t) ∧
          (∀ p : HalfSum, x.halfPrev = some p → 0 < p.n + x.half.n → feederFailed s f.val = false → x.sag = none →
            let vs := halfSquares s f.val (halfSumAdd p x.half)
            vs.any (fun v => decide (v < pctSquare s f.val (fdrField s f.val 0x10 0 7))) = true →
            ∃ t e, exec (.halfCycleBoundary f timed) s = .next t ∧ (feederAt t f.val).sag = some e ∧ e.began = s.now ∧ e.depth = vs.foldl min (vs.getD 0 0) ∧
              (feederAt t f.val).half = HalfSum.reset ∧ (feederAt t f.val).halfPrev = some x.half ∧
              (feederAt t f.val).acc = x.acc ∧ (∀ j : Fin 4, j ≠ f → feederAt t j.val = feederAt s j.val) ∧ SameBut [.mtr, .recd, .host, .tx, .free] s t)) ∧
        (x.lost = false → ∃ t, exec (.referenceLost f) s = .next t ∧ feederAt t f.val = { x with lost := true, good := 0, freqValid := false } ∧
          (x.freqValid = true → Reports s t 0x0D20 [f.val]) ∧ (∀ j : Fin 4, j ≠ f → feederAt t j.val = feederAt s j.val) ∧
          t.brk = { s.brk with winOk := t.brk.winOk } ∧ SameBut [.mtr, .brk, .recd, .host, .tx] s t) ∧
        (x.latchPend = none → x.trig = [] → ∃ t, exec (.resultReady f) s = .next t ∧
          feederAt t f.val = { x with recv := x.pend.foldl (fun m e => smPut m e.1 e.2) x.recv, pend := [] } ∧ (∀ j : Fin 4, j ≠ f → feederAt t j.val = feederAt s j.val) ∧ SameBut [.mtr] s t) ∧
        (fdrField s f.val 0 14 16 ≤ x.cyc → x.latchPend = none → ∃ t, exec (.energyLatch f) s = .next t ∧
          feederAt t f.val = { x with seq := (x.seq + 1) % 2 ^ 24, cyc := 0, latchPend := some { acc := wholeAcc x, wraps := x.wraps.toList, seq := (x.seq + 1) % 2 ^ 24 } } ∧
          t.slt.queue = (if s.pwr.pfw || saveRuns s f.val then s.slt.queue else s.slt.queue ++
            [{ pri := 4, who := none, edge := 0#64, work := .record (0x10 + f.val) (energyPayload (wholeAcc x) x.wraps.toList ((x.seq + 1) % 2 ^ 24) 0 (s.tck.tick.toNat % 2 ^ 32)) }]) ∧ SameBut [.mtr, .slt] s t)) ∧
      (∀ c : Fin 24,
        (s.mtr.chFail.getLsbD c.val = false → ∃ t, exec (.meterChannelFail c) s = .next t ∧ t.mtr.chFail = s.mtr.chFail ||| (1#24 <<< c.val) ∧
          (channelUsed s c.val = false → t.mtr.feeders = s.mtr.feeders ∧ Reports s t 0x0D30 [c.val]) ∧
          (channelUsed s c.val = true → (feederAt t (c.val / 6)).sag = none ∧ (feederAt t (c.val / 6)).swell = none ∧ (feederAt t (c.val / 6)).intr = none) ∧
          SameBut [.mtr, .recd, .host, .tx, .tasks, .free] s t) ∧
        (s.mtr.chFail.getLsbD c.val = true → ∃ t, exec (.meterChannelRecover c) s = .next t ∧ t.mtr = { s.mtr with chFail := s.mtr.chFail &&& ~~~(1#24 <<< c.val) } ∧
          Reports s t 0x0D31 [c.val] ∧ SameBut [.mtr, .recd, .host, .tx] s t)) ∧
      (∀ xs : List Word, ∃ t, exec (.sampleInstant xs) s = .next t ∧ SameBut [.mtr, .free] s t ∧
        (∀ f : Fin 4, feederOn s f.val = true → ∃ ys, ys.length = 6 ∧ (feederAt t f.val).wave = (s.now, ys) :: (feederAt s f.val).wave) ∧
        (∀ c : Fin 24, feederOn s (c.val / 6) = true → channelUsed s c.val = true → c.val % 6 < 3 → (xs.getD c.val 0#24 = 0x7FFFFF#24 ∨ xs.getD c.val 0#24 = 0x800000#24) →
          t.mtr.clip.getLsbD c.val = true ∧ (feederAt t (c.val / 6)).clip = true) ∧
        (∀ c : Fin 24, xs.getD c.val 0#24 ≠ 0x7FFFFF#24 → xs.getD c.val 0#24 ≠ 0x800000#24 → t.mtr.clip.getLsbD c.val = s.mtr.clip.getLsbD c.val) ∧
        (∀ f : Fin 4, (feederAt t f.val).acc = (feederAt s f.val).acc)) ∧
      (∀ xs : List Word, s.pwr.pfwAt.isSome = true → s.mtr.captured = false →
        ∃ t l, exec (.pfwCapture xs) s = .next t ∧ t.mtr.captured = true ∧ t.slt.queue = s.slt.queue ++ l ∧ t.slt.mem = s.slt.mem ∧
          (∀ f : Fin 4, (feederAt t f.val).acc = (feederAt s f.val).acc ∧ (feederAt t f.val).seq = (feederAt s f.val).seq) ∧
          l.length = ([0, 1, 2, 3].filter (feederOn s)).length ∧ (∀ o ∈ l, o.pri = 2 ∧ o.who = none) ∧ SameBut [.mtr, .slt, .free] s t) ∧
      (∀ at0, s.mtr.captured = true → s.pwr.pfwAt = some at0 → at0 + 2000000 ≤ s.now →
        ∃ t, exec .pfwRecordsComplete s = .next t ∧ t.pwr = { s.pwr with pfwAt := none } ∧ Reports s t 0x0D51 [ofBits ([0, 1, 2, 3].filter (feederOn s))] ∧
          SameBut [.pwr, .recd, .host, .tx] s t)) ∧
  (∀ (s : State) (r : Req),
      (∀ (l : Latched) (n : BitVec 64), inBoot s = false → r.payload.length = 4 → leAt r.payload 1 3 = 0 → leAt r.payload 0 1 ≤ 3 → (feederAt s (leAt r.payload 0 1)).latchCut = some (l, n) →
        ∀ w u, Starts s r 0x0D01 w u → ∃ t, exec (.mtrEnergyGet r) s = .next (serveQueue t) ∧ AnswerFrame r u t ∧ SameBut [.host, .tx] u t ∧ Responded t r 0x0D01 0 s.tck.tick
          (l.acc.flatMap (leBytes 6) ++ l.wraps.flatMap (leBytes 1) ++ leBytes 3 l.seq ++ leBytes 4 (elsb s (leAt r.payload 0 1)) ++ leBytes 8 n.toNat)) ∧
      (Serving s → blkBusy s 0x0D = false → transPending s = false →
        ∀ w u, Starts s r 0x0D02 w u → ∃ t, exec (.mtrEnergyPreset r) s = .next (serveQueue t) ∧ Waits t r 0x0D02 w ∧ AnswerFrame r u t ∧ SameBut [.host, .cfg] u t ∧ (∀ b, b ≠ 0x0D → blkCfg t b = blkCfg s b) ∧
          blkCfg t 0x0D = { blkCfg s 0x0D with check := some { copy := (blkCfg s 0x0D).inForce, discard := false, work := .preset w (leAt r.payload 0 1) (leAt r.payload 1 1) (leAt r.payload 2 6) (leAt r.payload 8 1) } }))



/-! ### Slate memory and the recorder (16, 17) -/

/-- SLATE_OP_START begins the operation that R470 puts first, an earlier write of its record before it (R477); one whose time is over ends as time passes (log 1):
a read answers what it has read, a raw write lands its words and is answered with the tick of its edge. The host commands wait in the queue (reads) or for their
edge (writes), each with its operation (R470, R485 to R487). -/
def Obligations.SlateCommandsAct : Prop :=
  (∀ (s : State) (o : SltOp), mailboxUp s = true → s.slt.run = none → s.slt.claimRun = none → nextOp s.slt.queue = some o → isClaimOp o = false →
    ∃ t x, exec .slateOpStart s = .next t ∧ t.slt.run = some x ∧ x.op = o ∧ x.start = s.now ∧ (∀ a d, o.work = .raw a d → x.words = wordsInPage a d) ∧
      t.slt.queue = s.slt.queue.erase o ∧ t.slt.mem = s.slt.mem ∧ (∃ h ∈ s.slt.queue, (∀ p ∈ s.slt.queue, h.pri ≤ p.pri) ∧ (o = h ∨ sameRecord h o = true)) ∧
      SameBut [.slt, .free] s t) ∧
  (∀ (s : State) (x : SltRun) (w : Who), s.pending = [] → Awake s → s.slt.claimRun = none → s.slt.run = some x → x.finish ≤ s.now + 1 → x.op.who = some w →
      ((portSt s w.port).slots.get w.slot).busy = some w.id → (∀ o ∈ s.slt.queue, isClaimOp o = false) →
      (isWriteOp x.op = false → x.words = [] → s.slt.ecc = [] →
        ∃ t, step s = .next t ∧ t.slt.run = none ∧ t.slt.mem = s.slt.mem ∧ ((portSt t w.port).slots.get w.slot).response =
          some { code := w.code, reason := BitVec.ofNat 16 (readResult s x.op.work).1, seq := w.seq, tick := s.tck.tick, data := (readResult s x.op.work).2.take 65504 }) ∧
      (∀ a d, x.op.work = .raw a d → w.code ≠ 0x1103#16 →
        ∃ t, step s = .next t ∧ t.slt.run = none ∧ t.slt.mem = (x.words.foldl putWord s).slt.mem ∧ ((portSt t w.port).slots.get w.slot).response =
          some { code := w.code, reason := 0#16, seq := w.seq, tick := x.op.edge, data := [] })) ∧
  (∀ (s : State) (r : Req), inBoot s = false → let d := r.payload
    (leAt d 0 2 ≤ 0x1FF → leAt d 2 2 = 0 → ∀ w u, Starts s r 0x0E01 w u → ∃ t, exec (.sltRecRead r) s = .next (serveQueue t) ∧ Waits t r 0x0E01 w ∧ AnswerFrame r u t ∧ SameBut [.host, .slt] u t ∧
      t.slt = { s.slt with queue := s.slt.queue ++ [{ pri := 5, work := .readRecord (leAt d 0 2), who := some w, edge := 0#64 }] }) ∧
    (1 ≤ leAt d 2 2 → leAt d 2 2 ≤ 256 → leAt d 0 2 + leAt d 2 2 ≤ 4096 → ∀ w u, Starts s r 0x0E03 w u → ∃ t, exec (.sltTallyRead r) s = .next (serveQueue t) ∧ Waits t r 0x0E03 w ∧ AnswerFrame r u t ∧
      SameBut [.host, .slt] u t ∧ t.slt = { s.slt with queue := s.slt.queue ++ [{ pri := 5, work := .readTally (leAt d 0 2) (leAt d 2 2), who := some w, edge := 0#64 }] }) ∧
    (rawWrong d = false → leAt d 6 2 = 0 → ∀ w u, Starts s r 0x0E05 w u → ∃ t, exec (.sltRawRead r) s = .next (serveQueue t) ∧ Waits t r 0x0E05 w ∧ AnswerFrame r u t ∧ SameBut [.host, .slt] u t ∧
      t.slt = { s.slt with queue := s.slt.queue ++ [{ pri := 5, work := .readRaw (sltRawBase + leAt d 0 4) (leAt d 4 2), who := some w, edge := 0#64 }] }) ∧
    (Serving s →
      (0x100 ≤ leAt d 0 2 → leAt d 0 2 ≤ 0x1FF → leAt d 2 2 ≤ 240 → d.length = 4 + leAt d 2 2 →
        ∀ w u, Starts s r 0x0E02 w u → ∃ t, exec (.sltRecWrite r) s = .next (serveQueue t) ∧ Waits t r 0x0E02 w ∧ AnswerFrame r u t ∧ SameBut [.host, .tx, .slt, .cry] u t ∧
          t.slt = { s.slt with waits := s.slt.waits ++ [{ work := .record (leAt d 0 2) (slice d 4 (leAt d 2 2)), who := w, passedAt := s.now }] }) ∧
      (256 ≤ leAt d 0 2 → leAt d 0 2 ≤ 4095 → leAt d 2 2 = 0 → 1 ≤ leAt d 4 4 → leAt d 4 4 ≤ 16777215 →
        ∀ w u, Starts s r 0x0E04 w u → ∃ t, exec (.sltTallyAdd r) s = .next (serveQueue t) ∧ Waits t r 0x0E04 w ∧ AnswerFrame r u t ∧ SameBut [.host, .tx, .slt, .cry] u t ∧
          t.slt = { s.slt with waits := s.slt.waits ++ [{ work := .tally (leAt d 0 2) (leAt d 4 4), who := w, passedAt := s.now }] }) ∧
      (rawWrong d = false → leAt d 6 2 = 0 → d.length = 8 + leAt d 4 2 →
        ∀ w u, Starts s r 0x0E06 w u → ∃ t, exec (.sltRawWrite r) s = .next (serveQueue t) ∧ Waits t r 0x0E06 w ∧ AnswerFrame r u t ∧ SameBut [.host, .tx, .slt, .cry] u t ∧
          t.slt = { s.slt with waits := s.slt.waits ++ [{ work := .raw (sltRawBase + leAt d 0 4) (padTo (leAt d 4 2) (d.drop 8)), who := w, passedAt := s.now }] })))

/-- Reading the recorder: the window reads as empty at REC_HEAD and else gives the slot at the cursor, a first read of its last word moves the cursor on,
REC_SEEK places the cursor, REC_READ and REC_ARCHIVE_READ send slots to the host's memory, a segment whose CRC fails apart, REC_TAIL_READ waits in the slate
queue as a read of its slots (R498, R499, R502, R504). What the
recorder keeps outside the ring: TAIL_COPY queues the three writes of one slot and moves to the next, ARCHIVE_SEGMENT_WRITE takes the next segment of a flush
and answers it (R500, R501). -/
def Obligations.RecorderReadsAndCopies : Prop :=
  ((∀ (s : State) (p : Port), Answers s p →
      ((portSt s p).cursor = s.recd.head → ∃ t, exec (.recWinStateRead p) s = .next t ∧ (portSt t p).rdata = 1#32 ∧ (portSt t p).winState = .empty ∧
        (portSt t p).winData = List.replicate 32 0#8 ∧ (portSt t p).winFresh = false ∧ (portSt t p).cursor = (portSt s p).cursor ∧
        portSt t (otherPort p) = portSt s (otherPort p) ∧ SameBut [.host, .tx, .free] s t) ∧
      (∀ (e : RingRec) (d : List Byte), (portSt s p).cursor ≠ s.recd.head → ringRecAt s.recd (portSt s p).cursor = some e → e.entered + 2000 ≤ s.now →
        ringSlot s.recd (portSt s p).cursor = some d →
        ∃ t, exec (.recWinStateRead p) s = .next t ∧ (portSt t p).rdata = 0#32 ∧ (portSt t p).winState = .valid ∧ (portSt t p).winData = d ∧ (portSt t p).winFresh = true ∧
          (portSt t p).cursor = (portSt s p).cursor ∧ portSt t (otherPort p) = portSt s (otherPort p) ∧ SameBut [.host, .tx] s t) ∧
      (∃ t, exec (.recWin7Read p) s = .next t ∧ (portSt t p).rdata = BitVec.ofNat 32 (leAt (portSt s p).winData 28 4) ∧ (portSt t p).winFresh = false ∧
        (portSt t p).cursor = (portSt s p).cursor + b2n (portSt s p).winFresh ∧ portSt t (otherPort p) = portSt s (otherPort p) ∧ SameBut [.host, .tx] s t)) ∧
    (∀ (s : State) (r : Req), inBoot s = false → let d := r.payload
      (∀ i, d.length = 8 → leAt d 1 3 = 0 → (leAt d 0 1 = 1 ∧ i = s.recd.oldest ∨ leAt d 0 1 = 2 ∧ i = s.recd.head) →
        ∀ w u, Starts s r 0x0F01 w u → ∃ t, exec (.recSeek r) s = .next (serveQueue t) ∧ Responded t r 0x0F01 0 s.tck.tick (leBytes 4 i) ∧ (portSt t r.port).cursor = i ∧
          (portSt t (otherPort r.port)).cursor = (portSt s (otherPort r.port)).cursor ∧ SameBut [.host, .tx] u t) ∧
      (∀ i, d.length = 8 → indexOf s.recd (leAt d 0 4) = some i → s.recd.oldest ≤ i → i + leAt d 4 4 ≤ s.recd.head → 1 ≤ leAt d 4 4 → leAt d 4 4 ≤ 65536 →
        ∀ w u, Starts s r 0x0F02 w u → ∃ t b, exec (.recRead r) s = .next (serveQueue t) ∧ Waits t r 0x0F02 w ∧ t.tx = .hostWrite r.port r.hostAddr b :: u.tx ∧
          b = padTo r.hostLen.toNat ((List.range (leAt d 4 4)).flatMap (fun j => (ringSlot s.recd (i + j)).getD (List.replicate 32 0#8))) ∧
          t.host.xfers = s.host.xfers ++ [{ who := w, addr := r.hostAddr, len := r.hostLen.toNat, kind := .toHost b }] ∧ SameBut [.host, .tx] u t) ∧
      (d.length = 4 → 1 ≤ leAt d 2 2 → leAt d 2 2 ≤ 2048 → leAt d 2 2 ≤ leAt d 0 2 + 1 →
        ∀ w u, Starts s r 0x0F03 w u → ∃ t, exec (.recTailRead r) s = .next (serveQueue t) ∧ Waits t r 0x0F03 w ∧ AnswerFrame r u t ∧ SameBut [.host, .slt] u t ∧
          t.slt = { s.slt with queue := s.slt.queue ++ [{ pri := 5, work := .readTail (s.recd.tailNext.toNat + 131071 - leAt d 0 2) (leAt d 2 2), who := some w
                                                          edge := 0#64 }] }) ∧
      (∀ g, d.length = 4 → leAt d 2 2 = 0 → s.recd.archive[leAt d 0 2]? = some g →
        (segmentOk g = true → ∀ w u, Starts s r 0x0F04 w u → ∃ t, exec (.recArchiveRead r) s = .next (serveQueue t) ∧ Waits t r 0x0F04 w ∧
          t.tx = .hostWrite r.port r.hostAddr (padTo r.hostLen.toNat (segmentBytes g)) :: u.tx ∧ SameBut [.host, .tx] u t) ∧
        (segmentOk g = false → ∀ w u, Starts s r 0x0F04 w u → ∃ t, exec (.recArchiveRead r) s = .next (serveQueue t) ∧ Responded t r 0x0F04 0x0F03 s.tck.tick [] ∧
          AnswerFrame r u t ∧ SameBut [.host, .tx] u t)) ∧
      (d = [] → ∀ w u, Starts s r 0x0F05 w u → ∃ t, exec (.recArchiveFlush r) s = .next (serveQueue t) ∧ Waits t r 0x0F05 w ∧ t.recd = { s.recd with flushes := s.recd.flushes ++ [w] } ∧ AnswerFrame r u t ∧
        SameBut [.host, .tx, .recd, .cry] u t))) ∧
  (∀ (s : State), Awake s →
      (∀ (d : List Byte) (rest : List (List Byte)), s.recd.tailQueue = d :: rest → s.recd.tailSkipped = 0 → (s.recd.tailCopies + 1) % 1024 ≠ 0 →
        let a := sltTailBase + 32 * s.recd.tailNext.toNat
        let x := withPass d s.recd.tailPass
        ∃ t, exec .tailCopy s = .next t ∧ t.recd.tailQueue = rest ∧ t.recd.tailNext = s.recd.tailNext + 1#16 ∧
          t.recd.tailPass = (if s.recd.tailNext = 0xFFFF#16 then !s.recd.tailPass else s.recd.tailPass) ∧
          t.slt.queue = s.slt.queue ++ [.raw a (List.replicate 8 0#8), .raw (a + 8) (slice x 8 24), .raw a (x.take 8)].map
            (fun w => { pri := tailPri s, work := w, who := none, edge := 0#64 }) ∧ t.recd.ring = s.recd.ring ∧ SameBut [.recd, .slt] s t) ∧
      (∀ (w : Who) (rest : List Who), s.recd.flushes = w :: rest → segmentDue s = false → s.recd.oldest ≤ s.recd.archNext → s.recd.archNext ≤ s.recd.head →
        ((portSt s w.port).slots.get w.slot).busy = some w.id →
        ∃ t g, exec .archiveSegmentWrite s = .next t ∧ t.recd.archive = (g :: s.recd.archive).take 3072 ∧ g.first = s.recd.archNext ∧
          g.slots.length = min 2047 (s.recd.head - s.recd.archNext) ∧ t.recd.archNext = s.recd.archNext + min 2047 (s.recd.head - s.recd.archNext) ∧ t.recd.flushes = rest ∧
          ((portSt t w.port).slots.get w.slot).response = some { code := w.code, reason := 0#16, seq := w.seq, tick := s.tck.tick, data := [] } ∧
          t.recd.ring = s.recd.ring ∧ SameBut [.recd, .host, .tx] s t))



/-! ### Watchdog and firmware (18, 19) -/

/-- A service within the window with every registered bit set restarts the count; without one it is refused and recorded; a wrong key, a service outside the
window and the expiry reset the part with cause 4 and leave evidence, which the host reads and asks to clear (R506, R509 to R513, R518, R520). -/
def Obligations.WatchdogServicesAndExpiry : Prop :=
  ∀ (s : State), Awake s →
    (∀ (p : Port) (v : Dword), hostServices s = true → Answers s p → (portSt s p).expert.getLsbD 0x10 = true →
      (field v.toNat 0 16 = 0x5AC3 → wdtOpen s ≤ wdtCount s → wdtCount s < wdtT s →
        (missingBits s = 0#32 → ∃ t, exec (.wdtServiceWrite p v) s = .next t ∧ SameBut [.wdt] s t ∧
          t.wdt = { s.wdt with since := s.now, set := 0#32, serviced := true, svcTick := s.tck.tick, svcSec := s.ntm.sec, svcNsq := stampNow s }) ∧
        (missingBits s ≠ 0#32 → ∃ t, exec (.wdtServiceWrite p v) s = .next t ∧ t.wdt = { s.wdt with refused := satAdd s.wdt.refused 1 } ∧
          Reports s t 0x1010 [(missingBits s).toNat % 2 ^ 24, (missingBits s).toNat / 2 ^ 24, wdtCount s] ∧ SameBut [.wdt, .recd, .host, .tx] s t)) ∧
      ((field v.toNat 0 16 ≠ 0x5AC3 ∨ wdtCount s < wdtOpen s ∨ wdtT s ≤ wdtCount s) →
        ∃ t, exec (.wdtServiceWrite p v) s = .next t ∧ t.tck.mode = .boot ∧ t.tck.cause = 4#4 ∧ t.tck.prevMode = BitVec.ofNat 3 (modeNo s.tck.mode) ∧
          (s.brk.inReset = false → leAt t.brk.evidence 0 4 = 0x57444556 ∧
            leAt t.brk.evidence 4 1 = (if field v.toNat 0 16 ≠ 0x5AC3 then 2 else if wdtCount s < wdtOpen s then 1 else 0)))) ∧
    (hostServices s = false → wdtOpen s ≤ wdtCount s → wdtCount s < wdtT s → missingBits s = 0#32 →
      ∃ t, exec .supervisorService s = .next t ∧ SameBut [.wdt] s t ∧
        t.wdt = { s.wdt with since := s.now, set := 0#32, serviced := true, svcTick := s.tck.tick, svcSec := s.ntm.sec, svcNsq := stampNow s }) ∧
    (wdtT s ≤ wdtCount s → ∃ t, exec .watchdogExpiry s = .next t ∧ t.tck.mode = .boot ∧ t.tck.cause = 4#4 ∧ (∀ p, portSt t p = { PortState.reset with perst := (portSt s p).perst }) ∧
      (∀ k : Fin 64, t.host.sems.get k = none) ∧ t.host.queue = [] ∧
      (s.brk.inReset = false → leAt t.brk.evidence 0 4 = 0x57444556 ∧ leAt t.brk.evidence 4 1 = 0)) ∧
    (∀ r : Req, inBoot s = false →
      (r.payload = [] → ∀ w u, Starts s r 0x1001 w u → ∃ t, exec (.wdtEvidenceGet r) s = .next (serveQueue t) ∧ Responded t r 0x1001 0 s.tck.tick (s.brk.evidence ++ leBytes 1 (b2n (evidenceValid s.brk.evidence))) ∧ AnswerFrame r u t ∧
        SameBut [.host, .tx] u t) ∧
      (r.payload.length = 8 → evidenceValid s.brk.evidence = true → leAt s.brk.evidence 24 8 = leAt r.payload 0 8 →
        ∀ w u, Starts s r 0x1002 w u → ∃ t, exec (.wdtEvidenceClear r) s = .next (serveQueue t) ∧ Waits t r 0x1002 w ∧ t.wdt = { s.wdt with clear := s.wdt.clear ++ [w] } ∧ AnswerFrame r u t ∧
          SameBut [.host, .tx, .wdt, .cry] u t))

/-- Firmware events: a card comes or goes and abandons a staging, which answers 0x110A with its cause (the model's form, log 97), the end of a staging makes its slot
valid or fails with 0x1109, a unit in BOOT without a slot that verifies waits for a card with a package that does, stages it into slot 0 and begins the
pointer write (log 128), a trial whose confirmation time ends stores
the settings of its slot and orders the pointer write (R521, R527, R528, R534 to R536). -/
def Obligations.FirmwareEvents : Prop :=
  ∀ (s : State), Awake s →
    (∀ c : Option Card, s.fwu.staging = none → ∃ t, exec (.sdCardDetect c) s = .next t ∧ t = { s with fwu.card := c }) ∧
    (∀ (c : Option Card) (g : Staging) (w : Who), s.fwu.staging = some g → g.who = some w → ((portSt s w.port).slots.get w.slot).busy = some w.id →
      (∃ t, exec (.sdCardDetect c) s = .next t ∧ t.fwu = { s.fwu with staging := none, card := c } ∧
        ((portSt t w.port).slots.get w.slot).response = some { code := w.code, reason := 0x110A#16, seq := w.seq, tick := s.tck.tick, data := [0#8] } ∧
        SameBut [.fwu, .host, .tx] s t) ∧
      (s.fwu.noSlot = false → ∃ t, exec (.stagingEnd .passed) s = .next t ∧ t.fwu.staging = none ∧ slotValid (slotOf t g.slot) = true ∧ (slotOf t g.slot).package = g.package ∧ t.fwu.running = s.fwu.running ∧
        ((portSt t w.port).slots.get w.slot).response = some { code := w.code, reason := 0#16, seq := w.seq, tick := s.tck.tick, data := [] } ∧
        SameBut [.fwu, .recd, .host, .tx] s t) ∧
      (∃ t, exec (.stagingEnd .cardReadFailed) s = .next t ∧ t.fwu = { s.fwu with staging := none } ∧
        ((portSt t w.port).slots.get w.slot).response = some { code := w.code, reason := 0x110A#16, seq := w.seq, tick := s.tck.tick, data := [1#8] } ∧
        SameBut [.fwu, .host, .tx] s t) ∧
      (∃ t, exec (.stagingEnd .readBackFailed) s = .next t ∧ t.fwu = { s.fwu with staging := none } ∧
        ((portSt t w.port).slots.get w.slot).response = some { code := w.code, reason := 0x1109#16, seq := w.seq, tick := s.tck.tick, data := [] } ∧
        SameBut [.fwu, .host, .tx] s t)) ∧
    (s.tck.mode = .boot → s.fwu.noSlot = true → s.fwu.staging = none → s.slt.run = none →
      ((cardFiles s).bind (fun l => l.find? (fun f => (pkgReject true f.data).isNone)) = none → exec .sdPoll s = .next s) ∧
      (∀ f, (cardFiles s).bind (fun l => l.find? (fun f => (pkgReject true f.data).isNone)) = some f →
        ∃ t, exec .sdPoll s = .next t ∧ t.fwu.staging = some { who := none, slot := 0, package := f.data } ∧ slotValid t.fwu.slot0 = false ∧
          t.fwu.slot1 = s.fwu.slot1 ∧ SameBut [.fwu] s t)) ∧
    (∀ g : Staging, s.fwu.staging = some g → g.who = none → s.fwu.noSlot = true →
      (∃ t x p, exec (.stagingEnd .passed) s = .next t ∧ t.fwu.staging = none ∧ slotValid (slotOf t g.slot) = true ∧ (slotOf t g.slot).package = g.package ∧
        t.slt.run = some x ∧ x.op.work = .record 1 p ∧ leAt p 0 1 = g.slot % 256 ∧ leAt p 1 1 = 0 ∧ leAt p 4 4 = pkgVersion g.package ∧ x.start = s.now) ∧
      (∀ res, res = .cardReadFailed ∨ res = .readBackFailed → ∃ t, exec (.stagingEnd res) s = .next t ∧ t = { s with fwu.staging := none }) ∧
      (∀ c : Option Card, ∃ t, exec (.sdCardDetect c) s = .next t ∧ t = { s with fwu.staging := none, fwu.card := c })) ∧
    (s.fwu.trial = true → ticking s = true → trialOver s = true →
      ∃ t p, exec .trialConfirmTimeout s = .next t ∧ t.fwu.trial = false ∧ (slotOf t (runningSlot s)).settings.isSome = true ∧
        t.slt.queue = s.slt.queue ++ [{ pri := 3, work := .record 1 p, who := none, edge := 0#64 }] ∧ p.length = 16 ∧ leAt p 1 1 = 0 ∧
        Reports s t 0x1123 [pkgVersion (slotOf s (runningSlot s)).package % 2 ^ 24] ∧ SameBut [.fwu, .slt, .recd, .host, .tx] s t)

/-- Commands of block 0x11: FWU_SCAN lists the packages of the card, FWU_STAGE in STOP makes the other slot invalid and stages a package that passes its checks,
FWU_ACTIVATE orders the pointer write for a valid slot, FWU_CONFIRM ends the trial, FWU_INFO waits in the slate queue as a read of both slots and the pointer (R522, R527, R530, R534, R538). -/
def Obligations.FirmwareCommandsAct : Prop :=
  ∀ (s : State) (r : Req), Serving s →
    (∀ l, cardFiles s = some l →
      (r.payload = [] → ∀ w u, Starts s r 0x1101 w u → ∃ t, exec (.fwuScan r) s = .next (serveQueue t) ∧ Responded t r 0x1101 0 s.tck.tick
          (l.flatMap (fun f => leBytes 2 f.name.length ++ f.name ++ leBytes 4 f.data.length ++ padTo 32 f.data)) ∧ AnswerFrame r u t ∧ SameBut [.host, .tx] u t) ∧
      (∀ f, r.payload.length = 4 + leAt r.payload 0 2 → leAt r.payload 2 2 = 0 → s.tck.mode = .stop → s.fwu.trial = false → s.fwu.staging = none → l.find? (fun f => f.name == slice r.payload 4 (leAt r.payload 0 2)) = some f →
        (pkgReject true f.data = none →
          ∀ w u, Starts s r 0x1102 w u → ∃ t, exec (.fwuStage r) s = .next (serveQueue t) ∧ Waits t r 0x1102 w ∧ t.fwu.staging = some { who := some w, slot := otherSlot s, package := f.data } ∧
            slotValid (slotOf t (otherSlot s)) = false ∧ slotOf t (runningSlot s) = slotOf s (runningSlot s) ∧ AnswerFrame r u t ∧ SameBut [.host, .fwu] u t) ∧
        (∀ c, pkgReject true f.data = some c →
          ∀ w u, Starts s r 0x1102 w u → ∃ t, exec (.fwuStage r) s = .next (serveQueue t) ∧ Responded t r 0x1102 c s.tck.tick [] ∧ AnswerFrame r u t ∧ SameBut [.host, .tx] u t))) ∧
    (r.payload.length = 4 → leAt r.payload 1 3 = 0 → s.tck.mode = .stop → s.fwu.trial = false → slotValid (slotOf s (otherSlot s)) = true → isPair s = false →
      ∀ w u, Starts s r 0x1103 w u → ∃ t p, exec (.fwuActivate r) s = .next (serveQueue t) ∧ Waits t r 0x1103 w ∧ t.slt = { s.slt with queue := s.slt.queue ++ [{ pri := 3, work := .record 1 p, who := some w, edge := 0#64 }] } ∧
        leAt p 0 1 = otherSlot s % 256 ∧ leAt p 1 1 = 1 ∧ leAt p 3 1 = runningSlot s % 256 ∧ leAt p 4 4 = pkgVersion (slotOf s (otherSlot s)).package ∧ AnswerFrame r u t ∧
        SameBut [.host, .slt] u t) ∧
    (s.fwu.trial = true → r.payload = [] → ∀ w u, Starts s r 0x1104 w u → ∃ t, exec (.fwuConfirm r) s = .next (serveQueue t) ∧ Responded t r 0x1104 0 s.tck.tick [] ∧ t.fwu.trial = false ∧ (slotOf t (runningSlot s)).settings.isSome = true ∧
      (CanRecord s 0x1123 → LastReport t 0x1123 false [pkgVersion (slotOf s (runningSlot s)).package % 2 ^ 24]) ∧ SameBut [.fwu, .slt, .recd, .host, .tx] u t) ∧
    (r.payload = [] → ∀ w u, Starts s r 0x1105 w u → ∃ t, exec (.fwuInfo r) s = .next (serveQueue t) ∧ Waits t r 0x1105 w ∧ AnswerFrame r u t ∧ SameBut [.host, .slt] u t ∧
      t.slt = { s.slt with queue := s.slt.queue ++ [{ pri := 5, work := .readInfo, who := some w, edge := 0#64 }] } ∧
      readResult s .readInfo = (0, (if slotValid s.fwu.slot0 then leBytes 1 1 ++ padTo 448 s.fwu.slot0.package else leBytes 1 0) ++
        (if slotValid s.fwu.slot1 then leBytes 1 1 ++ padTo 448 s.fwu.slot1.package else leBytes 1 0) ++ pointerNow s))
end

