-- ==== Sys2Proof/Laws/State.lean ====
section
/-! SUPPORT. What each named update of the state leaves alone, part by part, and what reading after it gives. -/
namespace Sys2Proof.Machine
open Sys2Proof

@[simp] theorem emit_parts (s : State) (x : Tx) :
    (emit s x).pending = s.pending ∧ (emit s x).free = s.free ∧ (emit s x).now = s.now ∧ (emit s x).tck = s.tck ∧ (emit s x).pwr = s.pwr ∧ (emit s x).host = s.host ∧ (emit s x).cfg = s.cfg ∧ (emit s x).slt = s.slt ∧ (emit s x).recd = s.recd ∧ (emit s x).img = s.img ∧ (emit s x).ldr = s.ldr ∧ (emit s x).tasks = s.tasks ∧ (emit s x).chg = s.chg ∧ (emit s x).rods = s.rods ∧ (emit s x).trk = s.trk ∧ (emit s x).ntm = s.ntm ∧ (emit s x).lnk = s.lnk ∧ (emit s x).cry = s.cry ∧ (emit s x).brk = s.brk ∧ (emit s x).can = s.can ∧ (emit s x).lch = s.lch ∧ (emit s x).mtr = s.mtr ∧ (emit s x).wdt = s.wdt ∧ (emit s x).fwu = s.fwu := by
  exact ⟨rfl, rfl, rfl, rfl, rfl, rfl, rfl, rfl, rfl, rfl, rfl, rfl, rfl, rfl, rfl, rfl, rfl, rfl, rfl, rfl, rfl, rfl, rfl, rfl⟩
@[simp] theorem freeBool_parts (s : State) :
    (freeBool s).2.pending = s.pending ∧ (freeBool s).2.tx = s.tx ∧ (freeBool s).2.now = s.now ∧ (freeBool s).2.tck = s.tck ∧ (freeBool s).2.pwr = s.pwr ∧ (freeBool s).2.host = s.host ∧ (freeBool s).2.cfg = s.cfg ∧ (freeBool s).2.slt = s.slt ∧ (freeBool s).2.recd = s.recd ∧ (freeBool s).2.img = s.img ∧ (freeBool s).2.ldr = s.ldr ∧ (freeBool s).2.tasks = s.tasks ∧ (freeBool s).2.chg = s.chg ∧ (freeBool s).2.rods = s.rods ∧ (freeBool s).2.trk = s.trk ∧ (freeBool s).2.ntm = s.ntm ∧ (freeBool s).2.lnk = s.lnk ∧ (freeBool s).2.cry = s.cry ∧ (freeBool s).2.brk = s.brk ∧ (freeBool s).2.can = s.can ∧ (freeBool s).2.lch = s.lch ∧ (freeBool s).2.mtr = s.mtr ∧ (freeBool s).2.wdt = s.wdt ∧ (freeBool s).2.fwu = s.fwu := by
  exact ⟨rfl, rfl, rfl, rfl, rfl, rfl, rfl, rfl, rfl, rfl, rfl, rfl, rfl, rfl, rfl, rfl, rfl, rfl, rfl, rfl, rfl, rfl, rfl, rfl⟩
@[simp] theorem freeNat_parts (s : State) :
    (freeNat s).2.pending = s.pending ∧ (freeNat s).2.tx = s.tx ∧ (freeNat s).2.now = s.now ∧ (freeNat s).2.tck = s.tck ∧ (freeNat s).2.pwr = s.pwr ∧ (freeNat s).2.host = s.host ∧ (freeNat s).2.cfg = s.cfg ∧ (freeNat s).2.slt = s.slt ∧ (freeNat s).2.recd = s.recd ∧ (freeNat s).2.img = s.img ∧ (freeNat s).2.ldr = s.ldr ∧ (freeNat s).2.tasks = s.tasks ∧ (freeNat s).2.chg = s.chg ∧ (freeNat s).2.rods = s.rods ∧ (freeNat s).2.trk = s.trk ∧ (freeNat s).2.ntm = s.ntm ∧ (freeNat s).2.lnk = s.lnk ∧ (freeNat s).2.cry = s.cry ∧ (freeNat s).2.brk = s.brk ∧ (freeNat s).2.can = s.can ∧ (freeNat s).2.lch = s.lch ∧ (freeNat s).2.mtr = s.mtr ∧ (freeNat s).2.wdt = s.wdt ∧ (freeNat s).2.fwu = s.fwu := by
  exact ⟨rfl, rfl, rfl, rfl, rfl, rfl, rfl, rfl, rfl, rfl, rfl, rfl, rfl, rfl, rfl, rfl, rfl, rfl, rfl, rfl, rfl, rfl, rfl, rfl⟩
@[simp] theorem freeInt_parts (s : State) :
    (freeInt s).2.pending = s.pending ∧ (freeInt s).2.tx = s.tx ∧ (freeInt s).2.now = s.now ∧ (freeInt s).2.tck = s.tck ∧ (freeInt s).2.pwr = s.pwr ∧ (freeInt s).2.host = s.host ∧ (freeInt s).2.cfg = s.cfg ∧ (freeInt s).2.slt = s.slt ∧ (freeInt s).2.recd = s.recd ∧ (freeInt s).2.img = s.img ∧ (freeInt s).2.ldr = s.ldr ∧ (freeInt s).2.tasks = s.tasks ∧ (freeInt s).2.chg = s.chg ∧ (freeInt s).2.rods = s.rods ∧ (freeInt s).2.trk = s.trk ∧ (freeInt s).2.ntm = s.ntm ∧ (freeInt s).2.lnk = s.lnk ∧ (freeInt s).2.cry = s.cry ∧ (freeInt s).2.brk = s.brk ∧ (freeInt s).2.can = s.can ∧ (freeInt s).2.lch = s.lch ∧ (freeInt s).2.mtr = s.mtr ∧ (freeInt s).2.wdt = s.wdt ∧ (freeInt s).2.fwu = s.fwu := by
  exact ⟨rfl, rfl, rfl, rfl, rfl, rfl, rfl, rfl, rfl, rfl, rfl, rfl, rfl, rfl, rfl, rfl, rfl, rfl, rfl, rfl, rfl, rfl, rfl, rfl⟩
@[simp] theorem setPort_parts (s : State) (p : Port) (f : PortState → PortState) :
    (setPort s p f).pending = s.pending ∧ (setPort s p f).tx = s.tx ∧ (setPort s p f).free = s.free ∧ (setPort s p f).now = s.now ∧ (setPort s p f).tck = s.tck ∧ (setPort s p f).pwr = s.pwr ∧ (setPort s p f).cfg = s.cfg ∧ (setPort s p f).slt = s.slt ∧ (setPort s p f).recd = s.recd ∧ (setPort s p f).img = s.img ∧ (setPort s p f).ldr = s.ldr ∧ (setPort s p f).tasks = s.tasks ∧ (setPort s p f).chg = s.chg ∧ (setPort s p f).rods = s.rods ∧ (setPort s p f).trk = s.trk ∧ (setPort s p f).ntm = s.ntm ∧ (setPort s p f).lnk = s.lnk ∧ (setPort s p f).cry = s.cry ∧ (setPort s p f).brk = s.brk ∧ (setPort s p f).can = s.can ∧ (setPort s p f).lch = s.lch ∧ (setPort s p f).mtr = s.mtr ∧ (setPort s p f).wdt = s.wdt ∧ (setPort s p f).fwu = s.fwu := by
  cases p <;> exact ⟨rfl, rfl, rfl, rfl, rfl, rfl, rfl, rfl, rfl, rfl, rfl, rfl, rfl, rfl, rfl, rfl, rfl, rfl, rfl, rfl, rfl, rfl, rfl, rfl⟩
@[simp] theorem setBlk_parts (s : State) (b : Nat) (f : BlkCfg → BlkCfg) :
    (setBlk s b f).pending = s.pending ∧ (setBlk s b f).tx = s.tx ∧ (setBlk s b f).free = s.free ∧ (setBlk s b f).now = s.now ∧ (setBlk s b f).tck = s.tck ∧ (setBlk s b f).pwr = s.pwr ∧ (setBlk s b f).host = s.host ∧ (setBlk s b f).slt = s.slt ∧ (setBlk s b f).recd = s.recd ∧ (setBlk s b f).img = s.img ∧ (setBlk s b f).ldr = s.ldr ∧ (setBlk s b f).tasks = s.tasks ∧ (setBlk s b f).chg = s.chg ∧ (setBlk s b f).rods = s.rods ∧ (setBlk s b f).trk = s.trk ∧ (setBlk s b f).ntm = s.ntm ∧ (setBlk s b f).lnk = s.lnk ∧ (setBlk s b f).cry = s.cry ∧ (setBlk s b f).brk = s.brk ∧ (setBlk s b f).can = s.can ∧ (setBlk s b f).lch = s.lch ∧ (setBlk s b f).mtr = s.mtr ∧ (setBlk s b f).wdt = s.wdt ∧ (setBlk s b f).fwu = s.fwu := by
  exact ⟨rfl, rfl, rfl, rfl, rfl, rfl, rfl, rfl, rfl, rfl, rfl, rfl, rfl, rfl, rfl, rfl, rfl, rfl, rfl, rfl, rfl, rfl, rfl, rfl⟩
@[simp] theorem setRod_parts (s : State) (n : Nat) (r : Rod) :
    (setRod s n r).pending = s.pending ∧ (setRod s n r).tx = s.tx ∧ (setRod s n r).free = s.free ∧ (setRod s n r).now = s.now ∧ (setRod s n r).tck = s.tck ∧ (setRod s n r).pwr = s.pwr ∧ (setRod s n r).host = s.host ∧ (setRod s n r).cfg = s.cfg ∧ (setRod s n r).slt = s.slt ∧ (setRod s n r).recd = s.recd ∧ (setRod s n r).img = s.img ∧ (setRod s n r).ldr = s.ldr ∧ (setRod s n r).tasks = s.tasks ∧ (setRod s n r).chg = s.chg ∧ (setRod s n r).trk = s.trk ∧ (setRod s n r).ntm = s.ntm ∧ (setRod s n r).lnk = s.lnk ∧ (setRod s n r).cry = s.cry ∧ (setRod s n r).brk = s.brk ∧ (setRod s n r).can = s.can ∧ (setRod s n r).lch = s.lch ∧ (setRod s n r).mtr = s.mtr ∧ (setRod s n r).wdt = s.wdt ∧ (setRod s n r).fwu = s.fwu := by
  exact ⟨rfl, rfl, rfl, rfl, rfl, rfl, rfl, rfl, rfl, rfl, rfl, rfl, rfl, rfl, rfl, rfl, rfl, rfl, rfl, rfl, rfl, rfl, rfl, rfl⟩
@[simp] theorem setLink_parts (s : State) (k : Nat) (f : Link → Link) :
    (setLink s k f).pending = s.pending ∧ (setLink s k f).tx = s.tx ∧ (setLink s k f).free = s.free ∧ (setLink s k f).now = s.now ∧ (setLink s k f).tck = s.tck ∧ (setLink s k f).pwr = s.pwr ∧ (setLink s k f).host = s.host ∧ (setLink s k f).cfg = s.cfg ∧ (setLink s k f).slt = s.slt ∧ (setLink s k f).recd = s.recd ∧ (setLink s k f).img = s.img ∧ (setLink s k f).ldr = s.ldr ∧ (setLink s k f).tasks = s.tasks ∧ (setLink s k f).chg = s.chg ∧ (setLink s k f).rods = s.rods ∧ (setLink s k f).trk = s.trk ∧ (setLink s k f).ntm = s.ntm ∧ (setLink s k f).cry = s.cry ∧ (setLink s k f).brk = s.brk ∧ (setLink s k f).can = s.can ∧ (setLink s k f).lch = s.lch ∧ (setLink s k f).mtr = s.mtr ∧ (setLink s k f).wdt = s.wdt ∧ (setLink s k f).fwu = s.fwu := by
  exact ⟨rfl, rfl, rfl, rfl, rfl, rfl, rfl, rfl, rfl, rfl, rfl, rfl, rfl, rfl, rfl, rfl, rfl, rfl, rfl, rfl, rfl, rfl, rfl, rfl⟩
@[simp] theorem setBank_parts (s : State) (b : BankId) (f : BankSt → BankSt) :
    (setBank s b f).pending = s.pending ∧ (setBank s b f).tx = s.tx ∧ (setBank s b f).free = s.free ∧ (setBank s b f).now = s.now ∧ (setBank s b f).tck = s.tck ∧ (setBank s b f).pwr = s.pwr ∧ (setBank s b f).host = s.host ∧ (setBank s b f).cfg = s.cfg ∧ (setBank s b f).slt = s.slt ∧ (setBank s b f).recd = s.recd ∧ (setBank s b f).img = s.img ∧ (setBank s b f).tasks = s.tasks ∧ (setBank s b f).chg = s.chg ∧ (setBank s b f).rods = s.rods ∧ (setBank s b f).trk = s.trk ∧ (setBank s b f).ntm = s.ntm ∧ (setBank s b f).lnk = s.lnk ∧ (setBank s b f).cry = s.cry ∧ (setBank s b f).brk = s.brk ∧ (setBank s b f).can = s.can ∧ (setBank s b f).lch = s.lch ∧ (setBank s b f).mtr = s.mtr ∧ (setBank s b f).wdt = s.wdt ∧ (setBank s b f).fwu = s.fwu := by
  cases b <;> exact ⟨rfl, rfl, rfl, rfl, rfl, rfl, rfl, rfl, rfl, rfl, rfl, rfl, rfl, rfl, rfl, rfl, rfl, rfl, rfl, rfl, rfl, rfl, rfl, rfl⟩
@[simp] theorem setCan_parts (s : State) (k : Nat) (f : CanCtl → CanCtl) :
    (setCan s k f).pending = s.pending ∧ (setCan s k f).tx = s.tx ∧ (setCan s k f).free = s.free ∧ (setCan s k f).now = s.now ∧ (setCan s k f).tck = s.tck ∧ (setCan s k f).pwr = s.pwr ∧ (setCan s k f).host = s.host ∧ (setCan s k f).cfg = s.cfg ∧ (setCan s k f).slt = s.slt ∧ (setCan s k f).recd = s.recd ∧ (setCan s k f).img = s.img ∧ (setCan s k f).ldr = s.ldr ∧ (setCan s k f).tasks = s.tasks ∧ (setCan s k f).chg = s.chg ∧ (setCan s k f).rods = s.rods ∧ (setCan s k f).trk = s.trk ∧ (setCan s k f).ntm = s.ntm ∧ (setCan s k f).lnk = s.lnk ∧ (setCan s k f).cry = s.cry ∧ (setCan s k f).brk = s.brk ∧ (setCan s k f).lch = s.lch ∧ (setCan s k f).mtr = s.mtr ∧ (setCan s k f).wdt = s.wdt ∧ (setCan s k f).fwu = s.fwu := by
  exact ⟨rfl, rfl, rfl, rfl, rfl, rfl, rfl, rfl, rfl, rfl, rfl, rfl, rfl, rfl, rfl, rfl, rfl, rfl, rfl, rfl, rfl, rfl, rfl, rfl⟩
@[simp] theorem setFeeder_parts (s : State) (f : Nat) (x : Feeder → Feeder) :
    (setFeeder s f x).pending = s.pending ∧ (setFeeder s f x).tx = s.tx ∧ (setFeeder s f x).free = s.free ∧ (setFeeder s f x).now = s.now ∧ (setFeeder s f x).tck = s.tck ∧ (setFeeder s f x).pwr = s.pwr ∧ (setFeeder s f x).host = s.host ∧ (setFeeder s f x).cfg = s.cfg ∧ (setFeeder s f x).slt = s.slt ∧ (setFeeder s f x).recd = s.recd ∧ (setFeeder s f x).img = s.img ∧ (setFeeder s f x).ldr = s.ldr ∧ (setFeeder s f x).tasks = s.tasks ∧ (setFeeder s f x).chg = s.chg ∧ (setFeeder s f x).rods = s.rods ∧ (setFeeder s f x).trk = s.trk ∧ (setFeeder s f x).ntm = s.ntm ∧ (setFeeder s f x).lnk = s.lnk ∧ (setFeeder s f x).cry = s.cry ∧ (setFeeder s f x).brk = s.brk ∧ (setFeeder s f x).can = s.can ∧ (setFeeder s f x).lch = s.lch ∧ (setFeeder s f x).wdt = s.wdt ∧ (setFeeder s f x).fwu = s.fwu := by
  exact ⟨rfl, rfl, rfl, rfl, rfl, rfl, rfl, rfl, rfl, rfl, rfl, rfl, rfl, rfl, rfl, rfl, rfl, rfl, rfl, rfl, rfl, rfl, rfl, rfl⟩
@[simp] theorem setSlot_parts (s : State) (n : Nat) (f : FwSlot → FwSlot) :
    (setSlot s n f).pending = s.pending ∧ (setSlot s n f).tx = s.tx ∧ (setSlot s n f).free = s.free ∧ (setSlot s n f).now = s.now ∧ (setSlot s n f).tck = s.tck ∧ (setSlot s n f).pwr = s.pwr ∧ (setSlot s n f).host = s.host ∧ (setSlot s n f).cfg = s.cfg ∧ (setSlot s n f).slt = s.slt ∧ (setSlot s n f).recd = s.recd ∧ (setSlot s n f).img = s.img ∧ (setSlot s n f).ldr = s.ldr ∧ (setSlot s n f).tasks = s.tasks ∧ (setSlot s n f).chg = s.chg ∧ (setSlot s n f).rods = s.rods ∧ (setSlot s n f).trk = s.trk ∧ (setSlot s n f).ntm = s.ntm ∧ (setSlot s n f).lnk = s.lnk ∧ (setSlot s n f).cry = s.cry ∧ (setSlot s n f).brk = s.brk ∧ (setSlot s n f).can = s.can ∧ (setSlot s n f).lch = s.lch ∧ (setSlot s n f).mtr = s.mtr ∧ (setSlot s n f).wdt = s.wdt := by
  unfold setSlot; split <;> exact ⟨rfl, rfl, rfl, rfl, rfl, rfl, rfl, rfl, rfl, rfl, rfl, rfl, rfl, rfl, rfl, rfl, rfl, rfl, rfl, rfl, rfl, rfl, rfl, rfl⟩
@[simp] theorem setPtp_parts (s : State) (eth : Bool) (f : PtpPort → PtpPort) :
    (setPtp s eth f).pending = s.pending ∧ (setPtp s eth f).tx = s.tx ∧ (setPtp s eth f).free = s.free ∧ (setPtp s eth f).now = s.now ∧ (setPtp s eth f).tck = s.tck ∧ (setPtp s eth f).pwr = s.pwr ∧ (setPtp s eth f).host = s.host ∧ (setPtp s eth f).cfg = s.cfg ∧ (setPtp s eth f).slt = s.slt ∧ (setPtp s eth f).recd = s.recd ∧ (setPtp s eth f).img = s.img ∧ (setPtp s eth f).ldr = s.ldr ∧ (setPtp s eth f).tasks = s.tasks ∧ (setPtp s eth f).chg = s.chg ∧ (setPtp s eth f).rods = s.rods ∧ (setPtp s eth f).trk = s.trk ∧ (setPtp s eth f).lnk = s.lnk ∧ (setPtp s eth f).cry = s.cry ∧ (setPtp s eth f).brk = s.brk ∧ (setPtp s eth f).can = s.can ∧ (setPtp s eth f).lch = s.lch ∧ (setPtp s eth f).mtr = s.mtr ∧ (setPtp s eth f).wdt = s.wdt ∧ (setPtp s eth f).fwu = s.fwu := by
  cases eth <;> exact ⟨rfl, rfl, rfl, rfl, rfl, rfl, rfl, rfl, rfl, rfl, rfl, rfl, rfl, rfl, rfl, rfl, rfl, rfl, rfl, rfl, rfl, rfl, rfl, rfl⟩
@[simp] theorem setLive_parts (s : State) (k i : Nat) (f : StLive → StLive) :
    (setLive s k i f).pending = s.pending ∧ (setLive s k i f).tx = s.tx ∧ (setLive s k i f).free = s.free ∧ (setLive s k i f).now = s.now ∧ (setLive s k i f).tck = s.tck ∧ (setLive s k i f).pwr = s.pwr ∧ (setLive s k i f).host = s.host ∧ (setLive s k i f).cfg = s.cfg ∧ (setLive s k i f).slt = s.slt ∧ (setLive s k i f).recd = s.recd ∧ (setLive s k i f).img = s.img ∧ (setLive s k i f).ldr = s.ldr ∧ (setLive s k i f).tasks = s.tasks ∧ (setLive s k i f).chg = s.chg ∧ (setLive s k i f).rods = s.rods ∧ (setLive s k i f).trk = s.trk ∧ (setLive s k i f).ntm = s.ntm ∧ (setLive s k i f).cry = s.cry ∧ (setLive s k i f).brk = s.brk ∧ (setLive s k i f).can = s.can ∧ (setLive s k i f).lch = s.lch ∧ (setLive s k i f).mtr = s.mtr ∧ (setLive s k i f).wdt = s.wdt ∧ (setLive s k i f).fwu = s.fwu := by
  exact ⟨rfl, rfl, rfl, rfl, rfl, rfl, rfl, rfl, rfl, rfl, rfl, rfl, rfl, rfl, rfl, rfl, rfl, rfl, rfl, rfl, rfl, rfl, rfl, rfl⟩

@[simp] theorem portSt_setPort_same (s : State) (p : Port) (f : PortState → PortState) : portSt (setPort s p f) p = f (portSt s p) := by
  cases p <;> rfl
@[simp] theorem portSt_setPort_other (s : State) (p q : Port) (f : PortState → PortState) (h : q ≠ p) : portSt (setPort s p f) q = portSt s q := by
  cases p <;> cases q <;> first | rfl | exact absurd rfl h
@[simp] theorem setPort_queue (s : State) (p : Port) (f : PortState → PortState) : (setPort s p f).host.queue = s.host.queue := by
  cases p <;> rfl
@[simp] theorem setPort_nextId (s : State) (p : Port) (f : PortState → PortState) : (setPort s p f).host.nextId = s.host.nextId := by
  cases p <;> rfl
@[simp] theorem setPort_sems (s : State) (p : Port) (f : PortState → PortState) : (setPort s p f).host.sems = s.host.sems := by
  cases p <;> rfl
@[simp] theorem setPort_xfers (s : State) (p : Port) (f : PortState → PortState) : (setPort s p f).host.xfers = s.host.xfers := by
  cases p <;> rfl
@[simp] theorem portSt_emit (s : State) (x : Tx) (p : Port) : portSt (emit s x) p = portSt s p := by
  cases p <;> rfl
@[simp] theorem emit_tx (s : State) (x : Tx) : (emit s x).tx = x :: s.tx := rfl
@[simp] theorem bankSt_setBank_same (s : State) (b : BankId) (f : BankSt → BankSt) : bankSt (setBank s b f) b = f (bankSt s b) := by
  cases b <;> rfl
@[simp] theorem bankSt_setBank_other (s : State) (a b : BankId) (f : BankSt → BankSt) (h : a ≠ b) : bankSt (setBank s b f) a = bankSt s a := by
  cases a <;> cases b <;> first | rfl | exact absurd rfl h
theorem vector_getD_set {α : Type} {n : Nat} (v : Vector α n) (i j : Nat) (x d : α) (h : i < n) :
    (v.setIfInBounds i x).toArray.getD j d = if j = i then x else v.toArray.getD j d := by
  rcases v with ⟨a, ha⟩
  simp only [Vector.setIfInBounds, Array.getD_eq_getD_getElem?, Array.getElem?_setIfInBounds]
  by_cases hj : i = j
  · subst hj; simp [ha, h]
  · simp [hj, Ne.symm hj]
theorem blkCfg_setBlk (s : State) (b c : Nat) (f : BlkCfg → BlkCfg) (h : b < 20) :
    blkCfg (setBlk s b f) c = if c = b then f (blkCfg s b) else blkCfg s c := vector_getD_set _ _ _ _ _ h
theorem rodAt_setRod (s : State) (n m : Nat) (r : Rod) (h : n < 48) : rodAt (setRod s n r) m = if m = n then r else rodAt s m :=
  vector_getD_set _ _ _ _ _ h
theorem linkAt_setLink (s : State) (k j : Nat) (f : Link → Link) (h : k < 24) :
    linkAt (setLink s k f) j = if j = k then f (linkAt s k) else linkAt s j := vector_getD_set _ _ _ _ _ h

end Sys2Proof.Machine
end

