-- ==== Sys2Proof/Laws/Shared.lean ====
section
/-! SUPPORT. The shared operations: what each leaves alone, part by part, and what it does. -/
namespace Sys2Proof.Machine
open Sys2Proof

theorem foldl_keeps {α β : Type} (g : State → β) (f : State → α → State) (l : List α) (s : State) (h : ∀ s a, g (f s a) = g s) : g (l.foldl f s) = g s := by
  induction l generalizing s with
  | nil => rfl
  | cons a l ih => exact (ih (f s a)).trans (h s a)
@[simp] theorem raiseVector_parts (s : State) (p : Port) (v : Fin 8) :
    (raiseVector s p v).pending = s.pending ∧ (raiseVector s p v).free = s.free ∧ (raiseVector s p v).now = s.now ∧ (raiseVector s p v).tck = s.tck ∧ (raiseVector s p v).pwr = s.pwr ∧ (raiseVector s p v).cfg = s.cfg ∧ (raiseVector s p v).slt = s.slt ∧ (raiseVector s p v).recd = s.recd ∧ (raiseVector s p v).img = s.img ∧ (raiseVector s p v).ldr = s.ldr ∧ (raiseVector s p v).tasks = s.tasks ∧ (raiseVector s p v).chg = s.chg ∧ (raiseVector s p v).rods = s.rods ∧ (raiseVector s p v).trk = s.trk ∧ (raiseVector s p v).ntm = s.ntm ∧ (raiseVector s p v).lnk = s.lnk ∧ (raiseVector s p v).cry = s.cry ∧ (raiseVector s p v).brk = s.brk ∧ (raiseVector s p v).can = s.can ∧ (raiseVector s p v).lch = s.lch ∧ (raiseVector s p v).mtr = s.mtr ∧ (raiseVector s p v).wdt = s.wdt ∧ (raiseVector s p v).fwu = s.fwu := by
  first | (simp [raiseVector]; done) | (simp only [raiseVector]; (repeat' split) <;> simp; done) | (unfold raiseVector; dsimp only; (repeat' split) <;> simp; done)
@[simp] theorem respondAt_parts (s : State) (w : Who) (reason : Nat) (tick : BitVec 64) (data : List Byte) :
    (respondAt s w reason tick data).pending = s.pending ∧ (respondAt s w reason tick data).free = s.free ∧ (respondAt s w reason tick data).now = s.now ∧ (respondAt s w reason tick data).tck = s.tck ∧ (respondAt s w reason tick data).pwr = s.pwr ∧ (respondAt s w reason tick data).cfg = s.cfg ∧ (respondAt s w reason tick data).slt = s.slt ∧ (respondAt s w reason tick data).recd = s.recd ∧ (respondAt s w reason tick data).img = s.img ∧ (respondAt s w reason tick data).ldr = s.ldr ∧ (respondAt s w reason tick data).tasks = s.tasks ∧ (respondAt s w reason tick data).chg = s.chg ∧ (respondAt s w reason tick data).rods = s.rods ∧ (respondAt s w reason tick data).trk = s.trk ∧ (respondAt s w reason tick data).ntm = s.ntm ∧ (respondAt s w reason tick data).lnk = s.lnk ∧ (respondAt s w reason tick data).cry = s.cry ∧ (respondAt s w reason tick data).brk = s.brk ∧ (respondAt s w reason tick data).can = s.can ∧ (respondAt s w reason tick data).lch = s.lch ∧ (respondAt s w reason tick data).mtr = s.mtr ∧ (respondAt s w reason tick data).wdt = s.wdt ∧ (respondAt s w reason tick data).fwu = s.fwu := by
  first | (simp [respondAt]; done) | (simp only [respondAt]; (repeat' split) <;> simp; done) | (unfold respondAt; dsimp only; (repeat' split) <;> simp; done)
@[simp] theorem respond_parts (s : State) (w : Who) (reason : Nat) (data : List Byte) :
    (respond s w reason data).pending = s.pending ∧ (respond s w reason data).free = s.free ∧ (respond s w reason data).now = s.now ∧ (respond s w reason data).tck = s.tck ∧ (respond s w reason data).pwr = s.pwr ∧ (respond s w reason data).cfg = s.cfg ∧ (respond s w reason data).slt = s.slt ∧ (respond s w reason data).recd = s.recd ∧ (respond s w reason data).img = s.img ∧ (respond s w reason data).ldr = s.ldr ∧ (respond s w reason data).tasks = s.tasks ∧ (respond s w reason data).chg = s.chg ∧ (respond s w reason data).rods = s.rods ∧ (respond s w reason data).trk = s.trk ∧ (respond s w reason data).ntm = s.ntm ∧ (respond s w reason data).lnk = s.lnk ∧ (respond s w reason data).cry = s.cry ∧ (respond s w reason data).brk = s.brk ∧ (respond s w reason data).can = s.can ∧ (respond s w reason data).lch = s.lch ∧ (respond s w reason data).mtr = s.mtr ∧ (respond s w reason data).wdt = s.wdt ∧ (respond s w reason data).fwu = s.fwu := by
  first | (simp [respond]; done) | (simp only [respond]; (repeat' split) <;> simp; done) | (unfold respond; dsimp only; (repeat' split) <;> simp; done)
@[simp] theorem respondOpt_parts (s : State) (w : Option Who) (reason : Nat) (tick : BitVec 64) (data : List Byte) :
    (respondOpt s w reason tick data).pending = s.pending ∧ (respondOpt s w reason tick data).free = s.free ∧ (respondOpt s w reason tick data).now = s.now ∧ (respondOpt s w reason tick data).tck = s.tck ∧ (respondOpt s w reason tick data).pwr = s.pwr ∧ (respondOpt s w reason tick data).cfg = s.cfg ∧ (respondOpt s w reason tick data).slt = s.slt ∧ (respondOpt s w reason tick data).recd = s.recd ∧ (respondOpt s w reason tick data).img = s.img ∧ (respondOpt s w reason tick data).ldr = s.ldr ∧ (respondOpt s w reason tick data).tasks = s.tasks ∧ (respondOpt s w reason tick data).chg = s.chg ∧ (respondOpt s w reason tick data).rods = s.rods ∧ (respondOpt s w reason tick data).trk = s.trk ∧ (respondOpt s w reason tick data).ntm = s.ntm ∧ (respondOpt s w reason tick data).lnk = s.lnk ∧ (respondOpt s w reason tick data).cry = s.cry ∧ (respondOpt s w reason tick data).brk = s.brk ∧ (respondOpt s w reason tick data).can = s.can ∧ (respondOpt s w reason tick data).lch = s.lch ∧ (respondOpt s w reason tick data).mtr = s.mtr ∧ (respondOpt s w reason tick data).wdt = s.wdt ∧ (respondOpt s w reason tick data).fwu = s.fwu := by
  first | (simp [respondOpt]; done) | (simp only [respondOpt]; (repeat' split) <;> simp; done) | (unfold respondOpt; dsimp only; (repeat' split) <;> simp; done)
@[simp] theorem raiseCursor_parts (s : State) (p : Port) :
    (raiseCursor s p).pending = s.pending ∧ (raiseCursor s p).free = s.free ∧ (raiseCursor s p).now = s.now ∧ (raiseCursor s p).tck = s.tck ∧ (raiseCursor s p).pwr = s.pwr ∧ (raiseCursor s p).cfg = s.cfg ∧ (raiseCursor s p).slt = s.slt ∧ (raiseCursor s p).recd = s.recd ∧ (raiseCursor s p).img = s.img ∧ (raiseCursor s p).ldr = s.ldr ∧ (raiseCursor s p).tasks = s.tasks ∧ (raiseCursor s p).chg = s.chg ∧ (raiseCursor s p).rods = s.rods ∧ (raiseCursor s p).trk = s.trk ∧ (raiseCursor s p).ntm = s.ntm ∧ (raiseCursor s p).lnk = s.lnk ∧ (raiseCursor s p).cry = s.cry ∧ (raiseCursor s p).brk = s.brk ∧ (raiseCursor s p).can = s.can ∧ (raiseCursor s p).lch = s.lch ∧ (raiseCursor s p).mtr = s.mtr ∧ (raiseCursor s p).wdt = s.wdt ∧ (raiseCursor s p).fwu = s.fwu := by
  first | (simp [raiseCursor]; done) | (simp only [raiseCursor]; (repeat' split) <;> simp; done) | (unfold raiseCursor; dsimp only; (repeat' split) <;> simp; done)
@[simp] theorem enterReport_parts (s : State) (code : Code) (fault boot : Bool) (ps : List Nat) (v : Option (List Byte)) (sec : Nat) (nsq : Dword) :
    (enterReport s code fault boot ps v sec nsq).pending = s.pending ∧ (enterReport s code fault boot ps v sec nsq).free = s.free ∧ (enterReport s code fault boot ps v sec nsq).now = s.now ∧ (enterReport s code fault boot ps v sec nsq).tck = s.tck ∧ (enterReport s code fault boot ps v sec nsq).pwr = s.pwr ∧ (enterReport s code fault boot ps v sec nsq).cfg = s.cfg ∧ (enterReport s code fault boot ps v sec nsq).slt = s.slt ∧ (enterReport s code fault boot ps v sec nsq).img = s.img ∧ (enterReport s code fault boot ps v sec nsq).ldr = s.ldr ∧ (enterReport s code fault boot ps v sec nsq).tasks = s.tasks ∧ (enterReport s code fault boot ps v sec nsq).chg = s.chg ∧ (enterReport s code fault boot ps v sec nsq).rods = s.rods ∧ (enterReport s code fault boot ps v sec nsq).trk = s.trk ∧ (enterReport s code fault boot ps v sec nsq).ntm = s.ntm ∧ (enterReport s code fault boot ps v sec nsq).lnk = s.lnk ∧ (enterReport s code fault boot ps v sec nsq).cry = s.cry ∧ (enterReport s code fault boot ps v sec nsq).brk = s.brk ∧ (enterReport s code fault boot ps v sec nsq).can = s.can ∧ (enterReport s code fault boot ps v sec nsq).lch = s.lch ∧ (enterReport s code fault boot ps v sec nsq).mtr = s.mtr ∧ (enterReport s code fault boot ps v sec nsq).wdt = s.wdt ∧ (enterReport s code fault boot ps v sec nsq).fwu = s.fwu := by
  first | (simp [enterReport]; done) | (simp only [enterReport]; (repeat' split) <;> simp; done) | (unfold enterReport; dsimp only; (repeat' split) <;> simp; done)
@[simp] theorem reportVar_parts (s : State) (code : Code) (fault : Bool) (ps : List Nat) (v : Option (List Byte)) :
    (reportVar s code fault ps v).pending = s.pending ∧ (reportVar s code fault ps v).free = s.free ∧ (reportVar s code fault ps v).now = s.now ∧ (reportVar s code fault ps v).tck = s.tck ∧ (reportVar s code fault ps v).pwr = s.pwr ∧ (reportVar s code fault ps v).cfg = s.cfg ∧ (reportVar s code fault ps v).slt = s.slt ∧ (reportVar s code fault ps v).img = s.img ∧ (reportVar s code fault ps v).ldr = s.ldr ∧ (reportVar s code fault ps v).tasks = s.tasks ∧ (reportVar s code fault ps v).chg = s.chg ∧ (reportVar s code fault ps v).rods = s.rods ∧ (reportVar s code fault ps v).trk = s.trk ∧ (reportVar s code fault ps v).ntm = s.ntm ∧ (reportVar s code fault ps v).lnk = s.lnk ∧ (reportVar s code fault ps v).cry = s.cry ∧ (reportVar s code fault ps v).brk = s.brk ∧ (reportVar s code fault ps v).can = s.can ∧ (reportVar s code fault ps v).lch = s.lch ∧ (reportVar s code fault ps v).mtr = s.mtr ∧ (reportVar s code fault ps v).wdt = s.wdt ∧ (reportVar s code fault ps v).fwu = s.fwu := by
  unfold reportVar; dsimp only; (repeat' split) <;> simp
@[simp] theorem report_parts (s : State) (code : Code) (fault : Bool) (ps : List Nat) :
    (report s code fault ps).pending = s.pending ∧ (report s code fault ps).free = s.free ∧ (report s code fault ps).now = s.now ∧ (report s code fault ps).tck = s.tck ∧ (report s code fault ps).pwr = s.pwr ∧ (report s code fault ps).cfg = s.cfg ∧ (report s code fault ps).slt = s.slt ∧ (report s code fault ps).img = s.img ∧ (report s code fault ps).ldr = s.ldr ∧ (report s code fault ps).tasks = s.tasks ∧ (report s code fault ps).chg = s.chg ∧ (report s code fault ps).rods = s.rods ∧ (report s code fault ps).trk = s.trk ∧ (report s code fault ps).ntm = s.ntm ∧ (report s code fault ps).lnk = s.lnk ∧ (report s code fault ps).cry = s.cry ∧ (report s code fault ps).brk = s.brk ∧ (report s code fault ps).can = s.can ∧ (report s code fault ps).lch = s.lch ∧ (report s code fault ps).mtr = s.mtr ∧ (report s code fault ps).wdt = s.wdt ∧ (report s code fault ps).fwu = s.fwu := by
  first | (simp [report]; done) | (simp only [report]; (repeat' split) <;> simp; done) | (unfold report; dsimp only; (repeat' split) <;> simp; done)
@[simp] theorem record_parts (s : State) (code : Nat) (ps : List Nat) :
    (record s code ps).pending = s.pending ∧ (record s code ps).free = s.free ∧ (record s code ps).now = s.now ∧ (record s code ps).tck = s.tck ∧ (record s code ps).pwr = s.pwr ∧ (record s code ps).cfg = s.cfg ∧ (record s code ps).slt = s.slt ∧ (record s code ps).img = s.img ∧ (record s code ps).ldr = s.ldr ∧ (record s code ps).tasks = s.tasks ∧ (record s code ps).chg = s.chg ∧ (record s code ps).rods = s.rods ∧ (record s code ps).trk = s.trk ∧ (record s code ps).ntm = s.ntm ∧ (record s code ps).lnk = s.lnk ∧ (record s code ps).cry = s.cry ∧ (record s code ps).brk = s.brk ∧ (record s code ps).can = s.can ∧ (record s code ps).lch = s.lch ∧ (record s code ps).mtr = s.mtr ∧ (record s code ps).wdt = s.wdt ∧ (record s code ps).fwu = s.fwu := by
  first | (simp [record]; done) | (simp only [record]; (repeat' split) <;> simp; done) | (unfold record; dsimp only; (repeat' split) <;> simp; done)
@[simp] theorem slateAsk_parts (s : State) (pri : Nat) (w : SltWork) :
    (slateAsk s pri w).pending = s.pending ∧ (slateAsk s pri w).tx = s.tx ∧ (slateAsk s pri w).free = s.free ∧ (slateAsk s pri w).now = s.now ∧ (slateAsk s pri w).tck = s.tck ∧ (slateAsk s pri w).pwr = s.pwr ∧ (slateAsk s pri w).host = s.host ∧ (slateAsk s pri w).cfg = s.cfg ∧ (slateAsk s pri w).recd = s.recd ∧ (slateAsk s pri w).img = s.img ∧ (slateAsk s pri w).ldr = s.ldr ∧ (slateAsk s pri w).tasks = s.tasks ∧ (slateAsk s pri w).chg = s.chg ∧ (slateAsk s pri w).rods = s.rods ∧ (slateAsk s pri w).trk = s.trk ∧ (slateAsk s pri w).ntm = s.ntm ∧ (slateAsk s pri w).lnk = s.lnk ∧ (slateAsk s pri w).cry = s.cry ∧ (slateAsk s pri w).brk = s.brk ∧ (slateAsk s pri w).can = s.can ∧ (slateAsk s pri w).lch = s.lch ∧ (slateAsk s pri w).mtr = s.mtr ∧ (slateAsk s pri w).wdt = s.wdt ∧ (slateAsk s pri w).fwu = s.fwu := by
  first | (simp [slateAsk]; done) | (simp only [slateAsk]; (repeat' split) <;> simp; done) | (unfold slateAsk; dsimp only; (repeat' split) <;> simp; done)
@[simp] theorem respondFree_parts (s : State) (w : Who) :
    (respondFree s w).pending = s.pending ∧ (respondFree s w).now = s.now ∧ (respondFree s w).tck = s.tck ∧ (respondFree s w).pwr = s.pwr ∧ (respondFree s w).cfg = s.cfg ∧ (respondFree s w).slt = s.slt ∧ (respondFree s w).recd = s.recd ∧ (respondFree s w).img = s.img ∧ (respondFree s w).ldr = s.ldr ∧ (respondFree s w).tasks = s.tasks ∧ (respondFree s w).chg = s.chg ∧ (respondFree s w).rods = s.rods ∧ (respondFree s w).trk = s.trk ∧ (respondFree s w).ntm = s.ntm ∧ (respondFree s w).lnk = s.lnk ∧ (respondFree s w).cry = s.cry ∧ (respondFree s w).brk = s.brk ∧ (respondFree s w).can = s.can ∧ (respondFree s w).lch = s.lch ∧ (respondFree s w).mtr = s.mtr ∧ (respondFree s w).wdt = s.wdt ∧ (respondFree s w).fwu = s.fwu := by
  first | (simp [respondFree]; done) | (simp only [respondFree]; (repeat' split) <;> simp; done) | (unfold respondFree; dsimp only; (repeat' split) <;> simp; done)
@[simp] theorem roundFree_parts (s : State) (a b : Nat) :
    (roundFree s a b).2.pending = s.pending ∧ (roundFree s a b).2.tx = s.tx ∧ (roundFree s a b).2.now = s.now ∧ (roundFree s a b).2.tck = s.tck ∧ (roundFree s a b).2.pwr = s.pwr ∧ (roundFree s a b).2.host = s.host ∧ (roundFree s a b).2.cfg = s.cfg ∧ (roundFree s a b).2.slt = s.slt ∧ (roundFree s a b).2.recd = s.recd ∧ (roundFree s a b).2.img = s.img ∧ (roundFree s a b).2.ldr = s.ldr ∧ (roundFree s a b).2.tasks = s.tasks ∧ (roundFree s a b).2.chg = s.chg ∧ (roundFree s a b).2.rods = s.rods ∧ (roundFree s a b).2.trk = s.trk ∧ (roundFree s a b).2.ntm = s.ntm ∧ (roundFree s a b).2.lnk = s.lnk ∧ (roundFree s a b).2.cry = s.cry ∧ (roundFree s a b).2.brk = s.brk ∧ (roundFree s a b).2.can = s.can ∧ (roundFree s a b).2.lch = s.lch ∧ (roundFree s a b).2.mtr = s.mtr ∧ (roundFree s a b).2.wdt = s.wdt ∧ (roundFree s a b).2.fwu = s.fwu := by
  first | (simp [roundFree]; done) | (simp only [roundFree]; (repeat' split) <;> simp; done) | (unfold roundFree; dsimp only; (repeat' split) <;> simp; done)
@[simp] theorem readDone_parts (s : State) (p : Port) (v : Dword) :
    (readDone s p v).pending = s.pending ∧ (readDone s p v).free = s.free ∧ (readDone s p v).now = s.now ∧ (readDone s p v).tck = s.tck ∧ (readDone s p v).pwr = s.pwr ∧ (readDone s p v).cfg = s.cfg ∧ (readDone s p v).slt = s.slt ∧ (readDone s p v).recd = s.recd ∧ (readDone s p v).img = s.img ∧ (readDone s p v).ldr = s.ldr ∧ (readDone s p v).tasks = s.tasks ∧ (readDone s p v).chg = s.chg ∧ (readDone s p v).rods = s.rods ∧ (readDone s p v).trk = s.trk ∧ (readDone s p v).ntm = s.ntm ∧ (readDone s p v).lnk = s.lnk ∧ (readDone s p v).cry = s.cry ∧ (readDone s p v).brk = s.brk ∧ (readDone s p v).can = s.can ∧ (readDone s p v).lch = s.lch ∧ (readDone s p v).mtr = s.mtr ∧ (readDone s p v).wdt = s.wdt ∧ (readDone s p v).fwu = s.fwu := by
  first | (simp [readDone]; done) | (simp only [readDone]; (repeat' split) <;> simp; done) | (unfold readDone; dsimp only; (repeat' split) <;> simp; done)
@[simp] theorem roundFreeInt_parts (s : State) (a : Int) (b : Nat) :
    (roundFreeInt s a b).2.pending = s.pending ∧ (roundFreeInt s a b).2.tx = s.tx ∧ (roundFreeInt s a b).2.now = s.now ∧ (roundFreeInt s a b).2.tck = s.tck ∧ (roundFreeInt s a b).2.pwr = s.pwr ∧ (roundFreeInt s a b).2.host = s.host ∧ (roundFreeInt s a b).2.cfg = s.cfg ∧ (roundFreeInt s a b).2.slt = s.slt ∧ (roundFreeInt s a b).2.recd = s.recd ∧ (roundFreeInt s a b).2.img = s.img ∧ (roundFreeInt s a b).2.ldr = s.ldr ∧ (roundFreeInt s a b).2.tasks = s.tasks ∧ (roundFreeInt s a b).2.chg = s.chg ∧ (roundFreeInt s a b).2.rods = s.rods ∧ (roundFreeInt s a b).2.trk = s.trk ∧ (roundFreeInt s a b).2.ntm = s.ntm ∧ (roundFreeInt s a b).2.lnk = s.lnk ∧ (roundFreeInt s a b).2.cry = s.cry ∧ (roundFreeInt s a b).2.brk = s.brk ∧ (roundFreeInt s a b).2.can = s.can ∧ (roundFreeInt s a b).2.lch = s.lch ∧ (roundFreeInt s a b).2.mtr = s.mtr ∧ (roundFreeInt s a b).2.wdt = s.wdt ∧ (roundFreeInt s a b).2.fwu = s.fwu := by
  first | (simp [roundFreeInt]; done) | (simp only [roundFreeInt]; (repeat' split) <;> simp; done) | (unfold roundFreeInt; dsimp only; (repeat' split) <;> simp; done)
@[simp] theorem carrySendSeq_parts (s : State) (type : Nat) (payload : List Byte) :
    (carrySendSeq s type payload).pending = s.pending ∧ (carrySendSeq s type payload).free = s.free ∧ (carrySendSeq s type payload).now = s.now ∧ (carrySendSeq s type payload).tck = s.tck ∧ (carrySendSeq s type payload).pwr = s.pwr ∧ (carrySendSeq s type payload).host = s.host ∧ (carrySendSeq s type payload).cfg = s.cfg ∧ (carrySendSeq s type payload).slt = s.slt ∧ (carrySendSeq s type payload).recd = s.recd ∧ (carrySendSeq s type payload).img = s.img ∧ (carrySendSeq s type payload).ldr = s.ldr ∧ (carrySendSeq s type payload).tasks = s.tasks ∧ (carrySendSeq s type payload).chg = s.chg ∧ (carrySendSeq s type payload).rods = s.rods ∧ (carrySendSeq s type payload).trk = s.trk ∧ (carrySendSeq s type payload).ntm = s.ntm ∧ (carrySendSeq s type payload).lnk = s.lnk ∧ (carrySendSeq s type payload).brk = s.brk ∧ (carrySendSeq s type payload).can = s.can ∧ (carrySendSeq s type payload).lch = s.lch ∧ (carrySendSeq s type payload).mtr = s.mtr ∧ (carrySendSeq s type payload).wdt = s.wdt ∧ (carrySendSeq s type payload).fwu = s.fwu := by
  first | (simp [carrySendSeq]; done) | (simp only [carrySendSeq]; (repeat' split) <;> simp; done) | (unfold carrySendSeq; dsimp only; (repeat' split) <;> simp; done)
@[simp] theorem sendControl_parts (s : State) (apply : Nat) (code : Nat) (data : List Byte) :
    (sendControl s apply code data).pending = s.pending ∧ (sendControl s apply code data).free = s.free ∧ (sendControl s apply code data).now = s.now ∧ (sendControl s apply code data).tck = s.tck ∧ (sendControl s apply code data).pwr = s.pwr ∧ (sendControl s apply code data).host = s.host ∧ (sendControl s apply code data).cfg = s.cfg ∧ (sendControl s apply code data).slt = s.slt ∧ (sendControl s apply code data).recd = s.recd ∧ (sendControl s apply code data).img = s.img ∧ (sendControl s apply code data).ldr = s.ldr ∧ (sendControl s apply code data).tasks = s.tasks ∧ (sendControl s apply code data).chg = s.chg ∧ (sendControl s apply code data).rods = s.rods ∧ (sendControl s apply code data).trk = s.trk ∧ (sendControl s apply code data).ntm = s.ntm ∧ (sendControl s apply code data).lnk = s.lnk ∧ (sendControl s apply code data).brk = s.brk ∧ (sendControl s apply code data).can = s.can ∧ (sendControl s apply code data).lch = s.lch ∧ (sendControl s apply code data).mtr = s.mtr ∧ (sendControl s apply code data).wdt = s.wdt ∧ (sendControl s apply code data).fwu = s.fwu := by
  unfold sendControl
  extract_lets d
  split
  · exact ⟨foldl_keeps State.pending _ _ _ (fun _ _ => by simp),
      foldl_keeps State.free _ _ _ (fun _ _ => by simp),
      foldl_keeps State.now _ _ _ (fun _ _ => by simp),
      foldl_keeps State.tck _ _ _ (fun _ _ => by simp),
      foldl_keeps State.pwr _ _ _ (fun _ _ => by simp),
      foldl_keeps State.host _ _ _ (fun _ _ => by simp),
      foldl_keeps State.cfg _ _ _ (fun _ _ => by simp),
      foldl_keeps State.slt _ _ _ (fun _ _ => by simp),
      foldl_keeps State.recd _ _ _ (fun _ _ => by simp),
      foldl_keeps State.img _ _ _ (fun _ _ => by simp),
      foldl_keeps State.ldr _ _ _ (fun _ _ => by simp),
      foldl_keeps State.tasks _ _ _ (fun _ _ => by simp),
      foldl_keeps State.chg _ _ _ (fun _ _ => by simp),
      foldl_keeps State.rods _ _ _ (fun _ _ => by simp),
      foldl_keeps State.trk _ _ _ (fun _ _ => by simp),
      foldl_keeps State.ntm _ _ _ (fun _ _ => by simp),
      foldl_keeps State.lnk _ _ _ (fun _ _ => by simp),
      foldl_keeps State.brk _ _ _ (fun _ _ => by simp),
      foldl_keeps State.can _ _ _ (fun _ _ => by simp),
      foldl_keeps State.lch _ _ _ (fun _ _ => by simp),
      foldl_keeps State.mtr _ _ _ (fun _ _ => by simp),
      foldl_keeps State.wdt _ _ _ (fun _ _ => by simp),
      foldl_keeps State.fwu _ _ _ (fun _ _ => by simp)⟩
  · simp
@[simp] theorem examine_parts (s : State) (x0 : List Queued) :
    (examine s x0).pending = s.pending ∧ (examine s x0).free = s.free ∧ (examine s x0).now = s.now ∧ (examine s x0).tck = s.tck ∧ (examine s x0).pwr = s.pwr ∧ (examine s x0).cfg = s.cfg ∧ (examine s x0).slt = s.slt ∧ (examine s x0).recd = s.recd ∧ (examine s x0).img = s.img ∧ (examine s x0).ldr = s.ldr ∧ (examine s x0).tasks = s.tasks ∧ (examine s x0).chg = s.chg ∧ (examine s x0).rods = s.rods ∧ (examine s x0).trk = s.trk ∧ (examine s x0).ntm = s.ntm ∧ (examine s x0).lnk = s.lnk ∧ (examine s x0).cry = s.cry ∧ (examine s x0).brk = s.brk ∧ (examine s x0).can = s.can ∧ (examine s x0).lch = s.lch ∧ (examine s x0).mtr = s.mtr ∧ (examine s x0).wdt = s.wdt ∧ (examine s x0).fwu = s.fwu := by
  induction x0 generalizing s with
  | nil => simp [examine]
  | cons e l ih => unfold examine; dsimp only; split <;> simp [ih]
@[simp] theorem ringDoor_parts (s : State) (p : Port) (slot : Fin 32) :
    (ringDoor s p slot).pending = s.pending ∧ (ringDoor s p slot).free = s.free ∧ (ringDoor s p slot).now = s.now ∧ (ringDoor s p slot).tck = s.tck ∧ (ringDoor s p slot).pwr = s.pwr ∧ (ringDoor s p slot).cfg = s.cfg ∧ (ringDoor s p slot).slt = s.slt ∧ (ringDoor s p slot).recd = s.recd ∧ (ringDoor s p slot).img = s.img ∧ (ringDoor s p slot).ldr = s.ldr ∧ (ringDoor s p slot).tasks = s.tasks ∧ (ringDoor s p slot).chg = s.chg ∧ (ringDoor s p slot).rods = s.rods ∧ (ringDoor s p slot).trk = s.trk ∧ (ringDoor s p slot).ntm = s.ntm ∧ (ringDoor s p slot).lnk = s.lnk ∧ (ringDoor s p slot).cry = s.cry ∧ (ringDoor s p slot).brk = s.brk ∧ (ringDoor s p slot).can = s.can ∧ (ringDoor s p slot).lch = s.lch ∧ (ringDoor s p slot).mtr = s.mtr ∧ (ringDoor s p slot).wdt = s.wdt ∧ (ringDoor s p slot).fwu = s.fwu := by
  first | (simp [ringDoor]; done) | (simp only [ringDoor]; (repeat' split) <;> simp; done) | (unfold ringDoor; dsimp only; (repeat' split) <;> simp; done)
@[simp] theorem writeArea_parts (s : State) (p : Port) (slot : Fin 32) (area : List Byte) :
    (writeArea s p slot area).pending = s.pending ∧ (writeArea s p slot area).tx = s.tx ∧ (writeArea s p slot area).free = s.free ∧ (writeArea s p slot area).now = s.now ∧ (writeArea s p slot area).tck = s.tck ∧ (writeArea s p slot area).pwr = s.pwr ∧ (writeArea s p slot area).cfg = s.cfg ∧ (writeArea s p slot area).slt = s.slt ∧ (writeArea s p slot area).recd = s.recd ∧ (writeArea s p slot area).img = s.img ∧ (writeArea s p slot area).ldr = s.ldr ∧ (writeArea s p slot area).tasks = s.tasks ∧ (writeArea s p slot area).chg = s.chg ∧ (writeArea s p slot area).rods = s.rods ∧ (writeArea s p slot area).trk = s.trk ∧ (writeArea s p slot area).ntm = s.ntm ∧ (writeArea s p slot area).lnk = s.lnk ∧ (writeArea s p slot area).cry = s.cry ∧ (writeArea s p slot area).brk = s.brk ∧ (writeArea s p slot area).can = s.can ∧ (writeArea s p slot area).lch = s.lch ∧ (writeArea s p slot area).mtr = s.mtr ∧ (writeArea s p slot area).wdt = s.wdt ∧ (writeArea s p slot area).fwu = s.fwu := by
  first | (simp [writeArea]; done) | (simp only [writeArea]; (repeat' split) <;> simp; done) | (unfold writeArea; dsimp only; (repeat' split) <;> simp; done)
@[simp] theorem offer_parts (s : State) (r : Req) (code : Nat) :
    (offer s r code).pending = s.pending ∧ (offer s r code).free = s.free ∧ (offer s r code).now = s.now ∧ (offer s r code).tck = s.tck ∧ (offer s r code).pwr = s.pwr ∧ (offer s r code).cfg = s.cfg ∧ (offer s r code).slt = s.slt ∧ (offer s r code).recd = s.recd ∧ (offer s r code).img = s.img ∧ (offer s r code).ldr = s.ldr ∧ (offer s r code).tasks = s.tasks ∧ (offer s r code).chg = s.chg ∧ (offer s r code).rods = s.rods ∧ (offer s r code).trk = s.trk ∧ (offer s r code).ntm = s.ntm ∧ (offer s r code).lnk = s.lnk ∧ (offer s r code).cry = s.cry ∧ (offer s r code).brk = s.brk ∧ (offer s r code).can = s.can ∧ (offer s r code).lch = s.lch ∧ (offer s r code).mtr = s.mtr ∧ (offer s r code).wdt = s.wdt ∧ (offer s r code).fwu = s.fwu := by
  first | (simp [offer]; done) | (simp only [offer]; (repeat' split) <;> simp; done) | (unfold offer; dsimp only; (repeat' split) <;> simp; done)
@[simp] theorem tallyUp_parts (s : State) (c : Nat) :
    (tallyUp s c).pending = s.pending ∧ (tallyUp s c).tx = s.tx ∧ (tallyUp s c).free = s.free ∧ (tallyUp s c).now = s.now ∧ (tallyUp s c).tck = s.tck ∧ (tallyUp s c).pwr = s.pwr ∧ (tallyUp s c).host = s.host ∧ (tallyUp s c).cfg = s.cfg ∧ (tallyUp s c).recd = s.recd ∧ (tallyUp s c).img = s.img ∧ (tallyUp s c).ldr = s.ldr ∧ (tallyUp s c).tasks = s.tasks ∧ (tallyUp s c).chg = s.chg ∧ (tallyUp s c).rods = s.rods ∧ (tallyUp s c).trk = s.trk ∧ (tallyUp s c).ntm = s.ntm ∧ (tallyUp s c).lnk = s.lnk ∧ (tallyUp s c).cry = s.cry ∧ (tallyUp s c).brk = s.brk ∧ (tallyUp s c).can = s.can ∧ (tallyUp s c).lch = s.lch ∧ (tallyUp s c).mtr = s.mtr ∧ (tallyUp s c).wdt = s.wdt ∧ (tallyUp s c).fwu = s.fwu := by
  first | (simp [tallyUp]; done) | (simp only [tallyUp]; (repeat' split) <;> simp; done) | (unfold tallyUp; dsimp only; (repeat' split) <;> simp; done)
@[simp] theorem raiseBoth_parts (s : State) (v : Fin 8) :
    (raiseBoth s v).pending = s.pending ∧ (raiseBoth s v).free = s.free ∧ (raiseBoth s v).now = s.now ∧ (raiseBoth s v).tck = s.tck ∧ (raiseBoth s v).pwr = s.pwr ∧ (raiseBoth s v).cfg = s.cfg ∧ (raiseBoth s v).slt = s.slt ∧ (raiseBoth s v).recd = s.recd ∧ (raiseBoth s v).img = s.img ∧ (raiseBoth s v).ldr = s.ldr ∧ (raiseBoth s v).tasks = s.tasks ∧ (raiseBoth s v).chg = s.chg ∧ (raiseBoth s v).rods = s.rods ∧ (raiseBoth s v).trk = s.trk ∧ (raiseBoth s v).ntm = s.ntm ∧ (raiseBoth s v).lnk = s.lnk ∧ (raiseBoth s v).cry = s.cry ∧ (raiseBoth s v).brk = s.brk ∧ (raiseBoth s v).can = s.can ∧ (raiseBoth s v).lch = s.lch ∧ (raiseBoth s v).mtr = s.mtr ∧ (raiseBoth s v).wdt = s.wdt ∧ (raiseBoth s v).fwu = s.fwu := by
  first | (simp [raiseBoth]; done) | (simp only [raiseBoth]; (repeat' split) <;> simp; done) | (unfold raiseBoth; dsimp only; (repeat' split) <;> simp; done)
@[simp] theorem latchTrigger_parts (s : State) (ident : Nat) :
    (latchTrigger s ident).pending = s.pending ∧ (latchTrigger s ident).tx = s.tx ∧ (latchTrigger s ident).free = s.free ∧ (latchTrigger s ident).now = s.now ∧ (latchTrigger s ident).tck = s.tck ∧ (latchTrigger s ident).pwr = s.pwr ∧ (latchTrigger s ident).host = s.host ∧ (latchTrigger s ident).cfg = s.cfg ∧ (latchTrigger s ident).slt = s.slt ∧ (latchTrigger s ident).recd = s.recd ∧ (latchTrigger s ident).img = s.img ∧ (latchTrigger s ident).ldr = s.ldr ∧ (latchTrigger s ident).chg = s.chg ∧ (latchTrigger s ident).rods = s.rods ∧ (latchTrigger s ident).trk = s.trk ∧ (latchTrigger s ident).ntm = s.ntm ∧ (latchTrigger s ident).lnk = s.lnk ∧ (latchTrigger s ident).cry = s.cry ∧ (latchTrigger s ident).brk = s.brk ∧ (latchTrigger s ident).can = s.can ∧ (latchTrigger s ident).lch = s.lch ∧ (latchTrigger s ident).mtr = s.mtr ∧ (latchTrigger s ident).wdt = s.wdt ∧ (latchTrigger s ident).fwu = s.fwu := by
  first | (simp [latchTrigger]; done) | (simp only [latchTrigger]; (repeat' split) <;> simp; done) | (unfold latchTrigger; dsimp only; (repeat' split) <;> simp; done)
@[simp] theorem carrySend_parts (s : State) (type : Nat) (payload : List Byte) :
    (carrySend s type payload).pending = s.pending ∧ (carrySend s type payload).free = s.free ∧ (carrySend s type payload).now = s.now ∧ (carrySend s type payload).tck = s.tck ∧ (carrySend s type payload).pwr = s.pwr ∧ (carrySend s type payload).host = s.host ∧ (carrySend s type payload).cfg = s.cfg ∧ (carrySend s type payload).slt = s.slt ∧ (carrySend s type payload).recd = s.recd ∧ (carrySend s type payload).img = s.img ∧ (carrySend s type payload).ldr = s.ldr ∧ (carrySend s type payload).tasks = s.tasks ∧ (carrySend s type payload).chg = s.chg ∧ (carrySend s type payload).rods = s.rods ∧ (carrySend s type payload).trk = s.trk ∧ (carrySend s type payload).ntm = s.ntm ∧ (carrySend s type payload).lnk = s.lnk ∧ (carrySend s type payload).cry = s.cry ∧ (carrySend s type payload).brk = s.brk ∧ (carrySend s type payload).can = s.can ∧ (carrySend s type payload).lch = s.lch ∧ (carrySend s type payload).mtr = s.mtr ∧ (carrySend s type payload).wdt = s.wdt ∧ (carrySend s type payload).fwu = s.fwu := by
  first | (simp [carrySend]; done) | (simp only [carrySend]; (repeat' split) <;> simp; done) | (unfold carrySend; dsimp only; (repeat' split) <;> simp; done)
@[simp] theorem maybeStart_parts (s : State) (k : Nat) :
    (maybeStart s k).pending = s.pending ∧ (maybeStart s k).tx = s.tx ∧ (maybeStart s k).now = s.now ∧ (maybeStart s k).tck = s.tck ∧ (maybeStart s k).pwr = s.pwr ∧ (maybeStart s k).host = s.host ∧ (maybeStart s k).cfg = s.cfg ∧ (maybeStart s k).slt = s.slt ∧ (maybeStart s k).recd = s.recd ∧ (maybeStart s k).img = s.img ∧ (maybeStart s k).ldr = s.ldr ∧ (maybeStart s k).tasks = s.tasks ∧ (maybeStart s k).chg = s.chg ∧ (maybeStart s k).rods = s.rods ∧ (maybeStart s k).trk = s.trk ∧ (maybeStart s k).ntm = s.ntm ∧ (maybeStart s k).lnk = s.lnk ∧ (maybeStart s k).cry = s.cry ∧ (maybeStart s k).brk = s.brk ∧ (maybeStart s k).lch = s.lch ∧ (maybeStart s k).mtr = s.mtr ∧ (maybeStart s k).wdt = s.wdt ∧ (maybeStart s k).fwu = s.fwu := by
  unfold maybeStart; dsimp only; split
  · split <;> simp [freeBool]
  · simp
@[simp] theorem releaseClaim_parts (s : State) :
    (releaseClaim s).pending = s.pending ∧ (releaseClaim s).tx = s.tx ∧ (releaseClaim s).now = s.now ∧ (releaseClaim s).tck = s.tck ∧ (releaseClaim s).pwr = s.pwr ∧ (releaseClaim s).host = s.host ∧ (releaseClaim s).cfg = s.cfg ∧ (releaseClaim s).slt = s.slt ∧ (releaseClaim s).recd = s.recd ∧ (releaseClaim s).img = s.img ∧ (releaseClaim s).ldr = s.ldr ∧ (releaseClaim s).tasks = s.tasks ∧ (releaseClaim s).chg = s.chg ∧ (releaseClaim s).rods = s.rods ∧ (releaseClaim s).trk = s.trk ∧ (releaseClaim s).ntm = s.ntm ∧ (releaseClaim s).lnk = s.lnk ∧ (releaseClaim s).brk = s.brk ∧ (releaseClaim s).mtr = s.mtr ∧ (releaseClaim s).wdt = s.wdt ∧ (releaseClaim s).fwu = s.fwu := by
  first | (simp [releaseClaim]; done) | (simp only [releaseClaim]; (repeat' split) <;> simp; done) | (unfold releaseClaim; dsimp only; (repeat' split) <;> simp; done)
@[simp] theorem pairFault_parts (s : State) (reason kind : Nat) :
    (pairFault s reason kind).pending = s.pending ∧ (pairFault s reason kind).now = s.now ∧ (pairFault s reason kind).tck = s.tck ∧ (pairFault s reason kind).pwr = s.pwr ∧ (pairFault s reason kind).host = s.host ∧ (pairFault s reason kind).cfg = s.cfg ∧ (pairFault s reason kind).slt = s.slt ∧ (pairFault s reason kind).recd = s.recd ∧ (pairFault s reason kind).img = s.img ∧ (pairFault s reason kind).ldr = s.ldr ∧ (pairFault s reason kind).tasks = s.tasks ∧ (pairFault s reason kind).chg = s.chg ∧ (pairFault s reason kind).rods = s.rods ∧ (pairFault s reason kind).trk = s.trk ∧ (pairFault s reason kind).ntm = s.ntm ∧ (pairFault s reason kind).lnk = s.lnk ∧ (pairFault s reason kind).brk = s.brk ∧ (pairFault s reason kind).mtr = s.mtr ∧ (pairFault s reason kind).wdt = s.wdt ∧ (pairFault s reason kind).fwu = s.fwu := by
  first | (simp [pairFault]; done) | (simp only [pairFault]; (repeat' split) <;> simp; done) | (unfold pairFault; dsimp only; (repeat' split) <;> simp; done)
@[simp] theorem signalFault_parts (s : State) (f : PendFault) :
    (signalFault s f).pending = s.pending ∧ (signalFault s f).now = s.now ∧ (signalFault s f).pwr = s.pwr ∧ (signalFault s f).host = s.host ∧ (signalFault s f).cfg = s.cfg ∧ (signalFault s f).slt = s.slt ∧ (signalFault s f).recd = s.recd ∧ (signalFault s f).img = s.img ∧ (signalFault s f).ldr = s.ldr ∧ (signalFault s f).tasks = s.tasks ∧ (signalFault s f).chg = s.chg ∧ (signalFault s f).rods = s.rods ∧ (signalFault s f).trk = s.trk ∧ (signalFault s f).ntm = s.ntm ∧ (signalFault s f).lnk = s.lnk ∧ (signalFault s f).brk = s.brk ∧ (signalFault s f).mtr = s.mtr ∧ (signalFault s f).wdt = s.wdt ∧ (signalFault s f).fwu = s.fwu := by
  first | (simp [signalFault]; done) | (simp only [signalFault]; (repeat' split) <;> simp; done) | (unfold signalFault; dsimp only; (repeat' split) <;> simp; done)
@[simp] theorem faultWins_parts (s : State) (new old : PendFault) :
    ((faultWins s new old).2).pending = s.pending ∧ ((faultWins s new old).2).tx = s.tx ∧ ((faultWins s new old).2).now = s.now ∧ ((faultWins s new old).2).tck = s.tck ∧ ((faultWins s new old).2).pwr = s.pwr ∧ ((faultWins s new old).2).host = s.host ∧ ((faultWins s new old).2).cfg = s.cfg ∧ ((faultWins s new old).2).slt = s.slt ∧ ((faultWins s new old).2).recd = s.recd ∧ ((faultWins s new old).2).img = s.img ∧ ((faultWins s new old).2).ldr = s.ldr ∧ ((faultWins s new old).2).tasks = s.tasks ∧ ((faultWins s new old).2).chg = s.chg ∧ ((faultWins s new old).2).rods = s.rods ∧ ((faultWins s new old).2).trk = s.trk ∧ ((faultWins s new old).2).ntm = s.ntm ∧ ((faultWins s new old).2).lnk = s.lnk ∧ ((faultWins s new old).2).cry = s.cry ∧ ((faultWins s new old).2).brk = s.brk ∧ ((faultWins s new old).2).can = s.can ∧ ((faultWins s new old).2).lch = s.lch ∧ ((faultWins s new old).2).mtr = s.mtr ∧ ((faultWins s new old).2).wdt = s.wdt ∧ ((faultWins s new old).2).fwu = s.fwu := by
  unfold faultWins; (repeat' split) <;> simp [freeBool, freeNat]
@[simp] theorem raiseFault_parts (s : State) (code : Nat) (cycle : Option Nat) (rod : Nat) (ps : List Nat) :
    (raiseFault s code cycle rod ps).pending = s.pending ∧ (raiseFault s code cycle rod ps).now = s.now ∧ (raiseFault s code cycle rod ps).pwr = s.pwr ∧ (raiseFault s code cycle rod ps).cfg = s.cfg ∧ (raiseFault s code cycle rod ps).slt = s.slt ∧ (raiseFault s code cycle rod ps).img = s.img ∧ (raiseFault s code cycle rod ps).ldr = s.ldr ∧ (raiseFault s code cycle rod ps).tasks = s.tasks ∧ (raiseFault s code cycle rod ps).chg = s.chg ∧ (raiseFault s code cycle rod ps).rods = s.rods ∧ (raiseFault s code cycle rod ps).trk = s.trk ∧ (raiseFault s code cycle rod ps).ntm = s.ntm ∧ (raiseFault s code cycle rod ps).lnk = s.lnk ∧ (raiseFault s code cycle rod ps).brk = s.brk ∧ (raiseFault s code cycle rod ps).mtr = s.mtr ∧ (raiseFault s code cycle rod ps).wdt = s.wdt ∧ (raiseFault s code cycle rod ps).fwu = s.fwu := by
  first | (simp [raiseFault]; done) | (simp only [raiseFault]; (repeat' split) <;> simp; done) | (unfold raiseFault; dsimp only; (repeat' split) <;> simp; done)
@[simp] theorem startXfer_parts (s : State) (w : Who) (r : Req) (kind : XferKind) :
    (startXfer s w r kind).pending = s.pending ∧ (startXfer s w r kind).free = s.free ∧ (startXfer s w r kind).now = s.now ∧ (startXfer s w r kind).tck = s.tck ∧ (startXfer s w r kind).pwr = s.pwr ∧ (startXfer s w r kind).cfg = s.cfg ∧ (startXfer s w r kind).slt = s.slt ∧ (startXfer s w r kind).recd = s.recd ∧ (startXfer s w r kind).img = s.img ∧ (startXfer s w r kind).ldr = s.ldr ∧ (startXfer s w r kind).tasks = s.tasks ∧ (startXfer s w r kind).chg = s.chg ∧ (startXfer s w r kind).rods = s.rods ∧ (startXfer s w r kind).trk = s.trk ∧ (startXfer s w r kind).ntm = s.ntm ∧ (startXfer s w r kind).lnk = s.lnk ∧ (startXfer s w r kind).cry = s.cry ∧ (startXfer s w r kind).brk = s.brk ∧ (startXfer s w r kind).can = s.can ∧ (startXfer s w r kind).lch = s.lch ∧ (startXfer s w r kind).mtr = s.mtr ∧ (startXfer s w r kind).wdt = s.wdt ∧ (startXfer s w r kind).fwu = s.fwu := by
  first | (simp [startXfer]; done) | (simp only [startXfer]; (repeat' split) <;> simp; done) | (unfold startXfer; dsimp only; (repeat' split) <;> simp; done)
@[simp] theorem doorbell_parts (s : State) (p : Port) (slot : Fin 32) (h : ReqHdr) (payload : List Byte) :
    (doorbell s p slot h payload).pending = s.pending ∧ (doorbell s p slot h payload).free = s.free ∧ (doorbell s p slot h payload).now = s.now ∧ (doorbell s p slot h payload).tck = s.tck ∧ (doorbell s p slot h payload).pwr = s.pwr ∧ (doorbell s p slot h payload).cfg = s.cfg ∧ (doorbell s p slot h payload).slt = s.slt ∧ (doorbell s p slot h payload).recd = s.recd ∧ (doorbell s p slot h payload).img = s.img ∧ (doorbell s p slot h payload).ldr = s.ldr ∧ (doorbell s p slot h payload).tasks = s.tasks ∧ (doorbell s p slot h payload).chg = s.chg ∧ (doorbell s p slot h payload).rods = s.rods ∧ (doorbell s p slot h payload).trk = s.trk ∧ (doorbell s p slot h payload).ntm = s.ntm ∧ (doorbell s p slot h payload).lnk = s.lnk ∧ (doorbell s p slot h payload).cry = s.cry ∧ (doorbell s p slot h payload).brk = s.brk ∧ (doorbell s p slot h payload).can = s.can ∧ (doorbell s p slot h payload).lch = s.lch ∧ (doorbell s p slot h payload).mtr = s.mtr ∧ (doorbell s p slot h payload).wdt = s.wdt ∧ (doorbell s p slot h payload).fwu = s.fwu := by
  first | (simp [doorbell]; done) | (simp only [doorbell]; (repeat' split) <;> simp; done) | (unfold doorbell; dsimp only; (repeat' split) <;> simp; done)
@[simp] theorem latchSource_parts (s : State) (n : Nat) :
    (latchSource s n).pending = s.pending ∧ (latchSource s n).tx = s.tx ∧ (latchSource s n).free = s.free ∧ (latchSource s n).now = s.now ∧ (latchSource s n).tck = s.tck ∧ (latchSource s n).pwr = s.pwr ∧ (latchSource s n).host = s.host ∧ (latchSource s n).cfg = s.cfg ∧ (latchSource s n).slt = s.slt ∧ (latchSource s n).recd = s.recd ∧ (latchSource s n).img = s.img ∧ (latchSource s n).ldr = s.ldr ∧ (latchSource s n).chg = s.chg ∧ (latchSource s n).rods = s.rods ∧ (latchSource s n).trk = s.trk ∧ (latchSource s n).ntm = s.ntm ∧ (latchSource s n).lnk = s.lnk ∧ (latchSource s n).cry = s.cry ∧ (latchSource s n).brk = s.brk ∧ (latchSource s n).can = s.can ∧ (latchSource s n).lch = s.lch ∧ (latchSource s n).mtr = s.mtr ∧ (latchSource s n).wdt = s.wdt ∧ (latchSource s n).fwu = s.fwu := by
  first | (simp [latchSource]; done) | (simp only [latchSource]; (repeat' split) <;> simp; done) | (unfold latchSource; dsimp only; (repeat' split) <;> simp; done)
theorem startCmd_parts (s : State) (r : Req) (code : Nat) (x : Req × Who × State) (h : startCmd s r code = some x) :
    x.2.2.pending = s.pending ∧ x.2.2.free = s.free ∧ x.2.2.now = s.now ∧ x.2.2.tck = s.tck ∧ x.2.2.pwr = s.pwr ∧ x.2.2.cfg = s.cfg ∧ x.2.2.slt = s.slt ∧ x.2.2.recd = s.recd ∧ x.2.2.img = s.img ∧ x.2.2.ldr = s.ldr ∧ x.2.2.tasks = s.tasks ∧ x.2.2.chg = s.chg ∧ x.2.2.rods = s.rods ∧ x.2.2.trk = s.trk ∧ x.2.2.ntm = s.ntm ∧ x.2.2.lnk = s.lnk ∧ x.2.2.cry = s.cry ∧ x.2.2.brk = s.brk ∧ x.2.2.can = s.can ∧ x.2.2.lch = s.lch ∧ x.2.2.mtr = s.mtr ∧ x.2.2.wdt = s.wdt ∧ x.2.2.fwu = s.fwu := by
  have h0 := offer_parts s r code
  generalize offer s r code = u at h0
  unfold startCmd takeFront at h
  split at h
  · dsimp only at h
    split at h
    · cases h; simp
    · cases h
  · cases h
end Sys2Proof.Machine
end

