-- ==== Sys2Proof/Laws/Answers.lean ====
section
/-! SUPPORT. The mailbox: what raising an interrupt, starting a command, refusing and answering do to the ports. -/
namespace Sys2Proof.Machine
open Sys2Proof

theorem sameBut_refl (ps : List Part) (s : State) : SameBut ps s s := fun p => Or.inr (by cases p <;> rfl)
theorem sameBut_trans {ps qs : List Part} {s t u : State} (h1 : SameBut ps s t) (h2 : SameBut qs t u) : SameBut (ps ++ qs) s u := by
  intro p
  rcases h1 p with h | h
  · exact .inl (List.mem_append.mpr (.inl h))
  · rcases h2 p with h' | h'
    · exact .inl (List.mem_append.mpr (.inr h'))
    · right; cases p <;> exact h'.trans h
theorem sameBut_mono {ps qs : List Part} {s t : State} (h : SameBut ps s t) (hs : ∀ p, p ∈ ps → p ∈ qs) : SameBut qs s t :=
  fun p => (h p).imp (hs p) id

theorem vector_get_set {α : Type} {n : Nat} (v : Vector α n) (i j : Fin n) (x : α) : (v.set i.val x).get j = if j = i then x else v.get j := by
  change (v.set i.val x)[j.val] = if j = i then x else v[j.val]
  rw [Vector.getElem_set]
  by_cases h : j = i
  · subst h; simp
  · have : ¬ i.val = j.val := fun e => h (Fin.ext e.symm)
    simp [h, this]

/-! ### Interrupts: only a status bit of one port changes -/

/-- Whatever of a port does not look at its interrupt status is the same. -/
theorem raiseVector_field {β : Type} (g : PortState → β) (hg : ∀ q x, g { q with irqStatus := x } = g q) (s : State) (p q : Port) (v : Fin 8) :
    g (portSt (raiseVector s p v) q) = g (portSt s q) := by
  unfold raiseVector
  dsimp only
  split
  · rfl
  · split <;> cases p <;> cases q <;> first | rfl | exact hg _ _
theorem raiseVector_set (s : State) (p : Port) (v : Fin 8) (h : (portSt s p).perst = false) :
    (portSt (raiseVector s p v) p).irqStatus.getLsbD v.val = true := by
  unfold raiseVector
  dsimp only
  rw [h, Bool.or_false]
  split
  · assumption
  · split <;> simp
theorem raiseVector_host (s : State) (p : Port) (v : Fin 8) : (raiseVector s p v).host.queue = s.host.queue ∧ (raiseVector s p v).host.sems = s.host.sems ∧
    (raiseVector s p v).host.xfers = s.host.xfers ∧ (raiseVector s p v).host.nextId = s.host.nextId := by
  unfold raiseVector
  dsimp only
  split
  · exact ⟨rfl, rfl, rfl, rfl⟩
  · split <;> cases p <;> exact ⟨rfl, rfl, rfl, rfl⟩
theorem raiseVector_slots (s : State) (p q : Port) (v : Fin 8) : (portSt (raiseVector s p v) q).slots = (portSt s q).slots :=
  raiseVector_field PortState.slots (fun _ _ => rfl) s p q v
theorem raiseVector_done (s : State) (p q : Port) (v : Fin 8) : (portSt (raiseVector s p v) q).done = (portSt s q).done :=
  raiseVector_field PortState.done (fun _ _ => rfl) s p q v

/-! ### Start, refusal, answer -/

/-- A row whose request starts runs its command on the state after the start, and the requests behind it are examined then; where the mailboxes
do not answer it does nothing. -/
theorem command_starts (s : State) (r : Req) (code : Nat) (w : Who) (u : State) (f : Req → Who → State → State) (h : Starts s r code w u) :
    command s r code f = serveQueue (f r w u) := by
  unfold command
  rw [h.1, h.2.1]
  rfl
theorem command_down (s : State) (r : Req) (code : Nat) (f : Req → Who → State → State) (h : mailboxUp s = false) : command s r code f = s := by
  unfold command; rw [h]; rfl
theorem refuseOr_refused (s : State) (w : Who) (cs : List (Bool × Nat)) (ok : State → State) (c : Nat) (h : firstReason cs = some c) :
    refuseOr s w cs ok = respond s w c [] := by unfold refuseOr; rw [h]
theorem refuseOr_taken (s : State) (w : Who) (cs : List (Bool × Nat)) (ok : State → State) (h : firstReason cs = none) :
    refuseOr s w cs ok = ok s := by unfold refuseOr; rw [h]
/-- The state of a slot after its answer. -/
theorem respondAt_slot (s : State) (w : Who) (reason : Nat) (tick : BitVec 64) (data : List Byte)
    (h : ((portSt s w.port).slots.get w.slot).busy = some w.id) :
    (portSt (respondAt s w reason tick data) w.port).slots =
      (portSt s w.port).slots.set w.slot { (portSt s w.port).slots.get w.slot with
        busy := none, response := some { code := w.code, reason := BitVec.ofNat 16 reason, seq := w.seq, tick := tick, data := data.take 65504 } } ∧
    (portSt (respondAt s w reason tick data) w.port).done = (portSt s w.port).done ||| (1#32 <<< w.slot.val) := by
  unfold respondAt
  dsimp only
  rw [if_pos h]
  split
  · rw [raiseVector_slots, raiseVector_done, portSt_setPort_same]; exact ⟨rfl, rfl⟩
  · rw [portSt_setPort_same]; exact ⟨rfl, rfl⟩
/-- An answer lands in the slot that waits for it. -/
theorem respondAt_lands (s : State) (r : Req) (code reason : Nat) (w : Who) (tick : BitVec 64) (data : List Byte) (h : Waits s r code w) :
    Responded (respondAt s w reason tick data) r code reason tick data := by
  obtain ⟨hp, hs, hc, hq, -, hb⟩ := h
  have := respondAt_slot s w reason tick data (by rw [hp, hs]; exact hb)
  unfold Responded
  rw [← hp, ← hs, this.1, this.2]
  refine ⟨?_, ?_, ?_⟩
  · rw [vector_get_set, if_pos rfl, hc, hq]
  · rw [vector_get_set, if_pos rfl]
  · have : ∀ (x : Dword) (k : Fin 32), (x ||| (1#32 <<< k.val)).getLsbD k.val = true := by intro x k; simp
    exact this _ _
theorem respond_lands (s : State) (r : Req) (code reason : Nat) (w : Who) (data : List Byte) (h : Waits s r code w) :
    Responded (respond s w reason data) r code reason s.tck.tick data := respondAt_lands s r code reason w s.tck.tick data h
/-- Whatever of a port does not look at its slots, DONE and interrupt status is the same after an answer. -/
theorem respondAt_field {β : Type} (g : PortState → β) (hg : ∀ q x d v, g { q with irqStatus := x, done := d, slots := v } = g q) (s : State) (w : Who)
    (reason : Nat) (tick : BitVec 64) (data : List Byte) (q : Port) : g (portSt (respondAt s w reason tick data) q) = g (portSt s q) := by
  have h0 : ∀ z x, g { z with irqStatus := x } = g z := fun z x => hg z x z.done z.slots
  unfold respondAt
  dsimp only
  split
  · have h1 : ∀ (f : PortState → PortState), (∀ z, g (f z) = g z) → g (portSt (setPort s w.port f) q) = g (portSt s q) := by
      intro f hf
      by_cases hq : q = w.port
      · subst hq; rw [portSt_setPort_same]; exact hf _
      · rw [portSt_setPort_other _ _ _ _ hq]
    split
    · rw [raiseVector_field g h0]; exact h1 _ (fun z => hg z z.irqStatus _ _)
    · exact h1 _ (fun z => hg z z.irqStatus _ _)
  · rfl
theorem respondAt_host (s : State) (w : Who) (reason : Nat) (tick : BitVec 64) (data : List Byte) :
    (respondAt s w reason tick data).host.queue = s.host.queue ∧ (respondAt s w reason tick data).host.sems = s.host.sems ∧
    (respondAt s w reason tick data).host.xfers = s.host.xfers := by
  unfold respondAt
  dsimp only
  split
  · split
    · simp only [raiseVector_host]; simp
    · simp
  · exact ⟨rfl, rfl, rfl⟩
/-- The other port keeps everything but interrupt status. -/
theorem respondAt_other (s : State) (w : Who) (reason : Nat) (tick : BitVec 64) (data : List Byte) (q : Port) (hq : q ≠ w.port) (x : BitVec 8) :
    { portSt (respondAt s w reason tick data) q with irqStatus := x } = { portSt s q with irqStatus := x } := by
  have hr : ∀ (u : State) (p : Port) (v : Fin 8), { portSt (raiseVector u p v) q with irqStatus := x } = { portSt u q with irqStatus := x } :=
    fun u p v => raiseVector_field (fun z => { z with irqStatus := x }) (fun _ _ => rfl) u p q v
  unfold respondAt
  dsimp only
  split
  · split
    · rw [hr, portSt_setPort_other _ _ _ _ hq]
    · rw [portSt_setPort_other _ _ _ _ hq]
  · rfl
/-- Everything an answer leaves of the host ports: the other slots, the other port but for interrupt status, the semaphores, the transfers, the queue. -/
theorem respondAt_frame (s : State) (r : Req) (code reason : Nat) (w : Who) (tick : BitVec 64) (data : List Byte) (h : Waits s r code w) :
    AnswerFrame r s (respondAt s w reason tick data) := by
  obtain ⟨hp, hs, -, -, -, hb⟩ := h
  have hslot := respondAt_slot s w reason tick data (by rw [hp, hs]; exact hb)
  have hhost := respondAt_host s w reason tick data
  refine ⟨?_, ?_, ?_, hhost.2.1, hhost.2.2, hhost.1⟩
  · exact respondAt_field (fun q => { q with irqStatus := (portSt s r.port).irqStatus, slots := (portSt s r.port).slots, done := (portSt s r.port).done })
      (fun _ _ _ _ => rfl) s w reason tick data r.port
  · intro k hk
    rw [← hp, hslot.1, vector_get_set, if_neg (by rw [hs]; exact hk)]
  · exact respondAt_other s w reason tick data _ (by rw [hp]; cases r.port <;> decide) _

end Sys2Proof.Machine
end

