-- ==== Sys2Proof/Laws/KeepBase.lean ====
section
/-! SUPPORT. What the functions of shared operations, the mailbox, migration, the image leave alone, of the queue of commands, the model's time, the mode and slate memory. -/
namespace Sys2Proof.Machine
open Sys2Proof
set_option linter.all false

/-! ### Folds -/
@[simp] theorem foldl_pending {α : Type} (f : State → α → State) (l : List α) (s : State) (h : ∀ s a, (f s a).pending = s.pending) : (l.foldl f s).pending = s.pending := by
  induction l generalizing s with
  | nil => rfl
  | cons a l ih => simp [List.foldl, ih, h]
theorem foldl_pending_of {α : Type} {f : State → α → State} {l : List α} {s t : State} (h : ∀ s a, (f s a).pending = s.pending) (h0 : s.pending = t.pending) : (l.foldl f s).pending = t.pending := (foldl_pending f l s h).trans h0
theorem foldl_p1_pending_of {α β : Type} {f : State × β → α → State × β} {l : List α} {p : State × β} {t : State} (h : ∀ p a, (f p a).1.pending = p.1.pending) (h0 : p.1.pending = t.pending) : (l.foldl f p).1.pending = t.pending := by
  induction l generalizing p with
  | nil => exact h0
  | cons a l ih => exact ih ((h p a).trans h0)
theorem foldl_p2_pending_of {α β : Type} {f : β × State → α → β × State} {l : List α} {p : β × State} {t : State} (h : ∀ p a, (f p a).2.pending = p.2.pending) (h0 : p.2.pending = t.pending) : (l.foldl f p).2.pending = t.pending := by
  induction l generalizing p with
  | nil => exact h0
  | cons a l ih => exact ih ((h p a).trans h0)
@[simp] theorem foldl_now {α : Type} (f : State → α → State) (l : List α) (s : State) (h : ∀ s a, (f s a).now = s.now) : (l.foldl f s).now = s.now := by
  induction l generalizing s with
  | nil => rfl
  | cons a l ih => simp [List.foldl, ih, h]
theorem foldl_now_of {α : Type} {f : State → α → State} {l : List α} {s t : State} (h : ∀ s a, (f s a).now = s.now) (h0 : s.now = t.now) : (l.foldl f s).now = t.now := (foldl_now f l s h).trans h0
theorem foldl_p1_now_of {α β : Type} {f : State × β → α → State × β} {l : List α} {p : State × β} {t : State} (h : ∀ p a, (f p a).1.now = p.1.now) (h0 : p.1.now = t.now) : (l.foldl f p).1.now = t.now := by
  induction l generalizing p with
  | nil => exact h0
  | cons a l ih => exact ih ((h p a).trans h0)
theorem foldl_p2_now_of {α β : Type} {f : β × State → α → β × State} {l : List α} {p : β × State} {t : State} (h : ∀ p a, (f p a).2.now = p.2.now) (h0 : p.2.now = t.now) : (l.foldl f p).2.now = t.now := by
  induction l generalizing p with
  | nil => exact h0
  | cons a l ih => exact ih ((h p a).trans h0)
@[simp] theorem foldl_mode {α : Type} (f : State → α → State) (l : List α) (s : State) (h : ∀ s a, (f s a).tck.mode = s.tck.mode) : (l.foldl f s).tck.mode = s.tck.mode := by
  induction l generalizing s with
  | nil => rfl
  | cons a l ih => simp [List.foldl, ih, h]
theorem foldl_mode_of {α : Type} {f : State → α → State} {l : List α} {s t : State} (h : ∀ s a, (f s a).tck.mode = s.tck.mode) (h0 : s.tck.mode = t.tck.mode) : (l.foldl f s).tck.mode = t.tck.mode := (foldl_mode f l s h).trans h0
theorem foldl_p1_mode_of {α β : Type} {f : State × β → α → State × β} {l : List α} {p : State × β} {t : State} (h : ∀ p a, (f p a).1.tck.mode = p.1.tck.mode) (h0 : p.1.tck.mode = t.tck.mode) : (l.foldl f p).1.tck.mode = t.tck.mode := by
  induction l generalizing p with
  | nil => exact h0
  | cons a l ih => exact ih ((h p a).trans h0)
theorem foldl_p2_mode_of {α β : Type} {f : β × State → α → β × State} {l : List α} {p : β × State} {t : State} (h : ∀ p a, (f p a).2.tck.mode = p.2.tck.mode) (h0 : p.2.tck.mode = t.tck.mode) : (l.foldl f p).2.tck.mode = t.tck.mode := by
  induction l generalizing p with
  | nil => exact h0
  | cons a l ih => exact ih ((h p a).trans h0)
@[simp] theorem foldl_mem {α : Type} (f : State → α → State) (l : List α) (s : State) (h : ∀ s a, (f s a).slt.mem = s.slt.mem) : (l.foldl f s).slt.mem = s.slt.mem := by
  induction l generalizing s with
  | nil => rfl
  | cons a l ih => simp [List.foldl, ih, h]
theorem foldl_mem_of {α : Type} {f : State → α → State} {l : List α} {s t : State} (h : ∀ s a, (f s a).slt.mem = s.slt.mem) (h0 : s.slt.mem = t.slt.mem) : (l.foldl f s).slt.mem = t.slt.mem := (foldl_mem f l s h).trans h0
theorem foldl_p1_mem_of {α β : Type} {f : State × β → α → State × β} {l : List α} {p : State × β} {t : State} (h : ∀ p a, (f p a).1.slt.mem = p.1.slt.mem) (h0 : p.1.slt.mem = t.slt.mem) : (l.foldl f p).1.slt.mem = t.slt.mem := by
  induction l generalizing p with
  | nil => exact h0
  | cons a l ih => exact ih ((h p a).trans h0)
theorem foldl_p2_mem_of {α β : Type} {f : β × State → α → β × State} {l : List α} {p : β × State} {t : State} (h : ∀ p a, (f p a).2.slt.mem = p.2.slt.mem) (h0 : p.2.slt.mem = t.slt.mem) : (l.foldl f p).2.slt.mem = t.slt.mem := by
  induction l generalizing p with
  | nil => exact h0
  | cons a l ih => exact ih ((h p a).trans h0)

/-! ### Ops -/
@[simp] theorem setPort_core (s : State) (p : Port) (f : PortState → PortState) : (setPort s p f).pending = s.pending ∧ (setPort s p f).now = s.now ∧ (setPort s p f).tck.mode = s.tck.mode ∧ (setPort s p f).slt.mem = s.slt.mem := by
  simp only [setPort]; (repeat' split) <;> simp
@[simp] theorem emit_core (s : State) (x : Tx) : (emit s x).pending = s.pending ∧ (emit s x).now = s.now ∧ (emit s x).tck.mode = s.tck.mode ∧ (emit s x).slt.mem = s.slt.mem := by
  simp [emit]
@[simp] theorem raiseVector_core (s : State) (p : Port) (v : Fin 8) : (raiseVector s p v).pending = s.pending ∧ (raiseVector s p v).now = s.now ∧ (raiseVector s p v).tck.mode = s.tck.mode ∧ (raiseVector s p v).slt.mem = s.slt.mem := by
  simp only [raiseVector]; (repeat' split) <;> simp
@[simp] theorem raiseCursor_core (s : State) (p : Port) : (raiseCursor s p).pending = s.pending ∧ (raiseCursor s p).now = s.now ∧ (raiseCursor s p).tck.mode = s.tck.mode ∧ (raiseCursor s p).slt.mem = s.slt.mem := by
  simp only [raiseCursor]; (repeat' split) <;> simp
@[simp] theorem enterReport_core (s : State) (code : Code) (fault boot : Bool) (ps : List Nat) (v : Option (List Byte)) (sec : Nat) (nsq : Dword) : (enterReport s code fault boot ps v sec nsq).pending = s.pending ∧ (enterReport s code fault boot ps v sec nsq).now = s.now ∧ (enterReport s code fault boot ps v sec nsq).tck.mode = s.tck.mode ∧ (enterReport s code fault boot ps v sec nsq).slt.mem = s.slt.mem := by
  simp only [enterReport]; (repeat' split) <;> simp
@[simp] theorem reportVar_core (s : State) (code : Code) (fault : Bool) (ps : List Nat) (v : Option (List Byte)) : (reportVar s code fault ps v).pending = s.pending ∧ (reportVar s code fault ps v).now = s.now ∧ (reportVar s code fault ps v).tck.mode = s.tck.mode ∧ (reportVar s code fault ps v).slt.mem = s.slt.mem := by
  simp only [reportVar]; (repeat' split) <;> simp
@[simp] theorem report_core (s : State) (code : Code) (fault : Bool) (ps : List Nat) : (report s code fault ps).pending = s.pending ∧ (report s code fault ps).now = s.now ∧ (report s code fault ps).tck.mode = s.tck.mode ∧ (report s code fault ps).slt.mem = s.slt.mem := by
  simp only [report]; (repeat' split) <;> simp
@[simp] theorem record_core (s : State) (code : Nat) (ps : List Nat) : (record s code ps).pending = s.pending ∧ (record s code ps).now = s.now ∧ (record s code ps).tck.mode = s.tck.mode ∧ (record s code ps).slt.mem = s.slt.mem := by
  simp [record]
@[simp] theorem respondAt_core (s : State) (w : Who) (reason : Nat) (tick : BitVec 64) (data : List Byte) : (respondAt s w reason tick data).pending = s.pending ∧ (respondAt s w reason tick data).now = s.now ∧ (respondAt s w reason tick data).tck.mode = s.tck.mode ∧ (respondAt s w reason tick data).slt.mem = s.slt.mem := by
  simp only [respondAt]; (repeat' split) <;> simp
@[simp] theorem respondOpt_core (s : State) (w : Option Who) (reason : Nat) (tick : BitVec 64) (data : List Byte) : (respondOpt s w reason tick data).pending = s.pending ∧ (respondOpt s w reason tick data).now = s.now ∧ (respondOpt s w reason tick data).tck.mode = s.tck.mode ∧ (respondOpt s w reason tick data).slt.mem = s.slt.mem := by
  simp only [respondOpt]; (repeat' split) <;> simp
@[simp] theorem setCan_core (s : State) (k : Nat) (f : CanCtl → CanCtl) : (setCan s k f).pending = s.pending ∧ (setCan s k f).now = s.now ∧ (setCan s k f).tck.mode = s.tck.mode ∧ (setCan s k f).slt.mem = s.slt.mem := by
  simp [setCan]
@[simp] theorem respond_core (s : State) (w : Who) (reason : Nat) (data : List Byte) : (respond s w reason data).pending = s.pending ∧ (respond s w reason data).now = s.now ∧ (respond s w reason data).tck.mode = s.tck.mode ∧ (respond s w reason data).slt.mem = s.slt.mem := by
  simp [respond]
@[simp] theorem freeNat_core (s : State) : (freeNat s).2.pending = s.pending ∧ (freeNat s).2.now = s.now ∧ (freeNat s).2.tck.mode = s.tck.mode ∧ (freeNat s).2.slt.mem = s.slt.mem := by
  simp [freeNat]
@[simp] theorem slateAsk_core (s : State) (pri : Nat) (w : SltWork) : (slateAsk s pri w).pending = s.pending ∧ (slateAsk s pri w).now = s.now ∧ (slateAsk s pri w).tck.mode = s.tck.mode ∧ (slateAsk s pri w).slt.mem = s.slt.mem := by
  simp [slateAsk]
@[simp] theorem freeBool_core (s : State) : (freeBool s).2.pending = s.pending ∧ (freeBool s).2.now = s.now ∧ (freeBool s).2.tck.mode = s.tck.mode ∧ (freeBool s).2.slt.mem = s.slt.mem := by
  simp [freeBool]
@[simp] theorem maybeStart_core (s : State) (k : Nat) : (maybeStart s k).pending = s.pending ∧ (maybeStart s k).now = s.now ∧ (maybeStart s k).tck.mode = s.tck.mode ∧ (maybeStart s k).slt.mem = s.slt.mem := by
  simp only [maybeStart]; (repeat' split) <;> simp
@[simp] theorem setLink_core (s : State) (k : Nat) (f : Link → Link) : (setLink s k f).pending = s.pending ∧ (setLink s k f).now = s.now ∧ (setLink s k f).tck.mode = s.tck.mode ∧ (setLink s k f).slt.mem = s.slt.mem := by
  simp [setLink]
@[simp] theorem setBlk_core (s : State) (b : Nat) (f : BlkCfg → BlkCfg) : (setBlk s b f).pending = s.pending ∧ (setBlk s b f).now = s.now ∧ (setBlk s b f).tck.mode = s.tck.mode ∧ (setBlk s b f).slt.mem = s.slt.mem := by
  simp [setBlk]
@[simp] theorem carrySendSeq_core (s : State) (type : Nat) (payload : List Byte) : (carrySendSeq s type payload).pending = s.pending ∧ (carrySendSeq s type payload).now = s.now ∧ (carrySendSeq s type payload).tck.mode = s.tck.mode ∧ (carrySendSeq s type payload).slt.mem = s.slt.mem := by
  simp only [carrySendSeq]; (repeat' split) <;> simp
@[simp] theorem sendControl_core (s : State) (apply : Nat) (code : Nat) (data : List Byte) : (sendControl s apply code data).pending = s.pending ∧ (sendControl s apply code data).now = s.now ∧ (sendControl s apply code data).tck.mode = s.tck.mode ∧ (sendControl s apply code data).slt.mem = s.slt.mem := by
  simp only [sendControl]; (repeat' (first | split | apply And.intro | refine foldl_pending_of (fun _ _ => ?_) ?_ | refine foldl_now_of (fun _ _ => ?_) ?_ | refine foldl_mode_of (fun _ _ => ?_) ?_ | refine foldl_mem_of (fun _ _ => ?_) ?_)) <;> simp
@[simp] theorem examine_core (s : State) (x0 : List Queued) : (examine s x0).pending = s.pending ∧ (examine s x0).now = s.now ∧ (examine s x0).tck.mode = s.tck.mode ∧ (examine s x0).slt.mem = s.slt.mem := by
  induction x0 generalizing s with
  | nil => simp [examine]
  | cons e l ih => unfold examine; dsimp only; split <;> simp [ih]
@[simp] theorem ringDoor_core (s : State) (p : Port) (slot : Fin 32) : (ringDoor s p slot).pending = s.pending ∧ (ringDoor s p slot).now = s.now ∧ (ringDoor s p slot).tck.mode = s.tck.mode ∧ (ringDoor s p slot).slt.mem = s.slt.mem := by
  simp only [ringDoor]; (repeat' split) <;> simp
@[simp] theorem writeArea_core (s : State) (p : Port) (slot : Fin 32) (area : List Byte) : (writeArea s p slot area).pending = s.pending ∧ (writeArea s p slot area).now = s.now ∧ (writeArea s p slot area).tck.mode = s.tck.mode ∧ (writeArea s p slot area).slt.mem = s.slt.mem := by
  simp [writeArea]
@[simp] theorem offer_core (s : State) (r : Req) (code : Nat) : (offer s r code).pending = s.pending ∧ (offer s r code).now = s.now ∧ (offer s r code).tck.mode = s.tck.mode ∧ (offer s r code).slt.mem = s.slt.mem := by
  simp only [offer]; (repeat' split) <;> simp
theorem startCmd_core (s : State) (r : Req) (code : Nat) (x : Req × Who × State) (h : startCmd s r code = some x) : x.2.2.pending = s.pending ∧ x.2.2.now = s.now ∧ x.2.2.tck.mode = s.tck.mode ∧ x.2.2.slt.mem = s.slt.mem := by
  have h0 := offer_core s r code
  generalize offer s r code = u at h0
  unfold startCmd takeFront at h
  split at h
  · dsimp only at h
    split at h
    · cases h; dsimp only; simp [h0]
    · cases h
  · cases h
@[simp] theorem tallyUp_core (s : State) (c : Nat) : (tallyUp s c).pending = s.pending ∧ (tallyUp s c).now = s.now ∧ (tallyUp s c).tck.mode = s.tck.mode ∧ (tallyUp s c).slt.mem = s.slt.mem := by
  simp [tallyUp]
@[simp] theorem setBank_core (s : State) (b : BankId) (f : BankSt → BankSt) : (setBank s b f).pending = s.pending ∧ (setBank s b f).now = s.now ∧ (setBank s b f).tck.mode = s.tck.mode ∧ (setBank s b f).slt.mem = s.slt.mem := by
  simp only [setBank]; (repeat' split) <;> simp
@[simp] theorem raiseBoth_core (s : State) (v : Fin 8) : (raiseBoth s v).pending = s.pending ∧ (raiseBoth s v).now = s.now ∧ (raiseBoth s v).tck.mode = s.tck.mode ∧ (raiseBoth s v).slt.mem = s.slt.mem := by
  simp [raiseBoth]
@[simp] theorem latchTrigger_core (s : State) (ident : Nat) : (latchTrigger s ident).pending = s.pending ∧ (latchTrigger s ident).now = s.now ∧ (latchTrigger s ident).tck.mode = s.tck.mode ∧ (latchTrigger s ident).slt.mem = s.slt.mem := by
  simp only [latchTrigger]; (repeat' split) <;> simp
@[simp] theorem carrySend_core (s : State) (type : Nat) (payload : List Byte) : (carrySend s type payload).pending = s.pending ∧ (carrySend s type payload).now = s.now ∧ (carrySend s type payload).tck.mode = s.tck.mode ∧ (carrySend s type payload).slt.mem = s.slt.mem := by
  simp only [carrySend]; (repeat' split) <;> simp
@[simp] theorem releaseClaim_core (s : State) : (releaseClaim s).pending = s.pending ∧ (releaseClaim s).now = s.now ∧ (releaseClaim s).tck.mode = s.tck.mode ∧ (releaseClaim s).slt.mem = s.slt.mem := by
  simp [releaseClaim]
@[simp] theorem pairFault_core (s : State) (reason kind : Nat) : (pairFault s reason kind).pending = s.pending ∧ (pairFault s reason kind).now = s.now ∧ (pairFault s reason kind).tck.mode = s.tck.mode ∧ (pairFault s reason kind).slt.mem = s.slt.mem := by
  simp only [pairFault]; (repeat' split) <;> simp
@[simp] theorem signalFault_core (s : State) (f : PendFault) : (signalFault s f).pending = s.pending ∧ (signalFault s f).now = s.now ∧ (signalFault s f).tck.mode = s.tck.mode ∧ (signalFault s f).slt.mem = s.slt.mem := by
  simp only [signalFault]; (repeat' split) <;> simp
@[simp] theorem faultWins_core (s : State) (new old : PendFault) : (faultWins s new old).2.pending = s.pending ∧ (faultWins s new old).2.now = s.now ∧ (faultWins s new old).2.tck.mode = s.tck.mode ∧ (faultWins s new old).2.slt.mem = s.slt.mem := by
  simp only [faultWins]; (repeat' split) <;> simp
@[simp] theorem raiseFault_core (s : State) (code : Nat) (cycle : Option Nat) (rod : Nat) (ps : List Nat) : (raiseFault s code cycle rod ps).pending = s.pending ∧ (raiseFault s code cycle rod ps).now = s.now ∧ (raiseFault s code cycle rod ps).tck.mode = s.tck.mode ∧ (raiseFault s code cycle rod ps).slt.mem = s.slt.mem := by
  simp only [raiseFault]; (repeat' split) <;> simp
@[simp] theorem setRod_core (s : State) (n : Nat) (r : Rod) : (setRod s n r).pending = s.pending ∧ (setRod s n r).now = s.now ∧ (setRod s n r).tck.mode = s.tck.mode ∧ (setRod s n r).slt.mem = s.slt.mem := by
  simp [setRod]
@[simp] theorem batchStart_core (s : State) : (batchStart s).pending = s.pending ∧ (batchStart s).now = s.now ∧ (batchStart s).tck.mode = s.tck.mode ∧ (batchStart s).slt.mem = s.slt.mem := by
  simp [batchStart]
@[simp] theorem batchEnd_core (s : State) : (batchEnd s).pending = s.pending ∧ (batchEnd s).now = s.now ∧ (batchEnd s).tck.mode = s.tck.mode ∧ (batchEnd s).slt.mem = s.slt.mem := by
  simp only [batchEnd]; (repeat' (first | split | apply And.intro | refine foldl_pending_of (fun _ _ => ?_) ?_ | refine foldl_now_of (fun _ _ => ?_) ?_ | refine foldl_mode_of (fun _ _ => ?_) ?_ | refine foldl_mem_of (fun _ _ => ?_) ?_)) <;> simp
@[simp] theorem freeInt_core (s : State) : (freeInt s).2.pending = s.pending ∧ (freeInt s).2.now = s.now ∧ (freeInt s).2.tck.mode = s.tck.mode ∧ (freeInt s).2.slt.mem = s.slt.mem := by
  simp [freeInt]
@[simp] theorem latchSource_core (s : State) (n : Nat) : (latchSource s n).pending = s.pending ∧ (latchSource s n).now = s.now ∧ (latchSource s n).tck.mode = s.tck.mode ∧ (latchSource s n).slt.mem = s.slt.mem := by
  simp [latchSource]

/-! ### Mailbox -/
@[simp] theorem roundFree_core (s : State) (a b : Nat) : (roundFree s a b).2.pending = s.pending ∧ (roundFree s a b).2.now = s.now ∧ (roundFree s a b).2.tck.mode = s.tck.mode ∧ (roundFree s a b).2.slt.mem = s.slt.mem := by
  simp only [roundFree]; (repeat' split) <;> simp
@[simp] theorem respondFree_core (s : State) (w : Who) : (respondFree s w).pending = s.pending ∧ (respondFree s w).now = s.now ∧ (respondFree s w).tck.mode = s.tck.mode ∧ (respondFree s w).slt.mem = s.slt.mem := by
  simp [respondFree]
@[simp] theorem access_core_pending (s : State) (p : Port) (f : State → State) (h0 : ∀ (y0 : State), (f y0).pending = y0.pending) : (access s p f).pending = s.pending := by
  simp only [access]; (repeat' split) <;> simp [*]
@[simp] theorem access_core_now (s : State) (p : Port) (f : State → State) (h0 : ∀ (y0 : State), (f y0).now = y0.now) : (access s p f).now = s.now := by
  simp only [access]; (repeat' split) <;> simp [*]
@[simp] theorem access_core_mode (s : State) (p : Port) (f : State → State) (h0 : ∀ (y0 : State), (f y0).tck.mode = y0.tck.mode) : (access s p f).tck.mode = s.tck.mode := by
  simp only [access]; (repeat' split) <;> simp [*]
@[simp] theorem access_core_mem (s : State) (p : Port) (f : State → State) (h0 : ∀ (y0 : State), (f y0).slt.mem = y0.slt.mem) : (access s p f).slt.mem = s.slt.mem := by
  simp only [access]; (repeat' split) <;> simp [*]
@[simp] theorem readDone_core (s : State) (p : Port) (v : Dword) : (readDone s p v).pending = s.pending ∧ (readDone s p v).now = s.now ∧ (readDone s p v).tck.mode = s.tck.mode ∧ (readDone s p v).slt.mem = s.slt.mem := by
  simp [readDone]
@[simp] theorem roundFreeInt_core (s : State) (a : Int) (b : Nat) : (roundFreeInt s a b).2.pending = s.pending ∧ (roundFreeInt s a b).2.now = s.now ∧ (roundFreeInt s a b).2.tck.mode = s.tck.mode ∧ (roundFreeInt s a b).2.slt.mem = s.slt.mem := by
  simp only [roundFreeInt]; (repeat' split) <;> simp
@[simp] theorem refuseOr_core_pending (s : State) (w : Who) (cases : List (Bool × Nat)) (ok : State → State) (h0 : ∀ (y0 : State), (ok y0).pending = y0.pending) : (refuseOr s w cases ok).pending = s.pending := by
  simp only [refuseOr]; (repeat' split) <;> simp [*]
@[simp] theorem refuseOr_core_now (s : State) (w : Who) (cases : List (Bool × Nat)) (ok : State → State) (h0 : ∀ (y0 : State), (ok y0).now = y0.now) : (refuseOr s w cases ok).now = s.now := by
  simp only [refuseOr]; (repeat' split) <;> simp [*]
@[simp] theorem refuseOr_core_mode (s : State) (w : Who) (cases : List (Bool × Nat)) (ok : State → State) (h0 : ∀ (y0 : State), (ok y0).tck.mode = y0.tck.mode) : (refuseOr s w cases ok).tck.mode = s.tck.mode := by
  simp only [refuseOr]; (repeat' split) <;> simp [*]
@[simp] theorem refuseOr_core_mem (s : State) (w : Who) (cases : List (Bool × Nat)) (ok : State → State) (h0 : ∀ (y0 : State), (ok y0).slt.mem = y0.slt.mem) : (refuseOr s w cases ok).slt.mem = s.slt.mem := by
  simp only [refuseOr]; (repeat' split) <;> simp [*]
@[simp] theorem refuseShape_core_pending (s : State) (w : Who) (d : List Byte) (cases : List (Bool × Nat)) (ok : State → State) (h0 : ∀ (y0 : State), (ok y0).pending = y0.pending) : (refuseShape s w d cases ok).pending = s.pending := by
  simp only [refuseShape]; (repeat' (first | split | apply And.intro | refine refuseOr_core_pending _ _ _ _ (fun _ => ?_) | refine refuseOr_core_now _ _ _ _ (fun _ => ?_) | refine refuseOr_core_mode _ _ _ _ (fun _ => ?_) | refine refuseOr_core_mem _ _ _ _ (fun _ => ?_))) <;> simp [*]
@[simp] theorem refuseShape_core_now (s : State) (w : Who) (d : List Byte) (cases : List (Bool × Nat)) (ok : State → State) (h0 : ∀ (y0 : State), (ok y0).now = y0.now) : (refuseShape s w d cases ok).now = s.now := by
  simp only [refuseShape]; (repeat' (first | split | apply And.intro | refine refuseOr_core_pending _ _ _ _ (fun _ => ?_) | refine refuseOr_core_now _ _ _ _ (fun _ => ?_) | refine refuseOr_core_mode _ _ _ _ (fun _ => ?_) | refine refuseOr_core_mem _ _ _ _ (fun _ => ?_))) <;> simp [*]
@[simp] theorem refuseShape_core_mode (s : State) (w : Who) (d : List Byte) (cases : List (Bool × Nat)) (ok : State → State) (h0 : ∀ (y0 : State), (ok y0).tck.mode = y0.tck.mode) : (refuseShape s w d cases ok).tck.mode = s.tck.mode := by
  simp only [refuseShape]; (repeat' (first | split | apply And.intro | refine refuseOr_core_pending _ _ _ _ (fun _ => ?_) | refine refuseOr_core_now _ _ _ _ (fun _ => ?_) | refine refuseOr_core_mode _ _ _ _ (fun _ => ?_) | refine refuseOr_core_mem _ _ _ _ (fun _ => ?_))) <;> simp [*]
@[simp] theorem refuseShape_core_mem (s : State) (w : Who) (d : List Byte) (cases : List (Bool × Nat)) (ok : State → State) (h0 : ∀ (y0 : State), (ok y0).slt.mem = y0.slt.mem) : (refuseShape s w d cases ok).slt.mem = s.slt.mem := by
  simp only [refuseShape]; (repeat' (first | split | apply And.intro | refine refuseOr_core_pending _ _ _ _ (fun _ => ?_) | refine refuseOr_core_now _ _ _ _ (fun _ => ?_) | refine refuseOr_core_mode _ _ _ _ (fun _ => ?_) | refine refuseOr_core_mem _ _ _ _ (fun _ => ?_))) <;> simp [*]
@[simp] theorem serveQueue_core (s : State) : (serveQueue s).pending = s.pending ∧ (serveQueue s).now = s.now ∧ (serveQueue s).tck.mode = s.tck.mode ∧ (serveQueue s).slt.mem = s.slt.mem := by
  simp [serveQueue]
@[simp] theorem command_core_pending (s : State) (r : Req) (code : Nat) (f : Req → Who → State → State) (h0 : ∀ (y0 : Req) (y1 : Who) (y2 : State), (f y0 y1 y2).pending = y2.pending) : (command s r code f).pending = s.pending := by
  unfold command; split
  · rfl
  · split
    · rename_i x hx; exact (serveQueue_core _).1.trans ((h0 _ _ _).trans (startCmd_core _ _ _ _ hx).1)
    · simp
@[simp] theorem command_core_now (s : State) (r : Req) (code : Nat) (f : Req → Who → State → State) (h0 : ∀ (y0 : Req) (y1 : Who) (y2 : State), (f y0 y1 y2).now = y2.now) : (command s r code f).now = s.now := by
  unfold command; split
  · rfl
  · split
    · rename_i x hx; exact (serveQueue_core _).2.1.trans ((h0 _ _ _).trans (startCmd_core _ _ _ _ hx).2.1)
    · simp
@[simp] theorem command_core_mode (s : State) (r : Req) (code : Nat) (f : Req → Who → State → State) (h0 : ∀ (y0 : Req) (y1 : Who) (y2 : State), (f y0 y1 y2).tck.mode = y2.tck.mode) : (command s r code f).tck.mode = s.tck.mode := by
  unfold command; split
  · rfl
  · split
    · rename_i x hx; exact (serveQueue_core _).2.2.1.trans ((h0 _ _ _).trans (startCmd_core _ _ _ _ hx).2.2.1)
    · simp
@[simp] theorem command_core_mem (s : State) (r : Req) (code : Nat) (f : Req → Who → State → State) (h0 : ∀ (y0 : Req) (y1 : Who) (y2 : State), (f y0 y1 y2).slt.mem = y2.slt.mem) : (command s r code f).slt.mem = s.slt.mem := by
  unfold command; split
  · rfl
  · split
    · rename_i x hx; exact (serveQueue_core _).2.2.2.trans ((h0 _ _ _).trans (startCmd_core _ _ _ _ hx).2.2.2)
    · simp
@[simp] theorem startXfer_core (s : State) (w : Who) (r : Req) (kind : XferKind) : (startXfer s w r kind).pending = s.pending ∧ (startXfer s w r kind).now = s.now ∧ (startXfer s w r kind).tck.mode = s.tck.mode ∧ (startXfer s w r kind).slt.mem = s.slt.mem := by
  simp only [startXfer]; (repeat' split) <;> simp
@[simp] theorem doorbell_core (s : State) (p : Port) (slot : Fin 32) (h : ReqHdr) (payload : List Byte) : (doorbell s p slot h payload).pending = s.pending ∧ (doorbell s p slot h payload).now = s.now ∧ (doorbell s p slot h payload).tck.mode = s.tck.mode ∧ (doorbell s p slot h payload).slt.mem = s.slt.mem := by
  simp only [doorbell]; (repeat' split) <;> simp

/-! ### Migration -/
@[simp] theorem putInst_core (s : State) (b : BankId) (key : Nat) (v : Word) : (putInst s b key v).pending = s.pending ∧ (putInst s b key v).now = s.now ∧ (putInst s b key v).tck.mode = s.tck.mode ∧ (putInst s b key v).slt.mem = s.slt.mem := by
  simp [putInst]
@[simp] theorem markDirty_core (s : State) (seg ofs n : Nat) : (markDirty s seg ofs n).pending = s.pending ∧ (markDirty s seg ofs n).now = s.now ∧ (markDirty s seg ofs n).tck.mode = s.tck.mode ∧ (markDirty s seg ofs n).slt.mem = s.slt.mem := by
  simp only [markDirty]; (repeat' (first | split | apply And.intro | refine foldl_pending_of (fun _ _ => ?_) ?_ | refine foldl_now_of (fun _ _ => ?_) ?_ | refine foldl_mode_of (fun _ _ => ?_) ?_ | refine foldl_mem_of (fun _ _ => ?_) ?_)) <;> simp
@[simp] theorem lineInto_core (s : State) (new old : BankId) (b : Bank) (key : Nat) : (lineInto s new old b key).pending = s.pending ∧ (lineInto s new old b key).now = s.now ∧ (lineInto s new old b key).tck.mode = s.tck.mode ∧ (lineInto s new old b key).slt.mem = s.slt.mem := by
  simp [lineInto]
@[simp] theorem buildLine_core (s : State) (key : Nat) : (buildLine s key).pending = s.pending ∧ (buildLine s key).now = s.now ∧ (buildLine s key).tck.mode = s.tck.mode ∧ (buildLine s key).slt.mem = s.slt.mem := by
  simp only [buildLine]; (repeat' split) <;> simp
@[simp] theorem clearViews_core (s : State) : (clearViews s).pending = s.pending ∧ (clearViews s).now = s.now ∧ (clearViews s).tck.mode = s.tck.mode ∧ (clearViews s).slt.mem = s.slt.mem := by
  simp [clearViews]
@[simp] theorem refreshView_core (s : State) (touched : Point → Bool) : (refreshView s touched).pending = s.pending ∧ (refreshView s touched).now = s.now ∧ (refreshView s touched).tck.mode = s.tck.mode ∧ (refreshView s touched).slt.mem = s.slt.mem := by
  simp only [refreshView]; (repeat' split) <;> simp
@[simp] theorem catchUpLine_core (s : State) (key : Nat) : (catchUpLine s key).pending = s.pending ∧ (catchUpLine s key).now = s.now ∧ (catchUpLine s key).tck.mode = s.tck.mode ∧ (catchUpLine s key).slt.mem = s.slt.mem := by
  simp only [catchUpLine]; (repeat' split) <;> simp

/-! ### Image -/
@[simp] theorem dropForces_core (s : State) (new : SMap Point) : (dropForces s new).pending = s.pending ∧ (dropForces s new).now = s.now ∧ (dropForces s new).tck.mode = s.tck.mode ∧ (dropForces s new).slt.mem = s.slt.mem := by
  simp only [dropForces]; (repeat' (first | split | apply And.intro | refine foldl_pending_of (fun _ _ => ?_) ?_ | refine foldl_now_of (fun _ _ => ?_) ?_ | refine foldl_mode_of (fun _ _ => ?_) ?_ | refine foldl_mem_of (fun _ _ => ?_) ?_)) <;> simp
@[simp] theorem newTable_core (s : State) (old new : SMap Point) (m : Nat) (swap : Bool) : (newTable s old new m swap).pending = s.pending ∧ (newTable s old new m swap).now = s.now ∧ (newTable s old new m swap).tck.mode = s.tck.mode ∧ (newTable s old new m swap).slt.mem = s.slt.mem := by
  simp [newTable]
@[simp] theorem takeLaunch_core (s : State) : (takeLaunch s).pending = s.pending ∧ (takeLaunch s).now = s.now ∧ (takeLaunch s).tck.mode = s.tck.mode ∧ (takeLaunch s).slt.mem = s.slt.mem := by
  simp [takeLaunch]
@[simp] theorem countImageErr_core (s : State) (ref rod kind : Nat) : (countImageErr s ref rod kind).pending = s.pending ∧ (countImageErr s ref rod kind).now = s.now ∧ (countImageErr s ref rod kind).tck.mode = s.tck.mode ∧ (countImageErr s ref rod kind).slt.mem = s.slt.mem := by
  simp only [countImageErr]; (repeat' split) <;> simp
@[simp] theorem imageStore_core (s : State) (c rod lslot p : Nat) (v : Word) : (imageStore s c rod lslot p v).pending = s.pending ∧ (imageStore s c rod lslot p v).now = s.now ∧ (imageStore s c rod lslot p v).tck.mode = s.tck.mode ∧ (imageStore s c rod lslot p v).slt.mem = s.slt.mem := by
  simp [imageStore]
@[simp] theorem rowStore_core (s : State) (c rod lslot r v : Nat) : (rowStore s c rod lslot r v).pending = s.pending ∧ (rowStore s c rod lslot r v).now = s.now ∧ (rowStore s c rod lslot r v).tck.mode = s.tck.mode ∧ (rowStore s c rod lslot r v).slt.mem = s.slt.mem := by
  simp only [rowStore]; (repeat' (first | split | apply And.intro | refine foldl_pending_of (fun _ _ => ?_) ?_ | refine foldl_now_of (fun _ _ => ?_) ?_ | refine foldl_mode_of (fun _ _ => ?_) ?_ | refine foldl_mem_of (fun _ _ => ?_) ?_)) <;> simp
@[simp] theorem foldStores_core (s : State) : (foldStores s).pending = s.pending ∧ (foldStores s).now = s.now ∧ (foldStores s).tck.mode = s.tck.mode ∧ (foldStores s).slt.mem = s.slt.mem := by
  simp [foldStores]

end Sys2Proof.Machine
end

