-- ==== Sys2Proof/Laws/KeepCompute.lean ====
section
/-! SUPPORT. What the functions of rods, the trunk, the loader, online change, modes leave alone, of the queue of commands, the model's time, the mode and slate memory. -/
namespace Sys2Proof.Machine
open Sys2Proof
set_option linter.all false

/-! ### Rods -/
@[simp] theorem checkIn_core (s : State) (rod c n : Nat) : (checkIn s rod c n).pending = s.pending ∧ (checkIn s rod c n).now = s.now ∧ (checkIn s rod c n).tck.mode = s.tck.mode ∧ (checkIn s rod c n).slt.mem = s.slt.mem := by
  simp only [checkIn]; (repeat' split) <;> simp
@[simp] theorem reportDouble_core (s : State) : (reportDouble s).pending = s.pending ∧ (reportDouble s).now = s.now ∧ (reportDouble s).tck.mode = s.tck.mode ∧ (reportDouble s).slt.mem = s.slt.mem := by
  simp only [reportDouble]; (repeat' split) <;> simp
@[simp] theorem accessErr_core (s : State) (rod seg ofs kind : Nat) : (accessErr s rod seg ofs kind).pending = s.pending ∧ (accessErr s rod seg ofs kind).now = s.now ∧ (accessErr s rod seg ofs kind).tck.mode = s.tck.mode ∧ (accessErr s rod seg ofs kind).slt.mem = s.slt.mem := by
  simp only [accessErr]; (repeat' split) <;> simp
@[simp] theorem locStore_core (s : State) (r : Rod) (c ofs : Nat) (v : Word) : (locStore s r c ofs v).1.pending = s.pending ∧ (locStore s r c ofs v).1.now = s.now ∧ (locStore s r c ofs v).1.tck.mode = s.tck.mode ∧ (locStore s r c ofs v).1.slt.mem = s.slt.mem := by
  simp only [locStore]; (repeat' split) <;> simp
@[simp] theorem xstStore_core (s : State) (r : Rod) (x : XStore) : (xstStore s r x).1.pending = s.pending ∧ (xstStore s r x).1.now = s.now ∧ (xstStore s r x).1.tck.mode = s.tck.mode ∧ (xstStore s r x).1.slt.mem = s.slt.mem := by
  simp only [xstStore]; (repeat' split) <;> simp
@[simp] theorem landXst_core (s : State) (rod : Nat) (r : Rod) (c : Nat) : (landXst s rod r c).1.pending = s.pending ∧ (landXst s rod r c).1.now = s.now ∧ (landXst s rod r c).1.tck.mode = s.tck.mode ∧ (landXst s rod r c).1.slt.mem = s.slt.mem := by
  simp only [landXst]; (repeat' (first | split | apply And.intro | refine foldl_pending_of (fun _ _ => ?_) ?_ | refine foldl_now_of (fun _ _ => ?_) ?_ | refine foldl_mode_of (fun _ _ => ?_) ?_ | refine foldl_mem_of (fun _ _ => ?_) ?_ | refine foldl_p1_pending_of (fun _ _ => ?_) ?_ | refine foldl_p2_pending_of (fun _ _ => ?_) ?_ | refine foldl_p1_now_of (fun _ _ => ?_) ?_ | refine foldl_p2_now_of (fun _ _ => ?_) ?_ | refine foldl_p1_mode_of (fun _ _ => ?_) ?_ | refine foldl_p2_mode_of (fun _ _ => ?_) ?_ | refine foldl_p1_mem_of (fun _ _ => ?_) ?_ | refine foldl_p2_mem_of (fun _ _ => ?_) ?_)) <;> simp
@[simp] theorem landCache_core (s : State) (r : Rod) (c : Nat) : (landCache s r c).1.pending = s.pending ∧ (landCache s r c).1.now = s.now ∧ (landCache s r c).1.tck.mode = s.tck.mode ∧ (landCache s r c).1.slt.mem = s.slt.mem := by
  simp only [landCache]; (repeat' (first | split | apply And.intro | refine foldl_pending_of (fun _ _ => ?_) ?_ | refine foldl_now_of (fun _ _ => ?_) ?_ | refine foldl_mode_of (fun _ _ => ?_) ?_ | refine foldl_mem_of (fun _ _ => ?_) ?_)) <;> simp
@[simp] theorem landAll_core (s : State) (rod : Nat) (r : Rod) (c : Nat) : (landAll s rod r c).1.pending = s.pending ∧ (landAll s rod r c).1.now = s.now ∧ (landAll s rod r c).1.tck.mode = s.tck.mode ∧ (landAll s rod r c).1.slt.mem = s.slt.mem := by
  simp [landAll]
@[simp] theorem storeWords_core (s : State) (bank : Option BankId) (seg base : Nat) (ws : List Word) : (storeWords s bank seg base ws).pending = s.pending ∧ (storeWords s bank seg base ws).now = s.now ∧ (storeWords s bank seg base ws).tck.mode = s.tck.mode ∧ (storeWords s bank seg base ws).slt.mem = s.slt.mem := by
  simp only [storeWords]; (repeat' (first | split | apply And.intro | refine foldl_pending_of (fun _ _ => ?_) ?_ | refine foldl_now_of (fun _ _ => ?_) ?_ | refine foldl_mode_of (fun _ _ => ?_) ?_ | refine foldl_mem_of (fun _ _ => ?_) ?_ | refine foldl_p1_pending_of (fun _ _ => ?_) ?_ | refine foldl_p2_pending_of (fun _ _ => ?_) ?_ | refine foldl_p1_now_of (fun _ _ => ?_) ?_ | refine foldl_p2_now_of (fun _ _ => ?_) ?_ | refine foldl_p1_mode_of (fun _ _ => ?_) ?_ | refine foldl_p2_mode_of (fun _ _ => ?_) ?_ | refine foldl_p1_mem_of (fun _ _ => ?_) ?_ | refine foldl_p2_mem_of (fun _ _ => ?_) ?_)) <;> simp
@[simp] theorem abandonOp_core (s : State) (o : FqOp) : (abandonOp s o).pending = s.pending ∧ (abandonOp s o).now = s.now ∧ (abandonOp s o).tck.mode = s.tck.mode ∧ (abandonOp s o).slt.mem = s.slt.mem := by
  simp only [abandonOp]; (repeat' split) <;> simp
@[simp] theorem abandonAt_core (s : State) (rod : Nat) (o : FqOp) : (abandonAt s rod o).pending = s.pending ∧ (abandonAt s rod o).now = s.now ∧ (abandonAt s rod o).tck.mode = s.tck.mode ∧ (abandonAt s rod o).slt.mem = s.slt.mem := by
  simp only [abandonAt]; (repeat' split) <;> simp
@[simp] theorem track_core (s : State) (c rod lslot : Nat) (w : Tracked) : (track s c rod lslot w).pending = s.pending ∧ (track s c rod lslot w).now = s.now ∧ (track s c rod lslot w).tck.mode = s.tck.mode ∧ (track s c rod lslot w).slt.mem = s.slt.mem := by
  simp only [track]; (repeat' split) <;> simp
@[simp] theorem finishCompute_core (s : State) : (finishCompute s).pending = s.pending ∧ (finishCompute s).now = s.now ∧ (finishCompute s).tck.mode = s.tck.mode ∧ (finishCompute s).slt.mem = s.slt.mem := by
  simp only [finishCompute]; generalize List.range 48 = l; simp
@[simp] theorem closeCompute_core (s : State) : (closeCompute s).pending = s.pending ∧ (closeCompute s).now = s.now ∧ (closeCompute s).tck.mode = s.tck.mode ∧ (closeCompute s).slt.mem = s.slt.mem := by
  simp only [closeCompute]; (repeat' split) <;> simp
@[simp] theorem rodDone_core (s : State) (rod : Nat) (r : Rod) : (rodDone s rod r).pending = s.pending ∧ (rodDone s rod r).now = s.now ∧ (rodDone s rod r).tck.mode = s.tck.mode ∧ (rodDone s rod r).slt.mem = s.slt.mem := by
  simp only [rodDone]; (repeat' split) <;> simp
@[simp] theorem rodFault_core (s : State) (rod : Nat) (r : Rod) (code c : Nat) (ps : List Nat) : (rodFault s rod r code c ps).pending = s.pending ∧ (rodFault s rod r code c ps).now = s.now ∧ (rodFault s rod r code c ps).tck.mode = s.tck.mode ∧ (rodFault s rod r code c ps).slt.mem = s.slt.mem := by
  simp [rodFault]
@[simp] theorem result_s (a : Issue) (c dist slot : Nat) (d : Bool) (x : Dest) (v : Nat) : (a.result c dist slot d x v).s = a.s := rfl
@[simp] theorem transfer_s (a : Issue) (t : Option Nat) : (a.transfer t).s = a.s := rfl
@[simp] theorem results_s (a : Issue) (c dist slot : Nat) (d : Bool) (l : Results) : (a.results c dist slot d l).s = a.s := by
  unfold Issue.results
  induction l generalizing a with
  | nil => rfl
  | cons x l ih => simp [List.foldl, ih]
@[simp] theorem issueFq_core (a : Issue) (b : Bank) (rod c : Nat) (r0 : Rod) (p : Prim) : (issueFq a b rod c r0 p).s.pending = a.s.pending ∧ (issueFq a b rod c r0 p).s.now = a.s.now ∧ (issueFq a b rod c r0 p).s.tck.mode = a.s.tck.mode ∧ (issueFq a b rod c r0 p).s.slt.mem = a.s.slt.mem := by
  unfold issueFq
  extract_lets store slot seg base loc n limit derr lerr s1 s2 failed data o s3
  have h1 : s1.pending = a.s.pending ∧ s1.now = a.s.now ∧ s1.tck.mode = a.s.tck.mode ∧ s1.slt.mem = a.s.slt.mem := by simp only [s1]; (repeat' split) <;> simp
  have h2 : s2.pending = s1.pending ∧ s2.now = s1.now ∧ s2.tck.mode = s1.tck.mode ∧ s2.slt.mem = s1.slt.mem := by simp only [s2]; rcases derr with _ | k <;> rcases lerr with _ | k <;> simp
  have h3 : s3.pending = s2.pending ∧ s3.now = s2.now ∧ s3.tck.mode = s2.tck.mode ∧ s3.slt.mem = s2.slt.mem := by simp only [s3]; (repeat' split) <;> simp
  clear_value s1 s2 s3; simp [h1, h2, h3]
@[simp] theorem issueL_core (a : Issue) (b : Bank) (rod c : Nat) (r0 : Rod) (p : Prim) : (issueL a b rod c r0 p).s.pending = a.s.pending ∧ (issueL a b rod c r0 p).s.now = a.s.now ∧ (issueL a b rod c r0 p).s.tck.mode = a.s.tck.mode ∧ (issueL a b rod c r0 p).s.slt.mem = a.s.slt.mem := by
  simp only [issueL]; (repeat' split) <;> simp
@[simp] theorem issueC_core (a : Issue) (rod c : Nat) (r0 : Rod) (p : Prim) (code : List Nat) (pc next : Nat) : (issueC a rod c r0 p code pc next).s.pending = a.s.pending ∧ (issueC a rod c r0 p code pc next).s.now = a.s.now ∧ (issueC a rod c r0 p code pc next).s.tck.mode = a.s.tck.mode ∧ (issueC a rod c r0 p code pc next).s.slt.mem = a.s.slt.mem := by
  simp only [issueC]; (repeat' split) <;> simp
@[simp] theorem issuePrim_core (b : Bank) (rod c : Nat) (r0 : Rod) (code : List Nat) (pc next : Nat) (a : Issue) (p : Prim) : (issuePrim b rod c r0 code pc next a p).s.pending = a.s.pending ∧ (issuePrim b rod c r0 code pc next a p).s.now = a.s.now ∧ (issuePrim b rod c r0 code pc next a p).s.tck.mode = a.s.tck.mode ∧ (issuePrim b rod c r0 code pc next a p).s.slt.mem = a.s.slt.mem := by
  simp only [issuePrim]; (repeat' split) <;> simp
@[simp] theorem issueFold_core (b : Bank) (rod c : Nat) (r0 : Rod) (code : List Nat) (pc next : Nat) (a : Issue) (ps : List Prim) : (ps.foldl (issuePrim b rod c r0 code pc next) a).s.pending = a.s.pending ∧ (ps.foldl (issuePrim b rod c r0 code pc next) a).s.now = a.s.now ∧ (ps.foldl (issuePrim b rod c r0 code pc next) a).s.tck.mode = a.s.tck.mode ∧ (ps.foldl (issuePrim b rod c r0 code pc next) a).s.slt.mem = a.s.slt.mem := by
  induction ps generalizing a with
  | nil => simp
  | cons p ps ih => simp [List.foldl, ih]
@[simp] theorem wordErr_core (s : State) (rod c : Nat) (x : WordErr) : (wordErr s rod c x).pending = s.pending ∧ (wordErr s rod c x).now = s.now ∧ (wordErr s rod c x).tck.mode = s.tck.mode ∧ (wordErr s rod c x).slt.mem = s.slt.mem := by
  simp only [wordErr]; (repeat' split) <;> simp
@[simp] theorem issueBundle_core (s : State) (b : Bank) (rod : Nat) (r : Rod) (code : List Nat) (ps : List Prim) (len : Nat) (e : List WordErr) : (issueBundle s b rod r code ps len e).pending = s.pending ∧ (issueBundle s b rod r code ps len e).now = s.now ∧ (issueBundle s b rod r code ps len e).tck.mode = s.tck.mode ∧ (issueBundle s b rod r code ps len e).slt.mem = s.slt.mem := by
  unfold issueBundle
  extract_lets c pc next transfer rept a r1 skip taken r1b r2 r3 s1 r4 s2
  have h1 : s1.pending = s.pending ∧ s1.now = s.now ∧ s1.tck.mode = s.tck.mode ∧ s1.slt.mem = s.slt.mem := by simp [s1, a]
  clear_value s1
  have h2 : s2.pending = s.pending ∧ s2.now = s.now ∧ s2.tck.mode = s.tck.mode ∧ s2.slt.mem = s.slt.mem := by simp only [s2]; (repeat' split) <;> simp [h1]
  clear_value s2; simp [h2]
@[simp] theorem issueAt_core (s : State) (b : Bank) (rod : Nat) (e : IssueEcc) : (issueAt s b rod e).pending = s.pending ∧ (issueAt s b rod e).now = s.now ∧ (issueAt s b rod e).tck.mode = s.tck.mode ∧ (issueAt s b rod e).slt.mem = s.slt.mem := by
  simp only [issueAt]; (repeat' (first | split | apply And.intro | refine foldl_pending_of (fun _ _ => ?_) ?_ | refine foldl_now_of (fun _ _ => ?_) ?_ | refine foldl_mode_of (fun _ _ => ?_) ?_ | refine foldl_mem_of (fun _ _ => ?_) ?_)) <;> simp
@[simp] theorem bundleIssue_core (s : State) (rod : Nat) (e : IssueEcc) : (bundleIssue s rod e).pending = s.pending ∧ (bundleIssue s rod e).now = s.now ∧ (bundleIssue s rod e).tck.mode = s.tck.mode ∧ (bundleIssue s rod e).slt.mem = s.slt.mem := by
  simp only [bundleIssue]; (repeat' split) <;> simp
@[simp] theorem segmentStart_core (s : State) (rod : Nat) (e : IssueEcc) : (segmentStart s rod e).pending = s.pending ∧ (segmentStart s rod e).now = s.now ∧ (segmentStart s rod e).tck.mode = s.tck.mode ∧ (segmentStart s rod e).slt.mem = s.slt.mem := by
  simp only [segmentStart]; (repeat' split) <;> simp
@[simp] theorem resultLand_core (s : State) (rod : Nat) : (resultLand s rod).pending = s.pending ∧ (resultLand s rod).now = s.now ∧ (resultLand s rod).tck.mode = s.tck.mode ∧ (resultLand s rod).slt.mem = s.slt.mem := by
  simp [resultLand]
@[simp] theorem xstLand_core (s : State) (rod : Nat) : (xstLand s rod).pending = s.pending ∧ (xstLand s rod).now = s.now ∧ (xstLand s rod).tck.mode = s.tck.mode ∧ (xstLand s rod).slt.mem = s.slt.mem := by
  simp [xstLand]
@[simp] theorem waitfRetire_core (s : State) (rod cycles ns : Nat) : (waitfRetire s rod cycles ns).pending = s.pending ∧ (waitfRetire s rod cycles ns).now = s.now ∧ (waitfRetire s rod cycles ns).tck.mode = s.tck.mode ∧ (waitfRetire s rod cycles ns).slt.mem = s.slt.mem := by
  simp only [waitfRetire]; (repeat' split) <;> simp
@[simp] theorem computeStart_core (s : State) : (computeStart s).pending = s.pending ∧ (computeStart s).now = s.now ∧ (computeStart s).tck.mode = s.tck.mode ∧ (computeStart s).slt.mem = s.slt.mem := by
  unfold computeStart
  split
  · simp
  · split
    · generalize List.range 48 = l
      extract_lets s1 x1 x2 x3 s2 x4 s3
      have h1 : s1.pending = s.pending ∧ s1.now = s.now ∧ s1.tck.mode = s.tck.mode ∧ s1.slt.mem = s.slt.mem := by
        simp only [s1]; (repeat' (first | split | apply And.intro | refine foldl_pending_of (fun _ _ => ?_) ?_ | refine foldl_now_of (fun _ _ => ?_) ?_ | refine foldl_mode_of (fun _ _ => ?_) ?_ | refine foldl_mem_of (fun _ _ => ?_) ?_)) <;> simp
      clear_value s1
      have h3 : s3.pending = s1.pending ∧ s3.now = s1.now ∧ s3.tck.mode = s1.tck.mode ∧ s3.slt.mem = s1.slt.mem := by
        simp only [s3]; split <;> simp [s2, x1, x2, x3, x4]
      clear_value s3; simp [h1, h3]
    · simp

/-! ### Trunk -/
@[simp] theorem quotaWindow_core (s : State) : (quotaWindow s).pending = s.pending ∧ (quotaWindow s).now = s.now ∧ (quotaWindow s).tck.mode = s.tck.mode ∧ (quotaWindow s).slt.mem = s.slt.mem := by
  simp [quotaWindow]
@[simp] theorem setOp_core (s : State) (rod op : Nat) (f : FqOp → FqOp) : (setOp s rod op f).pending = s.pending ∧ (setOp s rod op f).now = s.now ∧ (setOp s rod op f).tck.mode = s.tck.mode ∧ (setOp s rod op f).slt.mem = s.slt.mem := by
  simp [setOp]
@[simp] theorem setBurst_core (s : State) (rod op j : Nat) (b : BurstSt) : (setBurst s rod op j b).pending = s.pending ∧ (setBurst s rod op j b).now = s.now ∧ (setBurst s rod op j b).tck.mode = s.tck.mode ∧ (setBurst s rod op j b).slt.mem = s.slt.mem := by
  simp [setBurst]
@[simp] theorem noteHeld_core (s : State) (who first : Nat) : (noteHeld s who first).pending = s.pending ∧ (noteHeld s who first).now = s.now ∧ (noteHeld s who first).tck.mode = s.tck.mode ∧ (noteHeld s who first).slt.mem = s.slt.mem := by
  simp only [noteHeld]; (repeat' split) <;> simp
@[simp] theorem preempt_core (s : State) (g : Grant) : (preempt s g).pending = s.pending ∧ (preempt s g).now = s.now ∧ (preempt s g).tck.mode = s.tck.mode ∧ (preempt s g).slt.mem = s.slt.mem := by
  simp only [preempt]; (repeat' split) <;> simp
@[simp] theorem countRestart_core (s : State) (who : Nat) : (countRestart s who).pending = s.pending ∧ (countRestart s who).now = s.now ∧ (countRestart s who).tck.mode = s.tck.mode ∧ (countRestart s who).slt.mem = s.slt.mem := by
  simp only [countRestart]; (repeat' split) <;> simp
@[simp] theorem grantTo_core (s : State) (who : Nat) : (grantTo s who).pending = s.pending ∧ (grantTo s who).now = s.now ∧ (grantTo s who).tck.mode = s.tck.mode ∧ (grantTo s who).slt.mem = s.slt.mem := by
  simp only [grantTo]; (repeat' split) <;> simp
@[simp] theorem trunkGrant_core (s : State) (others : List Nat) : (trunkGrant s others).pending = s.pending ∧ (trunkGrant s others).now = s.now ∧ (trunkGrant s others).tck.mode = s.tck.mode ∧ (trunkGrant s others).slt.mem = s.slt.mem := by
  simp only [trunkGrant]; (repeat' split) <;> simp
@[simp] theorem burstAccess_core (s : State) (rod op j : Nat) : (burstAccess s rod op j).pending = s.pending ∧ (burstAccess s rod op j).now = s.now ∧ (burstAccess s rod op j).tck.mode = s.tck.mode ∧ (burstAccess s rod op j).slt.mem = s.slt.mem := by
  simp only [burstAccess]; (repeat' split) <;> simp
@[simp] theorem grantPhaseEnd_core (s : State) : (grantPhaseEnd s).pending = s.pending ∧ (grantPhaseEnd s).now = s.now ∧ (grantPhaseEnd s).tck.mode = s.tck.mode ∧ (grantPhaseEnd s).slt.mem = s.slt.mem := by
  simp only [grantPhaseEnd]; (repeat' split) <;> simp
@[simp] theorem dramLost_core (s : State) (who : Nat) (addr : BitVec 48) (area : DramArea) : (dramLost s who addr area).pending = s.pending ∧ (dramLost s who addr area).now = s.now ∧ (dramLost s who addr area).tck.mode = s.tck.mode ∧ (dramLost s who addr area).slt.mem = s.slt.mem := by
  simp only [dramLost]; (repeat' split) <;> simp
@[simp] theorem dramErr_core (s : State) (who : Nat) (x : DramErr) : (dramErr s who x).pending = s.pending ∧ (dramErr s who x).now = s.now ∧ (dramErr s who x).tck.mode = s.tck.mode ∧ (dramErr s who x).slt.mem = s.slt.mem := by
  simp only [dramErr]; (repeat' split) <;> simp
@[simp] theorem trunkBurstDone_core (s : State) (who : Nat) (errs : List DramErr) : (trunkBurstDone s who errs).pending = s.pending ∧ (trunkBurstDone s who errs).now = s.now ∧ (trunkBurstDone s who errs).tck.mode = s.tck.mode ∧ (trunkBurstDone s who errs).slt.mem = s.slt.mem := by
  simp only [trunkBurstDone]; (repeat' (first | split | apply And.intro | refine foldl_pending_of (fun _ _ => ?_) ?_ | refine foldl_now_of (fun _ _ => ?_) ?_ | refine foldl_mode_of (fun _ _ => ?_) ?_ | refine foldl_mem_of (fun _ _ => ?_) ?_)) <;> simp
@[simp] theorem grantHeldLong_core (s : State) : (grantHeldLong s).pending = s.pending ∧ (grantHeldLong s).now = s.now ∧ (grantHeldLong s).tck.mode = s.tck.mode ∧ (grantHeldLong s).slt.mem = s.slt.mem := by
  simp only [grantHeldLong]; (repeat' split) <;> simp

/-! ### Loader -/
@[simp] theorem forward_core (carried : Bool) (s : State) (apply code : Nat) (data : List Byte) : (forward carried s apply code data).pending = s.pending ∧ (forward carried s apply code data).now = s.now ∧ (forward carried s apply code data).tck.mode = s.tck.mode ∧ (forward carried s apply code data).slt.mem = s.slt.mem := by
  simp only [forward]; (repeat' split) <;> simp
@[simp] theorem admitBank_core (s : State) (b : BankId) (img : List Byte) : (admitBank s b img).pending = s.pending ∧ (admitBank s b img).now = s.now ∧ (admitBank s b img).tck.mode = s.tck.mode ∧ (admitBank s b img).slt.mem = s.slt.mem := by
  simp [admitBank]
@[simp] theorem dropBank_core (s : State) : (dropBank s).pending = s.pending ∧ (dropBank s).now = s.now ∧ (dropBank s).tck.mode = s.tck.mode ∧ (dropBank s).slt.mem = s.slt.mem := by
  simp [dropBank]
@[simp] theorem noteReject_core (s : State) (x : Reject) : (noteReject s x).pending = s.pending ∧ (noteReject s x).now = s.now ∧ (noteReject s x).tck.mode = s.tck.mode ∧ (noteReject s x).slt.mem = s.slt.mem := by
  simp [noteReject]
@[simp] theorem rejectBank_core (s : State) (b : BankId) (x : Reject) : (rejectBank s b x).pending = s.pending ∧ (rejectBank s b x).now = s.now ∧ (rejectBank s b x).tck.mode = s.tck.mode ∧ (rejectBank s b x).slt.mem = s.slt.mem := by
  simp only [rejectBank]; (repeat' split) <;> simp
@[simp] theorem startSave_core (s : State) (b : BankId) (w : Option Who) : (startSave s b w).pending = s.pending ∧ (startSave s b w).now = s.now ∧ (startSave s b w).tck.mode = s.tck.mode ∧ (startSave s b w).slt.mem = s.slt.mem := by
  simp [startSave]
@[simp] theorem doSave_core (carried : Bool) (d : List Byte) (w : Who) (s : State) : (doSave carried d w s).pending = s.pending ∧ (doSave carried d w s).now = s.now ∧ (doSave carried d w s).tck.mode = s.tck.mode ∧ (doSave carried d w s).slt.mem = s.slt.mem := by
  simp [doSave]
@[simp] theorem loseBank_core (s : State) (b : BankId) : (loseBank s b).pending = s.pending ∧ (loseBank s b).now = s.now ∧ (loseBank s b).tck.mode = s.tck.mode ∧ (loseBank s b).slt.mem = s.slt.mem := by
  simp only [loseBank]; (repeat' split) <;> simp
@[simp] theorem doLoadBegin_core (carried : Bool) (d : List Byte) (w : Who) (s : State) : (doLoadBegin carried d w s).pending = s.pending ∧ (doLoadBegin carried d w s).now = s.now ∧ (doLoadBegin carried d w s).tck.mode = s.tck.mode ∧ (doLoadBegin carried d w s).slt.mem = s.slt.mem := by
  simp [doLoadBegin]
@[simp] theorem placeChunk_core (s : State) (b : BankId) (ofs len : Nat) (data : Option (List Byte)) : (placeChunk s b ofs len data).pending = s.pending ∧ (placeChunk s b ofs len data).now = s.now ∧ (placeChunk s b ofs len data).tck.mode = s.tck.mode ∧ (placeChunk s b ofs len data).slt.mem = s.slt.mem := by
  simp [placeChunk]
@[simp] theorem doActivate_core (carried : Bool) (d : List Byte) (w : Who) (s : State) : (doActivate carried d w s).pending = s.pending ∧ (doActivate carried d w s).now = s.now ∧ (doActivate carried d w s).tck.mode = s.tck.mode ∧ (doActivate carried d w s).slt.mem = s.slt.mem := by
  simp [doActivate]
@[simp] theorem doLoadEnd_core (carried : Bool) (d : List Byte) (w : Who) (s : State) : (doLoadEnd carried d w s).pending = s.pending ∧ (doLoadEnd carried d w s).now = s.now ∧ (doLoadEnd carried d w s).tck.mode = s.tck.mode ∧ (doLoadEnd carried d w s).slt.mem = s.slt.mem := by
  simp [doLoadEnd]
@[simp] theorem doRestore_core (carried : Bool) (d : List Byte) (w : Who) (s : State) : (doRestore carried d w s).pending = s.pending ∧ (doRestore carried d w s).now = s.now ∧ (doRestore carried d w s).tck.mode = s.tck.mode ∧ (doRestore carried d w s).slt.mem = s.slt.mem := by
  simp [doRestore]
@[simp] theorem doErase_core (carried : Bool) (d : List Byte) (w : Who) (s : State) : (doErase carried d w s).pending = s.pending ∧ (doErase carried d w s).now = s.now ∧ (doErase carried d w s).tck.mode = s.tck.mode ∧ (doErase carried d w s).slt.mem = s.slt.mem := by
  simp [doErase]
@[simp] theorem doVerify_core (carried : Bool) (d : List Byte) (w : Who) (s : State) : (doVerify carried d w s).pending = s.pending ∧ (doVerify carried d w s).now = s.now ∧ (doVerify carried d w s).tck.mode = s.tck.mode ∧ (doVerify carried d w s).slt.mem = s.slt.mem := by
  simp [doVerify]
@[simp] theorem bringIntoForce_core (s : State) (b : BankId) (edge : Nat) : (bringIntoForce s b edge).pending = s.pending ∧ (bringIntoForce s b edge).now = s.now ∧ (bringIntoForce s b edge).tck.mode = s.tck.mode ∧ (bringIntoForce s b edge).slt.mem = s.slt.mem := by
  simp only [bringIntoForce]; (repeat' split) <;> simp
@[simp] theorem loadDataEnd_core (s : State) (x : Xfer) (b : BankId) (ofs : Nat) (res : TransferResult) : (loadDataEnd s x b ofs res).pending = s.pending ∧ (loadDataEnd s x b ofs res).now = s.now ∧ (loadDataEnd s x b ofs res).tck.mode = s.tck.mode ∧ (loadDataEnd s x b ofs res).slt.mem = s.slt.mem := by
  simp only [loadDataEnd]; (repeat' split) <;> simp
@[simp] theorem doLoadData_core (r : Req) (w : Who) (s : State) : (doLoadData r w s).pending = s.pending ∧ (doLoadData r w s).now = s.now ∧ (doLoadData r w s).tck.mode = s.tck.mode ∧ (doLoadData r w s).slt.mem = s.slt.mem := by
  simp [doLoadData]
@[simp] theorem doBankInfo_core (d : List Byte) (w : Who) (s : State) : (doBankInfo d w s).pending = s.pending ∧ (doBankInfo d w s).now = s.now ∧ (doBankInfo d w s).tck.mode = s.tck.mode ∧ (doBankInfo d w s).slt.mem = s.slt.mem := by
  simp [doBankInfo]
@[simp] theorem saveComplete_core (s : State) (passed : Bool) : (saveComplete s passed).pending = s.pending ∧ (saveComplete s passed).now = s.now ∧ (saveComplete s passed).tck.mode = s.tck.mode ∧ (saveComplete s passed).slt.mem = s.slt.mem := by
  simp only [saveComplete]; (repeat' split) <;> simp
@[simp] theorem verifierEnd_core (s : State) (b : BankId) : (verifierEnd s b).pending = s.pending ∧ (verifierEnd s b).now = s.now ∧ (verifierEnd s b).tck.mode = s.tck.mode ∧ (verifierEnd s b).slt.mem = s.slt.mem := by
  simp only [verifierEnd]; (repeat' split) <;> simp

/-! ### Change -/
@[simp] theorem endChange_core (s : State) (reason : Nat) : (endChange s reason).pending = s.pending ∧ (endChange s reason).now = s.now ∧ (endChange s reason).tck.mode = s.tck.mode ∧ (endChange s reason).slt.mem = s.slt.mem := by
  simp only [endChange]; (repeat' split) <;> simp
@[simp] theorem noteDirty_core (s : State) : (noteDirty s).pending = s.pending ∧ (noteDirty s).now = s.now ∧ (noteDirty s).tck.mode = s.tck.mode ∧ (noteDirty s).slt.mem = s.slt.mem := by
  simp only [noteDirty]; (repeat' split) <;> simp
@[simp] theorem swapDecision_core (s : State) (m : Nat) : (swapDecision s m).pending = s.pending ∧ (swapDecision s m).now = s.now ∧ (swapDecision s m).tck.mode = s.tck.mode ∧ (swapDecision s m).slt.mem = s.slt.mem := by
  simp only [swapDecision]; (repeat' split) <;> simp
@[simp] theorem firstPassDone_core (s : State) : (firstPassDone s).pending = s.pending ∧ (firstPassDone s).now = s.now ∧ (firstPassDone s).tck.mode = s.tck.mode ∧ (firstPassDone s).slt.mem = s.slt.mem := by
  simp [firstPassDone]
@[simp] theorem migrationLineBuild_core (s : State) : (migrationLineBuild s).pending = s.pending ∧ (migrationLineBuild s).now = s.now ∧ (migrationLineBuild s).tck.mode = s.tck.mode ∧ (migrationLineBuild s).slt.mem = s.slt.mem := by
  simp only [migrationLineBuild]; (repeat' split) <;> simp
@[simp] theorem beginChange_core (s : State) (b : BankId) (old new : Bank) (w : Who) : (beginChange s b old new w).pending = s.pending ∧ (beginChange s b old new w).now = s.now ∧ (beginChange s b old new w).tck.mode = s.tck.mode ∧ (beginChange s b old new w).slt.mem = s.slt.mem := by
  simp only [beginChange]; (repeat' (first | split | apply And.intro | refine foldl_pending_of (fun _ _ => ?_) ?_ | refine foldl_now_of (fun _ _ => ?_) ?_ | refine foldl_mode_of (fun _ _ => ?_) ?_ | refine foldl_mem_of (fun _ _ => ?_) ?_ | refine foldl_p1_pending_of (fun _ _ => ?_) ?_ | refine foldl_p2_pending_of (fun _ _ => ?_) ?_ | refine foldl_p1_now_of (fun _ _ => ?_) ?_ | refine foldl_p2_now_of (fun _ _ => ?_) ?_ | refine foldl_p1_mode_of (fun _ _ => ?_) ?_ | refine foldl_p2_mode_of (fun _ _ => ?_) ?_ | refine foldl_p1_mem_of (fun _ _ => ?_) ?_ | refine foldl_p2_mem_of (fun _ _ => ?_) ?_)) <;> simp
@[simp] theorem doChgStart_core (carried : Bool) (d : List Byte) (w : Who) (s : State) : (doChgStart carried d w s).pending = s.pending ∧ (doChgStart carried d w s).now = s.now ∧ (doChgStart carried d w s).tck.mode = s.tck.mode ∧ (doChgStart carried d w s).slt.mem = s.slt.mem := by
  simp only [doChgStart]; (repeat' (first | split | apply And.intro | refine refuseOr_core_pending _ _ _ _ (fun _ => ?_) | refine refuseOr_core_now _ _ _ _ (fun _ => ?_) | refine refuseOr_core_mode _ _ _ _ (fun _ => ?_) | refine refuseOr_core_mem _ _ _ _ (fun _ => ?_))) <;> simp
@[simp] theorem doChgAbort_core (carried : Bool) (d : List Byte) (w : Who) (s : State) : (doChgAbort carried d w s).pending = s.pending ∧ (doChgAbort carried d w s).now = s.now ∧ (doChgAbort carried d w s).tck.mode = s.tck.mode ∧ (doChgAbort carried d w s).slt.mem = s.slt.mem := by
  simp [doChgAbort]
@[simp] theorem keepTriggers_core (s : State) (keep : Nat → Bool) : (keepTriggers s keep).pending = s.pending ∧ (keepTriggers s keep).now = s.now ∧ (keepTriggers s keep).tck.mode = s.tck.mode ∧ (keepTriggers s keep).slt.mem = s.slt.mem := by
  simp [keepTriggers]
@[simp] theorem finishLines_core (s : State) : (finishLines s).pending = s.pending ∧ (finishLines s).now = s.now ∧ (finishLines s).tck.mode = s.tck.mode ∧ (finishLines s).slt.mem = s.slt.mem := by
  simp only [finishLines]; (repeat' (first | split | apply And.intro | refine foldl_pending_of (fun _ _ => ?_) ?_ | refine foldl_now_of (fun _ _ => ?_) ?_ | refine foldl_mode_of (fun _ _ => ?_) ?_ | refine foldl_mem_of (fun _ _ => ?_) ?_)) <;> simp
@[simp] theorem swapEdge_core (s : State) (m : Nat) : (swapEdge s m).pending = s.pending ∧ (swapEdge s m).now = s.now ∧ (swapEdge s m).tck.mode = s.tck.mode ∧ (swapEdge s m).slt.mem = s.slt.mem := by
  simp only [swapEdge]; (repeat' split) <;> simp

/-! ### Modes -/
@[simp] theorem doFaultAck_core (carried : Bool) (w : Who) (s : State) : (doFaultAck carried w s).pending = s.pending ∧ (doFaultAck carried w s).now = s.now ∧ (doFaultAck carried w s).tck.mode = s.tck.mode ∧ (doFaultAck carried w s).slt.mem = s.slt.mem := by
  simp only [doFaultAck]; (repeat' (first | split | apply And.intro | refine refuseOr_core_pending _ _ _ _ (fun _ => ?_) | refine refuseOr_core_now _ _ _ _ (fun _ => ?_) | refine refuseOr_core_mode _ _ _ _ (fun _ => ?_) | refine refuseOr_core_mem _ _ _ _ (fun _ => ?_))) <;> simp
@[simp] theorem setTransition_core (s : State) (m : Mode) (w : Who) : (setTransition s m w).pending = s.pending ∧ (setTransition s m w).now = s.now ∧ (setTransition s m w).tck.mode = s.tck.mode ∧ (setTransition s m w).slt.mem = s.slt.mem := by
  simp [setTransition]
@[simp] theorem forwardMode_core (s : State) (code : Nat) : (forwardMode s code).pending = s.pending ∧ (forwardMode s code).now = s.now ∧ (forwardMode s code).tck.mode = s.tck.mode ∧ (forwardMode s code).slt.mem = s.slt.mem := by
  simp [forwardMode]
@[simp] theorem doStop_core (w : Who) (s : State) : (doStop w s).pending = s.pending ∧ (doStop w s).now = s.now ∧ (doStop w s).tck.mode = s.tck.mode ∧ (doStop w s).slt.mem = s.slt.mem := by
  simp [doStop]
@[simp] theorem doHold_core (w : Who) (s : State) : (doHold w s).pending = s.pending ∧ (doHold w s).now = s.now ∧ (doHold w s).tck.mode = s.tck.mode ∧ (doHold w s).slt.mem = s.slt.mem := by
  simp [doHold]
@[simp] theorem doStep_core (w : Who) (s : State) : (doStep w s).pending = s.pending ∧ (doStep w s).now = s.now ∧ (doStep w s).tck.mode = s.tck.mode ∧ (doStep w s).slt.mem = s.slt.mem := by
  simp [doStep]
@[simp] theorem throttleEngage_core (s : State) (mv : BitVec 12) : (throttleEngage s mv).pending = s.pending ∧ (throttleEngage s mv).now = s.now ∧ (throttleEngage s mv).tck.mode = s.tck.mode ∧ (throttleEngage s mv).slt.mem = s.slt.mem := by
  simp only [throttleEngage]; (repeat' split) <;> simp
@[simp] theorem throttleRecover_core (s : State) : (throttleRecover s).pending = s.pending ∧ (throttleRecover s).now = s.now ∧ (throttleRecover s).tck.mode = s.tck.mode ∧ (throttleRecover s).slt.mem = s.slt.mem := by
  simp only [throttleRecover]; (repeat' split) <;> simp
@[simp] theorem railWindowFault_core (s : State) (rail : Fin 5) : (railWindowFault s rail).pending = s.pending ∧ (railWindowFault s rail).now = s.now ∧ (railWindowFault s rail).tck.mode = s.tck.mode ∧ (railWindowFault s rail).slt.mem = s.slt.mem := by
  simp only [railWindowFault]; (repeat' split) <;> simp
@[simp] theorem tempSample_core (s : State) (t : BitVec 8) : (tempSample s t).pending = s.pending ∧ (tempSample s t).now = s.now ∧ (tempSample s t).tck.mode = s.tck.mode ∧ (tempSample s t).slt.mem = s.slt.mem := by
  simp only [tempSample]; (repeat' split) <;> simp

end Sys2Proof.Machine
end

