-- ==== Sys2Proof/Laws/KeepStore.lean ====
section
/-! SUPPORT. What the functions of slate memory and the recorder leave alone, of the queue of commands, the model's time, the mode and slate memory. -/
namespace Sys2Proof.Machine
open Sys2Proof
set_option linter.all false

/-! ### Slate -/
@[simp] theorem noteReads_core (s : State) (a n : Nat) : (noteReads s a n).pending = s.pending ∧ (noteReads s a n).now = s.now ∧ (noteReads s a n).tck.mode = s.tck.mode ∧ (noteReads s a n).slt.mem = s.slt.mem := by
  simp only [noteReads]; (repeat' (first | split | apply And.intro | refine foldl_pending_of (fun _ _ => ?_) ?_ | refine foldl_now_of (fun _ _ => ?_) ?_ | refine foldl_mode_of (fun _ _ => ?_) ?_ | refine foldl_mem_of (fun _ _ => ?_) ?_)) <;> simp
@[simp] theorem noteRun_core (s : State) (w : SltWork) : (noteRun s w).pending = s.pending ∧ (noteRun s w).now = s.now ∧ (noteRun s w).tck.mode = s.tck.mode ∧ (noteRun s w).slt.mem = s.slt.mem := by
  simp only [noteRun]; (repeat' split) <;> simp
@[simp] theorem putWord_core (s : State) (e : Nat × List Byte) : (putWord s e).pending = s.pending ∧ (putWord s e).now = s.now ∧ (putWord s e).tck.mode = s.tck.mode := by
  simp only [putWord]; (repeat' split) <;> simp
@[simp] theorem noteWritten_core (s : State) (r : SltRun) : (noteWritten s r).pending = s.pending ∧ (noteWritten s r).now = s.now ∧ (noteWritten s r).tck.mode = s.tck.mode ∧ (noteWritten s r).slt.mem = s.slt.mem := by
  simp only [noteWritten]; (repeat' split) <;> simp
@[simp] theorem finishRun_core (s : State) (r : SltRun) : (finishRun s r).pending = s.pending ∧ (finishRun s r).now = s.now ∧ (finishRun s r).tck.mode = s.tck.mode := by
  simp only [finishRun]; (repeat' (first | split | apply And.intro | refine foldl_pending_of (fun _ _ => ?_) ?_ | refine foldl_now_of (fun _ _ => ?_) ?_ | refine foldl_mode_of (fun _ _ => ?_) ?_ | refine foldl_mem_of (fun _ _ => ?_) ?_)) <;> simp
@[simp] theorem endRun_core (s : State) : (endRun s).pending = s.pending ∧ (endRun s).now = s.now ∧ (endRun s).tck.mode = s.tck.mode := by
  simp only [endRun]; (repeat' split) <;> simp
@[simp] theorem endClaim_core (s : State) : (endClaim s).pending = s.pending ∧ (endClaim s).now = s.now ∧ (endClaim s).tck.mode = s.tck.mode := by
  simp only [endClaim]; (repeat' split) <;> simp
@[simp] theorem opWords_core (s : State) (w : SltWork) : (opWords s w).2.pending = s.pending ∧ (opWords s w).2.now = s.now ∧ (opWords s w).2.tck.mode = s.tck.mode ∧ (opWords s w).2.slt.mem = s.slt.mem := by
  simp only [opWords]; (repeat' split) <;> simp
@[simp] theorem beginOp_core (s : State) (o : SltOp) : (beginOp s o).2.pending = s.pending ∧ (beginOp s o).2.now = s.now ∧ (beginOp s o).2.tck.mode = s.tck.mode ∧ (beginOp s o).2.slt.mem = s.slt.mem := by
  simp [beginOp]
@[simp] theorem startClaim_core (s : State) : (startClaim s).pending = s.pending ∧ (startClaim s).now = s.now ∧ (startClaim s).tck.mode = s.tck.mode ∧ (startClaim s).slt.mem = s.slt.mem := by
  simp only [startClaim]; (repeat' split) <;> simp
@[simp] theorem writeClaim_core (s : State) (c : Nat) : (writeClaim s c).pending = s.pending ∧ (writeClaim s c).now = s.now ∧ (writeClaim s c).tck.mode = s.tck.mode ∧ (writeClaim s c).slt.mem = s.slt.mem := by
  simp [writeClaim]
@[simp] theorem finishAll_core (s : State) : (finishAll s).pending = s.pending ∧ (finishAll s).now = s.now ∧ (finishAll s).tck.mode = s.tck.mode := by
  simp only [finishAll]; (repeat' split) <;> simp
@[simp] theorem scanRecord_core (s : State) (r : Nat) : (scanRecord s r).pending = s.pending ∧ (scanRecord s r).now = s.now ∧ (scanRecord s r).tck.mode = s.tck.mode ∧ (scanRecord s r).slt.mem = s.slt.mem := by
  simp only [scanRecord]; (repeat' split) <;> simp
@[simp] theorem cutRun_core (s : State) (r : Option SltRun) : (cutRun s r).pending = s.pending ∧ (cutRun s r).now = s.now ∧ (cutRun s r).tck.mode = s.tck.mode := by
  simp only [cutRun]; (repeat' (first | split | apply And.intro | refine foldl_pending_of (fun _ _ => ?_) ?_ | refine foldl_now_of (fun _ _ => ?_) ?_ | refine foldl_mode_of (fun _ _ => ?_) ?_ | refine foldl_mem_of (fun _ _ => ?_) ?_)) <;> simp
@[simp] theorem cutSlate_core (s : State) : (cutSlate s).pending = s.pending ∧ (cutSlate s).now = s.now ∧ (cutSlate s).tck.mode = s.tck.mode := by
  simp [cutSlate]
@[simp] theorem scanTally_core (s : State) (c : Nat) : (scanTally s c).pending = s.pending ∧ (scanTally s c).now = s.now ∧ (scanTally s c).tck.mode = s.tck.mode ∧ (scanTally s c).slt.mem = s.slt.mem := by
  simp only [scanTally]; split <;> simp
@[simp] theorem scanSlate_core (s : State) : (scanSlate s).pending = s.pending ∧ (scanSlate s).now = s.now ∧ (scanSlate s).tck.mode = s.tck.mode ∧ (scanSlate s).slt.mem = s.slt.mem := by
  simp [scanSlate]
@[simp] theorem claimsDone_core (s : State) : (claimsDone s).pending = s.pending ∧ (claimsDone s).now = s.now ∧ (claimsDone s).tck.mode = s.tck.mode := by
  simp only [claimsDone]; (repeat' (first | split | apply And.intro | refine foldl_pending_of (fun _ _ => ?_) ?_ | refine foldl_now_of (fun _ _ => ?_) ?_ | refine foldl_mode_of (fun _ _ => ?_) ?_ | refine foldl_mem_of (fun _ _ => ?_) ?_)) <;> simp
@[simp] theorem askWrite_core (carried : Bool) (s : State) (w : Who) (k : SltWork) (code : Nat) (d : List Byte) : (askWrite carried s w k code d).pending = s.pending ∧ (askWrite carried s w k code d).now = s.now ∧ (askWrite carried s w k code d).tck.mode = s.tck.mode ∧ (askWrite carried s w k code d).slt.mem = s.slt.mem := by
  simp [askWrite]
@[simp] theorem doSltRecWrite_core (carried : Bool) (d : List Byte) (w : Who) (s : State) : (doSltRecWrite carried d w s).pending = s.pending ∧ (doSltRecWrite carried d w s).now = s.now ∧ (doSltRecWrite carried d w s).tck.mode = s.tck.mode ∧ (doSltRecWrite carried d w s).slt.mem = s.slt.mem := by
  simp [doSltRecWrite]
@[simp] theorem doSltTallyAdd_core (carried : Bool) (d : List Byte) (w : Who) (s : State) : (doSltTallyAdd carried d w s).pending = s.pending ∧ (doSltTallyAdd carried d w s).now = s.now ∧ (doSltTallyAdd carried d w s).tck.mode = s.tck.mode ∧ (doSltTallyAdd carried d w s).slt.mem = s.slt.mem := by
  simp [doSltTallyAdd]
@[simp] theorem doSltRawWrite_core (carried : Bool) (d : List Byte) (w : Who) (s : State) : (doSltRawWrite carried d w s).pending = s.pending ∧ (doSltRawWrite carried d w s).now = s.now ∧ (doSltRawWrite carried d w s).tck.mode = s.tck.mode ∧ (doSltRawWrite carried d w s).slt.mem = s.slt.mem := by
  simp [doSltRawWrite]
@[simp] theorem finishDue_core (s : State) : (finishDue s).pending = s.pending ∧ (finishDue s).now = s.now ∧ (finishDue s).tck.mode = s.tck.mode := by
  simp only [finishDue]; (repeat' split) <;> simp
@[simp] theorem startNextOp_core (s : State) : (startNextOp s).pending = s.pending ∧ (startNextOp s).now = s.now ∧ (startNextOp s).tck.mode = s.tck.mode := by
  simp only [startNextOp]; (repeat' split) <;> simp
@[simp] theorem askRead_core (s : State) (w : Who) (k : SltWork) : (askRead s w k).pending = s.pending ∧ (askRead s w k).now = s.now ∧ (askRead s w k).tck.mode = s.tck.mode ∧ (askRead s w k).slt.mem = s.slt.mem := by
  simp [askRead]
@[simp] theorem sltEdge_core (s : State) : (sltEdge s).pending = s.pending ∧ (sltEdge s).now = s.now ∧ (sltEdge s).tck.mode = s.tck.mode ∧ (sltEdge s).slt.mem = s.slt.mem := by
  simp [sltEdge]
@[simp] theorem doSltRecRead_core (d : List Byte) (w : Who) (s : State) : (doSltRecRead d w s).pending = s.pending ∧ (doSltRecRead d w s).now = s.now ∧ (doSltRecRead d w s).tck.mode = s.tck.mode ∧ (doSltRecRead d w s).slt.mem = s.slt.mem := by
  simp [doSltRecRead]
@[simp] theorem doSltTallyRead_core (d : List Byte) (w : Who) (s : State) : (doSltTallyRead d w s).pending = s.pending ∧ (doSltTallyRead d w s).now = s.now ∧ (doSltTallyRead d w s).tck.mode = s.tck.mode ∧ (doSltTallyRead d w s).slt.mem = s.slt.mem := by
  simp [doSltTallyRead]
@[simp] theorem doSltRawRead_core (d : List Byte) (w : Who) (s : State) : (doSltRawRead d w s).pending = s.pending ∧ (doSltRawRead d w s).now = s.now ∧ (doSltRawRead d w s).tck.mode = s.tck.mode ∧ (doSltRawRead d w s).slt.mem = s.slt.mem := by
  simp [doSltRawRead]

/-! ### Recorder -/
@[simp] theorem tailBoot_core (s : State) : (tailBoot s).pending = s.pending ∧ (tailBoot s).now = s.now ∧ (tailBoot s).tck.mode = s.tck.mode ∧ (tailBoot s).slt.mem = s.slt.mem := by
  simp only [tailBoot]; (repeat' split) <;> simp
@[simp] theorem doRecArchiveFlush_core (carried : Bool) (d : List Byte) (w : Who) (s : State) : (doRecArchiveFlush carried d w s).pending = s.pending ∧ (doRecArchiveFlush carried d w s).now = s.now ∧ (doRecArchiveFlush carried d w s).tck.mode = s.tck.mode ∧ (doRecArchiveFlush carried d w s).slt.mem = s.slt.mem := by
  simp [doRecArchiveFlush]
@[simp] theorem recWin7Read_core (s : State) (p : Port) : (recWin7Read s p).pending = s.pending ∧ (recWin7Read s p).now = s.now ∧ (recWin7Read s p).tck.mode = s.tck.mode ∧ (recWin7Read s p).slt.mem = s.slt.mem := by
  simp only [recWin7Read, access]; (repeat' split) <;> simp
@[simp] theorem recWinStateRead_core (s : State) (p : Port) : (recWinStateRead s p).pending = s.pending ∧ (recWinStateRead s p).now = s.now ∧ (recWinStateRead s p).tck.mode = s.tck.mode ∧ (recWinStateRead s p).slt.mem = s.slt.mem := by
  simp only [recWinStateRead, access]; (repeat' split) <;> simp
@[simp] theorem enterBoot_core (s : State) : (enterBoot s).pending = s.pending ∧ (enterBoot s).now = s.now ∧ (enterBoot s).tck.mode = s.tck.mode ∧ (enterBoot s).slt.mem = s.slt.mem := by
  simp [enterBoot]
@[simp] theorem closeWindow_core (s : State) : (closeWindow s).pending = s.pending ∧ (closeWindow s).now = s.now ∧ (closeWindow s).tck.mode = s.tck.mode ∧ (closeWindow s).slt.mem = s.slt.mem := by
  simp [closeWindow]
@[simp] theorem recorderEdge_core (s : State) : (recorderEdge s).pending = s.pending ∧ (recorderEdge s).now = s.now ∧ (recorderEdge s).tck.mode = s.tck.mode ∧ (recorderEdge s).slt.mem = s.slt.mem := by
  unfold recorderEdge
  extract_lets t x0 s0 x1 a b x2 s1 x3 s2
  have ha : a.pending = s.pending ∧ a.now = s.now ∧ a.tck.mode = s.tck.mode ∧ a.slt.mem = s.slt.mem := by simp [a, s0]
  have hb : b.pending = s.pending ∧ b.now = s.now ∧ b.tck.mode = s.tck.mode ∧ b.slt.mem = s.slt.mem := by simp [b, ha]
  have h1 : s1.pending = s.pending ∧ s1.now = s.now ∧ s1.tck.mode = s.tck.mode ∧ s1.slt.mem = s.slt.mem := by
    clear_value b
    simp only [s1]; (repeat' split) <;> simp [s0, hb]
  have h2 : s2.pending = s1.pending ∧ s2.now = s1.now ∧ s2.tck.mode = s1.tck.mode ∧ s2.slt.mem = s1.slt.mem := by simp only [s2]; split <;> simp
  clear_value s1 s2; split <;> simp [h1, h2]
@[simp] theorem tailCopy_core (s : State) : (tailCopy s).pending = s.pending ∧ (tailCopy s).now = s.now ∧ (tailCopy s).tck.mode = s.tck.mode ∧ (tailCopy s).slt.mem = s.slt.mem := by
  simp only [tailCopy]; (repeat' split) <;> simp
@[simp] theorem tailAtPfw_core (s : State) : (tailAtPfw s).pending = s.pending ∧ (tailAtPfw s).now = s.now ∧ (tailAtPfw s).tck.mode = s.tck.mode ∧ (tailAtPfw s).slt.mem = s.slt.mem := by
  simp [tailAtPfw]
@[simp] theorem archiveSegmentWrite_core (s : State) : (archiveSegmentWrite s).pending = s.pending ∧ (archiveSegmentWrite s).now = s.now ∧ (archiveSegmentWrite s).tck.mode = s.tck.mode ∧ (archiveSegmentWrite s).slt.mem = s.slt.mem := by
  simp only [archiveSegmentWrite]; (repeat' split) <;> simp
@[simp] theorem doRecSeek_core (d : List Byte) (w : Who) (s : State) : (doRecSeek d w s).pending = s.pending ∧ (doRecSeek d w s).now = s.now ∧ (doRecSeek d w s).tck.mode = s.tck.mode ∧ (doRecSeek d w s).slt.mem = s.slt.mem := by
  simp [doRecSeek]
@[simp] theorem doRecRead_core (r : Req) (w : Who) (s : State) : (doRecRead r w s).pending = s.pending ∧ (doRecRead r w s).now = s.now ∧ (doRecRead r w s).tck.mode = s.tck.mode ∧ (doRecRead r w s).slt.mem = s.slt.mem := by
  simp [doRecRead]
@[simp] theorem doRecTailRead_core (d : List Byte) (w : Who) (s : State) : (doRecTailRead d w s).pending = s.pending ∧ (doRecTailRead d w s).now = s.now ∧ (doRecTailRead d w s).tck.mode = s.tck.mode ∧ (doRecTailRead d w s).slt.mem = s.slt.mem := by
  simp [doRecTailRead]
@[simp] theorem doRecArchiveRead_core (r : Req) (w : Who) (s : State) : (doRecArchiveRead r w s).pending = s.pending ∧ (doRecArchiveRead r w s).now = s.now ∧ (doRecArchiveRead r w s).tck.mode = s.tck.mode ∧ (doRecArchiveRead r w s).slt.mem = s.slt.mem := by
  simp only [doRecArchiveRead]; (repeat' (first | split | apply And.intro | refine refuseOr_core_pending _ _ _ _ (fun _ => ?_) | refine refuseOr_core_now _ _ _ _ (fun _ => ?_) | refine refuseOr_core_mode _ _ _ _ (fun _ => ?_) | refine refuseOr_core_mem _ _ _ _ (fun _ => ?_))) <;> simp

end Sys2Proof.Machine
end

