-- ==== Sys2Proof/Laws/KeepTime.lean ====
section
/-! SUPPORT. What the functions of network time, staging, the bedrock domain leave alone, of the queue of commands, the model's time, the mode and slate memory. -/
namespace Sys2Proof.Machine
open Sys2Proof
set_option linter.all false

/-! ### Time -/
@[simp] theorem calSync_core (s : State) : (calSync s).pending = s.pending ∧ (calSync s).now = s.now ∧ (calSync s).tck.mode = s.tck.mode ∧ (calSync s).slt.mem = s.slt.mem := by
  simp only [calSync]; (repeat' split) <;> simp
@[simp] theorem takeMaster_core (s : State) (a : Announce) : (takeMaster s a).pending = s.pending ∧ (takeMaster s a).now = s.now ∧ (takeMaster s a).tck.mode = s.tck.mode ∧ (takeMaster s a).slt.mem = s.slt.mem := by
  simp only [takeMaster]; (repeat' split) <;> simp
@[simp] theorem setQuality_core (s : State) (q : BitVec 2) : (setQuality s q).pending = s.pending ∧ (setQuality s q).now = s.now ∧ (setQuality s q).tck.mode = s.tck.mode ∧ (setQuality s q).slt.mem = s.slt.mem := by
  simp [setQuality]
@[simp] theorem enterHoldover_core (s : State) : (enterHoldover s).pending = s.pending ∧ (enterHoldover s).now = s.now ∧ (enterHoldover s).tck.mode = s.tck.mode ∧ (enterHoldover s).slt.mem = s.slt.mem := by
  simp only [enterHoldover]; (repeat' split) <;> simp
@[simp] theorem takeOwn_core (s : State) : (takeOwn s).pending = s.pending ∧ (takeOwn s).now = s.now ∧ (takeOwn s).tck.mode = s.tck.mode ∧ (takeOwn s).slt.mem = s.slt.mem := by
  simp only [takeOwn]; (repeat' split) <;> simp
@[simp] theorem updatePorts_core (s : State) : (updatePorts s).pending = s.pending ∧ (updatePorts s).now = s.now ∧ (updatePorts s).tck.mode = s.tck.mode ∧ (updatePorts s).slt.mem = s.slt.mem := by
  simp only [updatePorts]; (repeat' split) <;> simp
@[simp] theorem restartPtp_core (s : State) (wasOff : Bool) : (restartPtp s wasOff).pending = s.pending ∧ (restartPtp s wasOff).now = s.now ∧ (restartPtp s wasOff).tck.mode = s.tck.mode ∧ (restartPtp s wasOff).slt.mem = s.slt.mem := by
  unfold restartPtp; (repeat' split) <;> simp_all
@[simp] theorem ptpApply_core (s : State) (old : RegFile) : (ptpApply s old).pending = s.pending ∧ (ptpApply s old).now = s.now ∧ (ptpApply s old).tck.mode = s.tck.mode ∧ (ptpApply s old).slt.mem = s.slt.mem := by
  simp only [ptpApply]; (repeat' split) <;> simp
@[simp] theorem setTimeNs_core (s : State) (t : Int) : (setTimeNs s t).pending = s.pending ∧ (setTimeNs s t).now = s.now ∧ (setTimeNs s t).tck.mode = s.tck.mode ∧ (setTimeNs s t).slt.mem = s.slt.mem := by
  simp [setTimeNs]
@[simp] theorem advanceTime_core (s : State) : (advanceTime s).pending = s.pending ∧ (advanceTime s).now = s.now ∧ (advanceTime s).tck.mode = s.tck.mode ∧ (advanceTime s).slt.mem = s.slt.mem := by
  simp [advanceTime]
@[simp] theorem doNtmSetTime_core (carried : Bool) (d : List Byte) (w : Who) (s : State) : (doNtmSetTime carried d w s).pending = s.pending ∧ (doNtmSetTime carried d w s).now = s.now ∧ (doNtmSetTime carried d w s).tck.mode = s.tck.mode ∧ (doNtmSetTime carried d w s).slt.mem = s.slt.mem := by
  simp [doNtmSetTime]
@[simp] theorem doNtmSetUtc_core (carried : Bool) (d : List Byte) (w : Who) (s : State) : (doNtmSetUtc carried d w s).pending = s.pending ∧ (doNtmSetUtc carried d w s).now = s.now ∧ (doNtmSetUtc carried d w s).tck.mode = s.tck.mode ∧ (doNtmSetUtc carried d w s).slt.mem = s.slt.mem := by
  simp [doNtmSetUtc]
@[simp] theorem startSlew_core (s : State) (c : Int) : (startSlew s c).pending = s.pending ∧ (startSlew s c).now = s.now ∧ (startSlew s c).tck.mode = s.tck.mode ∧ (startSlew s c).slt.mem = s.slt.mem := by
  simp only [startSlew]; (repeat' split) <;> simp
@[simp] theorem servo_core (s : State) (eth : Bool) (ofs : Int) : (servo s eth ofs).pending = s.pending ∧ (servo s eth ofs).now = s.now ∧ (servo s eth ofs).tck.mode = s.tck.mode ∧ (servo s eth ofs).slt.mem = s.slt.mem := by
  simp only [servo]; (repeat' split) <;> simp
@[simp] theorem setPtp_core (s : State) (eth : Bool) (f : PtpPort → PtpPort) : (setPtp s eth f).pending = s.pending ∧ (setPtp s eth f).now = s.now ∧ (setPtp s eth f).tck.mode = s.tck.mode ∧ (setPtp s eth f).slt.mem = s.slt.mem := by
  simp only [setPtp]; (repeat' split) <;> simp
@[simp] theorem emitPtp_core (s : State) (eth : Bool) (m : PtpOut) : (emitPtp s eth m).pending = s.pending ∧ (emitPtp s eth m).now = s.now ∧ (emitPtp s eth m).tck.mode = s.tck.mode ∧ (emitPtp s eth m).slt.mem = s.slt.mem := by
  simp [emitPtp]
@[simp] theorem ptpStart_core (s : State) (eth : Bool) (d : Nat) (j : PtpJob) : (ptpStart s eth d j).pending = s.pending ∧ (ptpStart s eth d j).now = s.now ∧ (ptpStart s eth d j).tck.mode = s.tck.mode ∧ (ptpStart s eth d j).slt.mem = s.slt.mem := by
  simp only [ptpStart]; (repeat' split) <;> simp
@[simp] theorem ptpSend_core (s : State) (eth : Bool) (j : PtpJob) : (ptpSend s eth j).pending = s.pending ∧ (ptpSend s eth j).now = s.now ∧ (ptpSend s eth j).tck.mode = s.tck.mode ∧ (ptpSend s eth j).slt.mem = s.slt.mem := by
  simp only [ptpSend]; (repeat' split) <;> simp
@[simp] theorem releaseHeld_core (s : State) (eth : Bool) : (releaseHeld s eth).pending = s.pending ∧ (releaseHeld s eth).now = s.now ∧ (releaseHeld s eth).tck.mode = s.tck.mode ∧ (releaseHeld s eth).slt.mem = s.slt.mem := by
  simp [releaseHeld]
@[simp] theorem flushLaunches_core (s : State) : (flushLaunches s).pending = s.pending ∧ (flushLaunches s).now = s.now ∧ (flushLaunches s).tck.mode = s.tck.mode ∧ (flushLaunches s).slt.mem = s.slt.mem := by
  unfold flushLaunches; (repeat' split) <;> simp_all
@[simp] theorem stepBy_core (s : State) (c : Int) (servo : Bool) : (stepBy s c servo).pending = s.pending ∧ (stepBy s c servo).now = s.now ∧ (stepBy s c servo).tck.mode = s.tck.mode ∧ (stepBy s c servo).slt.mem = s.slt.mem := by
  simp only [stepBy]; (repeat' split) <;> simp
@[simp] theorem stepTo_core (s : State) (c : Int) : (stepTo s c).pending = s.pending ∧ (stepTo s c).now = s.now ∧ (stepTo s c).tck.mode = s.tck.mode ∧ (stepTo s c).slt.mem = s.slt.mem := by
  unfold stepTo
  extract_lets who x0 x1 x2 s1 s2
  have h1 : s1.pending = s.pending ∧ s1.now = s.now ∧ s1.tck.mode = s.tck.mode ∧ s1.slt.mem = s.slt.mem := by simp [s1, x0]
  have h2 : s2.pending = s1.pending ∧ s2.now = s1.now ∧ s2.tck.mode = s1.tck.mode ∧ s2.slt.mem = s1.slt.mem := by simp only [s2]; split <;> simp
  clear_value s1 s2; simp [h1, h2]
@[simp] theorem applyStep_core (s : State) : (applyStep s).pending = s.pending ∧ (applyStep s).now = s.now ∧ (applyStep s).tck.mode = s.tck.mode ∧ (applyStep s).slt.mem = s.slt.mem := by
  simp only [applyStep]; (repeat' split) <;> simp
@[simp] theorem correctEdge_core (s : State) : (correctEdge s).pending = s.pending ∧ (correctEdge s).now = s.now ∧ (correctEdge s).tck.mode = s.tck.mode ∧ (correctEdge s).slt.mem = s.slt.mem := by
  simp [correctEdge]
@[simp] theorem setLaunchQueue_core (s : State) (eth : Bool) (q : List Launch) : (setLaunchQueue s eth q).pending = s.pending ∧ (setLaunchQueue s eth q).now = s.now ∧ (setLaunchQueue s eth q).tck.mode = s.tck.mode ∧ (setLaunchQueue s eth q).slt.mem = s.slt.mem := by
  simp only [setLaunchQueue]; (repeat' split) <;> simp
@[simp] theorem launchPut_core (s : State) (w : Who) (eth : Bool) (sec ns : Nat) (frame : List Byte) : (launchPut s w eth sec ns frame).pending = s.pending ∧ (launchPut s w eth sec ns frame).now = s.now ∧ (launchPut s w eth sec ns frame).tck.mode = s.tck.mode ∧ (launchPut s w eth sec ns frame).slt.mem = s.slt.mem := by
  simp only [launchPut]; (repeat' split) <;> simp
@[simp] theorem ntmNowNsRead_core (s : State) (p : Port) : (ntmNowNsRead s p).pending = s.pending ∧ (ntmNowNsRead s p).now = s.now ∧ (ntmNowNsRead s p).tck.mode = s.tck.mode ∧ (ntmNowNsRead s p).slt.mem = s.slt.mem := by
  simp [ntmNowNsRead]
@[simp] theorem launchEnd_core (s : State) (x : Xfer) (eth : Bool) (sec ns : Nat) (res : TransferResult) : (launchEnd s x eth sec ns res).pending = s.pending ∧ (launchEnd s x eth sec ns res).now = s.now ∧ (launchEnd s x eth sec ns res).tck.mode = s.tck.mode ∧ (launchEnd s x eth sec ns res).slt.mem = s.slt.mem := by
  simp only [launchEnd]; (repeat' split) <;> simp
@[simp] theorem timeEdge_core (s : State) : (timeEdge s).pending = s.pending ∧ (timeEdge s).now = s.now ∧ (timeEdge s).tck.mode = s.tck.mode ∧ (timeEdge s).slt.mem = s.slt.mem := by
  simp [timeEdge]
@[simp] theorem rechoose_core (s : State) (eth : Bool) : (rechoose s eth).pending = s.pending ∧ (rechoose s eth).now = s.now ∧ (rechoose s eth).tck.mode = s.tck.mode ∧ (rechoose s eth).slt.mem = s.slt.mem := by
  simp [rechoose]
@[simp] theorem ptpEdge_core (s : State) : (ptpEdge s).pending = s.pending ∧ (ptpEdge s).now = s.now ∧ (ptpEdge s).tck.mode = s.tck.mode ∧ (ptpEdge s).slt.mem = s.slt.mem := by
  simp only [ptpEdge]; (repeat' split) <;> simp
@[simp] theorem takeSync_core (s : State) (eth : Bool) (t1 t2 : Int) : (takeSync s eth t1 t2).pending = s.pending ∧ (takeSync s eth t1 t2).now = s.now ∧ (takeSync s eth t1 t2).tck.mode = s.tck.mode ∧ (takeSync s eth t1 t2).slt.mem = s.slt.mem := by
  simp [takeSync]
@[simp] theorem takeDelay_core (s : State) (eth : Bool) (sum : Int) : (takeDelay s eth sum).pending = s.pending ∧ (takeDelay s eth sum).now = s.now ∧ (takeDelay s eth sum).tck.mode = s.tck.mode ∧ (takeDelay s eth sum).slt.mem = s.slt.mem := by
  simp only [takeDelay]; (repeat' split) <;> simp
@[simp] theorem takeAnnounce_core (s : State) (eth : Bool) (a : Announce) : (takeAnnounce s eth a).pending = s.pending ∧ (takeAnnounce s eth a).now = s.now ∧ (takeAnnounce s eth a).tck.mode = s.tck.mode ∧ (takeAnnounce s eth a).slt.mem = s.slt.mem := by
  simp only [takeAnnounce]; (repeat' split) <;> simp
@[simp] theorem ptpMessageReceived_core (s : State) (eth : Bool) (m : PtpMsg) : (ptpMessageReceived s eth m).pending = s.pending ∧ (ptpMessageReceived s eth m).now = s.now ∧ (ptpMessageReceived s eth m).tck.mode = s.tck.mode ∧ (ptpMessageReceived s eth m).slt.mem = s.slt.mem := by
  simp only [ptpMessageReceived]; (repeat' split) <;> simp
@[simp] theorem ptpMessageSend_core (s : State) (eth : Bool) (k : PtpSend) : (ptpMessageSend s eth k).pending = s.pending ∧ (ptpMessageSend s eth k).now = s.now ∧ (ptpMessageSend s eth k).tck.mode = s.tck.mode ∧ (ptpMessageSend s eth k).slt.mem = s.slt.mem := by
  simp only [ptpMessageSend]; (repeat' split) <;> simp
@[simp] theorem ptpMasterLost_core (s : State) : (ptpMasterLost s).pending = s.pending ∧ (ptpMasterLost s).now = s.now ∧ (ptpMasterLost s).tck.mode = s.tck.mode ∧ (ptpMasterLost s).slt.mem = s.slt.mem := by
  simp only [ptpMasterLost]; (repeat' split) <;> simp
@[simp] theorem holdoverExpiry_core (s : State) : (holdoverExpiry s).pending = s.pending ∧ (holdoverExpiry s).now = s.now ∧ (holdoverExpiry s).tck.mode = s.tck.mode ∧ (holdoverExpiry s).slt.mem = s.slt.mem := by
  simp only [holdoverExpiry]; (repeat' split) <;> simp
@[simp] theorem slewComplete_core (s : State) : (slewComplete s).pending = s.pending ∧ (slewComplete s).now = s.now ∧ (slewComplete s).tck.mode = s.tck.mode ∧ (slewComplete s).slt.mem = s.slt.mem := by
  simp only [slewComplete]; (repeat' split) <;> simp
@[simp] theorem leapSecond_core (s : State) : (leapSecond s).pending = s.pending ∧ (leapSecond s).now = s.now ∧ (leapSecond s).tck.mode = s.tck.mode ∧ (leapSecond s).slt.mem = s.slt.mem := by
  simp only [leapSecond]; (repeat' split) <;> simp
@[simp] theorem launchOut_core (s : State) (eth : Bool) (l : Launch) (d : Nat) : (launchOut s eth l d).pending = s.pending ∧ (launchOut s eth l d).now = s.now ∧ (launchOut s eth l d).tck.mode = s.tck.mode ∧ (launchOut s eth l d).slt.mem = s.slt.mem := by
  simp [launchOut]
@[simp] theorem launchAll_core (s : State) (eth : Bool) (x0 : Nat) (x1 : List Launch) : (launchAll s eth x0 x1).pending = s.pending ∧ (launchAll s eth x0 x1).now = s.now ∧ (launchAll s eth x0 x1).tck.mode = s.tck.mode ∧ (launchAll s eth x0 x1).slt.mem = s.slt.mem := by
  induction x1 generalizing s x0 with
  | nil => simp [launchAll]
  | cons a l ih => unfold launchAll; simp [ih]
@[simp] theorem launchLate_core (s : State) (eth : Bool) (l : Launch) : (launchLate s eth l).pending = s.pending ∧ (launchLate s eth l).now = s.now ∧ (launchLate s eth l).tck.mode = s.tck.mode ∧ (launchLate s eth l).slt.mem = s.slt.mem := by
  simp only [launchLate]; (repeat' split) <;> simp
@[simp] theorem launchTime_core (s : State) (eth : Bool) (late : Nat) : (launchTime s eth late).pending = s.pending ∧ (launchTime s eth late).now = s.now ∧ (launchTime s eth late).tck.mode = s.tck.mode ∧ (launchTime s eth late).slt.mem = s.slt.mem := by
  simp only [launchTime]; (repeat' split) <;> simp
@[simp] theorem doNtmLaunch_core (r : Req) (w : Who) (s : State) : (doNtmLaunch r w s).pending = s.pending ∧ (doNtmLaunch r w s).now = s.now ∧ (doNtmLaunch r w s).tck.mode = s.tck.mode ∧ (doNtmLaunch r w s).slt.mem = s.slt.mem := by
  simp only [doNtmLaunch]; (repeat' (first | split | apply And.intro | refine refuseOr_core_pending _ _ _ _ (fun _ => ?_) | refine refuseOr_core_now _ _ _ _ (fun _ => ?_) | refine refuseOr_core_mode _ _ _ _ (fun _ => ?_) | refine refuseOr_core_mem _ _ _ _ (fun _ => ?_))) <;> simp
@[simp] theorem doNtmPtpState_core (d : List Byte) (w : Who) (s : State) : (doNtmPtpState d w s).pending = s.pending ∧ (doNtmPtpState d w s).now = s.now ∧ (doNtmPtpState d w s).tck.mode = s.tck.mode ∧ (doNtmPtpState d w s).slt.mem = s.slt.mem := by
  simp [doNtmPtpState]

/-! ### Staging -/
@[simp] theorem startCheck_core (s : State) (b : Nat) (copy : RegFile) (k : CfgWork) : (startCheck s b copy k).pending = s.pending ∧ (startCheck s b copy k).now = s.now ∧ (startCheck s b copy k).tck.mode = s.tck.mode ∧ (startCheck s b copy k).slt.mem = s.slt.mem := by
  simp [startCheck]
@[simp] theorem startOpCheck_core (s : State) (w : Who) (b : Nat) (k : CfgWork) : (startOpCheck s w b k).pending = s.pending ∧ (startOpCheck s w b k).now = s.now ∧ (startOpCheck s w b k).tck.mode = s.tck.mode ∧ (startOpCheck s w b k).slt.mem = s.slt.mem := by
  simp [startOpCheck]

/-! ### Bedrock -/
@[simp] theorem wakeApplied_core (s : State) : (wakeApplied s).pending = s.pending ∧ (wakeApplied s).now = s.now ∧ (wakeApplied s).tck.mode = s.tck.mode ∧ (wakeApplied s).slt.mem = s.slt.mem := by
  simp [wakeApplied]
@[simp] theorem trimWindowStart_core (s : State) : (trimWindowStart s).pending = s.pending ∧ (trimWindowStart s).now = s.now ∧ (trimWindowStart s).tck.mode = s.tck.mode ∧ (trimWindowStart s).slt.mem = s.slt.mem := by
  simp [trimWindowStart]
@[simp] theorem brkAdvance_core (s : State) : (brkAdvance s).pending = s.pending ∧ (brkAdvance s).now = s.now ∧ (brkAdvance s).tck.mode = s.tck.mode ∧ (brkAdvance s).slt.mem = s.slt.mem := by
  simp only [brkAdvance]; (repeat' split) <;> simp
@[simp] theorem brkCalSnapRead_core (s : State) (p : Port) : (brkCalSnapRead s p).pending = s.pending ∧ (brkCalSnapRead s p).now = s.now ∧ (brkCalSnapRead s p).tck.mode = s.tck.mode ∧ (brkCalSnapRead s p).slt.mem = s.slt.mem := by
  simp [brkCalSnapRead]
@[simp] theorem setPwron_core (s : State) (b : Bool) : (setPwron s b).pending = s.pending ∧ (setPwron s b).now = s.now ∧ (setPwron s b).tck.mode = s.tck.mode ∧ (setPwron s b).slt.mem = s.slt.mem := by
  simp only [setPwron]; (repeat' split) <;> simp
@[simp] theorem brkRecord_core (s : State) (code : Nat) (ps : List Nat) : (brkRecord s code ps).pending = s.pending ∧ (brkRecord s code ps).now = s.now ∧ (brkRecord s code ps).tck.mode = s.tck.mode ∧ (brkRecord s code ps).slt.mem = s.slt.mem := by
  simp only [brkRecord]; (repeat' split) <;> simp
@[simp] theorem wakeInstant_core (s : State) : (wakeInstant s).pending = s.pending ∧ (wakeInstant s).now = s.now ∧ (wakeInstant s).tck.mode = s.tck.mode ∧ (wakeInstant s).slt.mem = s.slt.mem := by
  simp only [wakeInstant]; (repeat' split) <;> simp
@[simp] theorem countdownExpiry_core (s : State) : (countdownExpiry s).pending = s.pending ∧ (countdownExpiry s).now = s.now ∧ (countdownExpiry s).tck.mode = s.tck.mode ∧ (countdownExpiry s).slt.mem = s.slt.mem := by
  simp only [countdownExpiry]; (repeat' split) <;> simp
@[simp] theorem countdownLoad_core (s : State) : (countdownLoad s).pending = s.pending ∧ (countdownLoad s).now = s.now ∧ (countdownLoad s).tck.mode = s.tck.mode ∧ (countdownLoad s).slt.mem = s.slt.mem := by
  simp only [countdownLoad]; (repeat' split) <;> simp
@[simp] theorem evEdge_core (s : State) (k : Fin 4) (rising : Bool) : (evEdge s k rising).pending = s.pending ∧ (evEdge s k rising).now = s.now ∧ (evEdge s k rising).tck.mode = s.tck.mode ∧ (evEdge s k rising).slt.mem = s.slt.mem := by
  simp only [evEdge]; (repeat' split) <;> simp
@[simp] theorem brkBoot_core (s : State) : (brkBoot s).pending = s.pending ∧ (brkBoot s).now = s.now ∧ (brkBoot s).tck.mode = s.tck.mode ∧ (brkBoot s).slt.mem = s.slt.mem := by
  simp only [brkBoot]; (repeat' (first | split | apply And.intro | refine foldl_pending_of (fun _ _ => ?_) ?_ | refine foldl_now_of (fun _ _ => ?_) ?_ | refine foldl_mode_of (fun _ _ => ?_) ?_ | refine foldl_mem_of (fun _ _ => ?_) ?_)) <;> simp
@[simp] theorem trimWindowEdge_core (s : State) : (trimWindowEdge s).pending = s.pending ∧ (trimWindowEdge s).now = s.now ∧ (trimWindowEdge s).tck.mode = s.tck.mode ∧ (trimWindowEdge s).slt.mem = s.slt.mem := by
  simp [trimWindowEdge]
@[simp] theorem trimWindowEnd_core (s : State) : (trimWindowEnd s).pending = s.pending ∧ (trimWindowEnd s).now = s.now ∧ (trimWindowEnd s).tck.mode = s.tck.mode ∧ (trimWindowEnd s).slt.mem = s.slt.mem := by
  simp only [trimWindowEnd]; (repeat' split) <;> simp
@[simp] theorem handOver_core (s : State) (op : BrkOp) : (handOver s op).pending = s.pending ∧ (handOver s op).now = s.now ∧ (handOver s op).tck.mode = s.tck.mode ∧ (handOver s op).slt.mem = s.slt.mem := by
  simp [handOver]
@[simp] theorem followSet_core (s1 : State) (d : Int) (n : Nat) : (followSet s1 d n).pending = s1.pending ∧ (followSet s1 d n).now = s1.now ∧ (followSet s1 d n).tck.mode = s1.tck.mode ∧ (followSet s1 d n).slt.mem = s1.slt.mem := by
  simp only [followSet]; (repeat' split) <;> simp
@[simp] theorem followAct_core (s1 : State) (d : Int) : (followAct s1 d).pending = s1.pending ∧ (followAct s1 d).now = s1.now ∧ (followAct s1 d).tck.mode = s1.tck.mode ∧ (followAct s1 d).slt.mem = s1.slt.mem := by
  simp only [followAct]; (repeat' split) <;> simp
@[simp] theorem compareTimes_core (s : State) : (compareTimes s).pending = s.pending ∧ (compareTimes s).now = s.now ∧ (compareTimes s).tck.mode = s.tck.mode ∧ (compareTimes s).slt.mem = s.slt.mem := by
  simp only [compareTimes]; (repeat' split) <;> simp
@[simp] theorem followCompare_core (s : State) : (followCompare s).pending = s.pending ∧ (followCompare s).now = s.now ∧ (followCompare s).tck.mode = s.tck.mode ∧ (followCompare s).slt.mem = s.slt.mem := by
  simp only [followCompare]; (repeat' split) <;> simp
@[simp] theorem followEdge_core (s : State) : (followEdge s).pending = s.pending ∧ (followEdge s).now = s.now ∧ (followEdge s).tck.mode = s.tck.mode ∧ (followEdge s).slt.mem = s.slt.mem := by
  simp only [followEdge]; (repeat' split) <;> simp
@[simp] theorem rtcSetApply_core (s : State) : (rtcSetApply s).pending = s.pending ∧ (rtcSetApply s).now = s.now ∧ (rtcSetApply s).tck.mode = s.tck.mode ∧ (rtcSetApply s).slt.mem = s.slt.mem := by
  simp only [rtcSetApply]; (repeat' split) <;> simp
@[simp] theorem rtcShiftApply_core (s : State) : (rtcShiftApply s).pending = s.pending ∧ (rtcShiftApply s).now = s.now ∧ (rtcShiftApply s).tck.mode = s.tck.mode ∧ (rtcShiftApply s).slt.mem = s.slt.mem := by
  simp only [rtcShiftApply]; (repeat' split) <;> simp
@[simp] theorem bedrockReset_core (s : State) : (bedrockReset s).pending = s.pending ∧ (bedrockReset s).now = s.now ∧ (bedrockReset s).tck.mode = s.tck.mode ∧ (bedrockReset s).slt.mem = s.slt.mem := by
  simp [bedrockReset]
@[simp] theorem bedrockResetEnd_core (s : State) : (bedrockResetEnd s).pending = s.pending ∧ (bedrockResetEnd s).now = s.now ∧ (bedrockResetEnd s).tck.mode = s.tck.mode ∧ (bedrockResetEnd s).slt.mem = s.slt.mem := by
  simp only [bedrockResetEnd]; (repeat' split) <;> simp
@[simp] theorem backupSample_core (s : State) (mv : BitVec 12) : (backupSample s mv).pending = s.pending ∧ (backupSample s mv).now = s.now ∧ (backupSample s mv).tck.mode = s.tck.mode ∧ (backupSample s mv).slt.mem = s.slt.mem := by
  simp only [backupSample]; (repeat' split) <;> simp
@[simp] theorem startBrkOp_core (op : BrkOp) (w : Who) (s : State) : (startBrkOp op w s).pending = s.pending ∧ (startBrkOp op w s).now = s.now ∧ (startBrkOp op w s).tck.mode = s.tck.mode ∧ (startBrkOp op w s).slt.mem = s.slt.mem := by
  simp only [startBrkOp]; (repeat' split) <;> simp
@[simp] theorem doBrkPwron_core (carried : Bool) (d : List Byte) (w : Who) (s : State) : (doBrkPwron carried d w s).pending = s.pending ∧ (doBrkPwron carried d w s).now = s.now ∧ (doBrkPwron carried d w s).tck.mode = s.tck.mode ∧ (doBrkPwron carried d w s).slt.mem = s.slt.mem := by
  simp [doBrkPwron]
@[simp] theorem pwronEdge_core (s : State) : (pwronEdge s).pending = s.pending ∧ (pwronEdge s).now = s.now ∧ (pwronEdge s).tck.mode = s.tck.mode ∧ (pwronEdge s).slt.mem = s.slt.mem := by
  simp [pwronEdge]
@[simp] theorem doBrkGetTime_core (d : List Byte) (w : Who) (s : State) : (doBrkGetTime d w s).pending = s.pending ∧ (doBrkGetTime d w s).now = s.now ∧ (doBrkGetTime d w s).tck.mode = s.tck.mode ∧ (doBrkGetTime d w s).slt.mem = s.slt.mem := by
  simp [doBrkGetTime]

end Sys2Proof.Machine
end

