-- ==== Sys2Proof/Laws/KeepIo.lean ====
section
/-! SUPPORT. What the functions of CAN, local channels, the meter leave alone, of the queue of commands, the model's time, the mode and slate memory. -/
namespace Sys2Proof.Machine
open Sys2Proof
set_option linter.all false

/-! ### Can -/
@[simp] theorem canModeApplied_core (s : State) (old : RegFile) (k : Nat) : (canModeApplied s old k).pending = s.pending ∧ (canModeApplied s old k).now = s.now ∧ (canModeApplied s old k).tck.mode = s.tck.mode ∧ (canModeApplied s old k).slt.mem = s.slt.mem := by
  simp only [canModeApplied]; (repeat' split) <;> simp
@[simp] theorem canApply_core (s : State) (old : RegFile) (m : Nat) : (canApply s old m).pending = s.pending ∧ (canApply s old m).now = s.now ∧ (canApply s old m).tck.mode = s.tck.mode ∧ (canApply s old m).slt.mem = s.slt.mem := by
  simp only [canApply]; (repeat' (first | split | apply And.intro | refine foldl_pending_of (fun _ _ => ?_) ?_ | refine foldl_now_of (fun _ _ => ?_) ?_ | refine foldl_mode_of (fun _ _ => ?_) ?_ | refine foldl_mem_of (fun _ _ => ?_) ?_ | refine foldl_p1_pending_of (fun _ _ => ?_) ?_ | refine foldl_p2_pending_of (fun _ _ => ?_) ?_ | refine foldl_p1_now_of (fun _ _ => ?_) ?_ | refine foldl_p2_now_of (fun _ _ => ?_) ?_ | refine foldl_p1_mode_of (fun _ _ => ?_) ?_ | refine foldl_p2_mode_of (fun _ _ => ?_) ?_ | refine foldl_p1_mem_of (fun _ _ => ?_) ?_ | refine foldl_p2_mem_of (fun _ _ => ?_) ?_)) <;> simp
@[simp] theorem setCanObj_core (s : State) (k n : Nat) (f : CanObj → CanObj) : (setCanObj s k n f).pending = s.pending ∧ (setCanObj s k n f).now = s.now ∧ (setCanObj s k n f).tck.mode = s.tck.mode ∧ (setCanObj s k n f).slt.mem = s.slt.mem := by
  simp [setCanObj]
@[simp] theorem dropFrame_core (s : State) (k : Nat) (f : CanTxF) (cause : Nat) : (dropFrame s k f cause).pending = s.pending ∧ (dropFrame s k f cause).now = s.now ∧ (dropFrame s k f cause).tck.mode = s.tck.mode ∧ (dropFrame s k f cause).slt.mem = s.slt.mem := by
  simp only [dropFrame]; (repeat' split) <;> simp
@[simp] theorem canErrState_core (s : State) (k : Nat) : (canErrState s k).pending = s.pending ∧ (canErrState s k).now = s.now ∧ (canErrState s k).tck.mode = s.tck.mode ∧ (canErrState s k).slt.mem = s.slt.mem := by
  simp only [canErrState]; (repeat' (first | split | apply And.intro | refine foldl_pending_of (fun _ _ => ?_) ?_ | refine foldl_now_of (fun _ _ => ?_) ?_ | refine foldl_mode_of (fun _ _ => ?_) ?_ | refine foldl_mem_of (fun _ _ => ?_) ?_)) <;> simp
@[simp] theorem canRxError_core (s : State) (k : Nat) (severe : Bool) : (canRxError s k severe).pending = s.pending ∧ (canRxError s k severe).now = s.now ∧ (canRxError s k severe).tck.mode = s.tck.mode ∧ (canRxError s k severe).slt.mem = s.slt.mem := by
  simp only [canRxError]; (repeat' split) <;> simp
@[simp] theorem canRxGood_core (s : State) (k : Nat) : (canRxGood s k).pending = s.pending ∧ (canRxGood s k).now = s.now ∧ (canRxGood s k).tck.mode = s.tck.mode ∧ (canRxGood s k).slt.mem = s.slt.mem := by
  simp only [canRxGood]; (repeat' split) <;> simp
@[simp] theorem canRecoveryDone_core (s : State) (k : Nat) : (canRecoveryDone s k).pending = s.pending ∧ (canRecoveryDone s k).now = s.now ∧ (canRecoveryDone s k).tck.mode = s.tck.mode ∧ (canRecoveryDone s k).slt.mem = s.slt.mem := by
  simp only [canRecoveryDone]; (repeat' split) <;> simp
@[simp] theorem takeAttempt_core (s : State) (k : Nat) : (takeAttempt s k).2.pending = s.pending ∧ (takeAttempt s k).2.now = s.now ∧ (takeAttempt s k).2.tck.mode = s.tck.mode ∧ (takeAttempt s k).2.slt.mem = s.slt.mem := by
  simp only [takeAttempt]; (repeat' split) <;> simp
@[simp] theorem canQueue_core (s : State) (k : Nat) (f : CanTxF) : (canQueue s k f).pending = s.pending ∧ (canQueue s k f).now = s.now ∧ (canQueue s k f).tck.mode = s.tck.mode ∧ (canQueue s k f).slt.mem = s.slt.mem := by
  simp only [canQueue]; (repeat' split) <;> simp
@[simp] theorem canSendObject_core (s : State) (k m n : Nat) : (canSendObject s k m n).pending = s.pending ∧ (canSendObject s k m n).now = s.now ∧ (canSendObject s k m n).tck.mode = s.tck.mode ∧ (canSendObject s k m n).slt.mem = s.slt.mem := by
  simp only [canSendObject]; (repeat' split) <;> simp
@[simp] theorem canReference_core (s : State) (k m : Nat) : (canReference s k m).pending = s.pending ∧ (canReference s k m).now = s.now ∧ (canReference s k m).tck.mode = s.tck.mode ∧ (canReference s k m).slt.mem = s.slt.mem := by
  simp only [canReference]; (repeat' split) <;> simp
@[simp] theorem canEdge_core (s : State) (k m : Nat) : (canEdge s k m).pending = s.pending ∧ (canEdge s k m).now = s.now ∧ (canEdge s k m).tck.mode = s.tck.mode ∧ (canEdge s k m).slt.mem = s.slt.mem := by
  simp only [canEdge]; (repeat' (first | split | apply And.intro | refine foldl_pending_of (fun _ _ => ?_) ?_ | refine foldl_now_of (fun _ _ => ?_) ?_ | refine foldl_mode_of (fun _ _ => ?_) ?_ | refine foldl_mem_of (fun _ _ => ?_) ?_)) <;> simp
@[simp] theorem canReferenceSeen_core (s : State) (k cc : Nat) : (canReferenceSeen s k cc).pending = s.pending ∧ (canReferenceSeen s k cc).now = s.now ∧ (canReferenceSeen s k cc).tck.mode = s.tck.mode ∧ (canReferenceSeen s k cc).slt.mem = s.slt.mem := by
  simp only [canReferenceSeen]; (repeat' split) <;> simp
@[simp] theorem canTxDone_core (s : State) (k : Nat) : (canTxDone s k).pending = s.pending ∧ (canTxDone s k).now = s.now ∧ (canTxDone s k).tck.mode = s.tck.mode ∧ (canTxDone s k).slt.mem = s.slt.mem := by
  simp only [canTxDone]; (repeat' split) <;> simp
@[simp] theorem canRetry_core (s : State) (k : Nat) (f : CanTxF) (cause : Nat) : (canRetry s k f cause).pending = s.pending ∧ (canRetry s k f cause).now = s.now ∧ (canRetry s k f cause).tck.mode = s.tck.mode ∧ (canRetry s k f cause).slt.mem = s.slt.mem := by
  simp only [canRetry]; (repeat' split) <;> simp
@[simp] theorem canTxError_core (s : State) (k : Nat) (cause : CanTxErr) : (canTxError s k cause).pending = s.pending ∧ (canTxError s k cause).now = s.now ∧ (canTxError s k cause).tck.mode = s.tck.mode ∧ (canTxError s k cause).slt.mem = s.slt.mem := by
  simp only [canTxError]; (repeat' split) <;> simp
@[simp] theorem hpTake_core (s : State) (k n idx : Nat) (f : CanFrame) : (hpTake s k n idx f).pending = s.pending ∧ (hpTake s k n idx f).now = s.now ∧ (hpTake s k n idx f).tck.mode = s.tck.mode ∧ (hpTake s k n idx f).slt.mem = s.slt.mem := by
  simp only [hpTake]; (repeat' split) <;> simp
@[simp] theorem objTake_core (s : State) (k n : Nat) (f : CanFrame) : (objTake s k n f).pending = s.pending ∧ (objTake s k n f).now = s.now ∧ (objTake s k n f).tck.mode = s.tck.mode ∧ (objTake s k n f).slt.mem = s.slt.mem := by
  simp only [objTake]; (repeat' split) <;> simp
@[simp] theorem canFrameReceived_core (s : State) (k : Nat) (f : CanFrame) : (canFrameReceived s k f).pending = s.pending ∧ (canFrameReceived s k f).now = s.now ∧ (canFrameReceived s k f).tck.mode = s.tck.mode ∧ (canFrameReceived s k f).slt.mem = s.slt.mem := by
  simp only [canFrameReceived]; (repeat' split) <;> simp
@[simp] theorem substituteNow_core (s : State) (src : Source → Bool) : (substituteNow s src).pending = s.pending ∧ (substituteNow s src).now = s.now ∧ (substituteNow s src).tck.mode = s.tck.mode ∧ (substituteNow s src).slt.mem = s.slt.mem := by
  simp [substituteNow]
@[simp] theorem releaseIdent_core (s : State) (ident : Nat) : (releaseIdent s ident).pending = s.pending ∧ (releaseIdent s ident).now = s.now ∧ (releaseIdent s ident).tck.mode = s.tck.mode ∧ (releaseIdent s ident).slt.mem = s.slt.mem := by
  simp only [releaseIdent]; (repeat' (first | split | apply And.intro | refine foldl_pending_of (fun _ _ => ?_) ?_ | refine foldl_now_of (fun _ _ => ?_) ?_ | refine foldl_mode_of (fun _ _ => ?_) ?_ | refine foldl_mem_of (fun _ _ => ?_) ?_)) <;> simp
@[simp] theorem latchAtEdge_core (s : State) (ident : Nat) : (latchAtEdge s ident).pending = s.pending ∧ (latchAtEdge s ident).now = s.now ∧ (latchAtEdge s ident).tck.mode = s.tck.mode ∧ (latchAtEdge s ident).slt.mem = s.slt.mem := by
  simp only [latchAtEdge]; (repeat' split) <;> simp
@[simp] theorem canRxTimeout_core (s : State) (k n : Nat) : (canRxTimeout s k n).pending = s.pending ∧ (canRxTimeout s k n).now = s.now ∧ (canRxTimeout s k n).tck.mode = s.tck.mode ∧ (canRxTimeout s k n).slt.mem = s.slt.mem := by
  simp only [canRxTimeout]; (repeat' split) <;> simp
@[simp] theorem canCutDone_core (s : State) : (canCutDone s).pending = s.pending ∧ (canCutDone s).now = s.now ∧ (canCutDone s).tck.mode = s.tck.mode ∧ (canCutDone s).slt.mem = s.slt.mem := by
  simp [canCutDone]
@[simp] theorem canTimeMark_core (s : State) (k n : Nat) (busIdle : Bool) : (canTimeMark s k n busIdle).pending = s.pending ∧ (canTimeMark s k n busIdle).now = s.now ∧ (canTimeMark s k n busIdle).tck.mode = s.tck.mode ∧ (canTimeMark s k n busIdle).slt.mem = s.slt.mem := by
  simp only [canTimeMark]; (repeat' split) <;> simp
@[simp] theorem canTtSyncLost_core (s : State) (k : Nat) : (canTtSyncLost s k).pending = s.pending ∧ (canTtSyncLost s k).now = s.now ∧ (canTtSyncLost s k).tck.mode = s.tck.mode ∧ (canTtSyncLost s k).slt.mem = s.slt.mem := by
  simp only [canTtSyncLost]; (repeat' split) <;> simp
@[simp] theorem canDwellEnd_core (s : State) (k : Nat) (res : DwellResult) : (canDwellEnd s k res).pending = s.pending ∧ (canDwellEnd s k res).now = s.now ∧ (canDwellEnd s k res).tck.mode = s.tck.mode ∧ (canDwellEnd s k res).slt.mem = s.slt.mem := by
  simp only [canDwellEnd]; (repeat' split) <;> simp
@[simp] theorem doCanRecover_core (carried : Bool) (d : List Byte) (w : Who) (s : State) : (doCanRecover carried d w s).pending = s.pending ∧ (doCanRecover carried d w s).now = s.now ∧ (doCanRecover carried d w s).tck.mode = s.tck.mode ∧ (doCanRecover carried d w s).slt.mem = s.slt.mem := by
  simp only [doCanRecover]; (repeat' (first | split | apply And.intro | refine refuseOr_core_pending _ _ _ _ (fun _ => ?_) | refine refuseOr_core_now _ _ _ _ (fun _ => ?_) | refine refuseOr_core_mode _ _ _ _ (fun _ => ?_) | refine refuseOr_core_mem _ _ _ _ (fun _ => ?_))) <;> simp
@[simp] theorem doCanDetect_core (carried : Bool) (d : List Byte) (w : Who) (s : State) : (doCanDetect carried d w s).pending = s.pending ∧ (doCanDetect carried d w s).now = s.now ∧ (doCanDetect carried d w s).tck.mode = s.tck.mode ∧ (doCanDetect carried d w s).slt.mem = s.slt.mem := by
  simp only [doCanDetect]; (repeat' (first | split | apply And.intro | refine refuseShape_core_pending _ _ _ _ _ (fun _ => ?_) | refine refuseShape_core_now _ _ _ _ _ (fun _ => ?_) | refine refuseShape_core_mode _ _ _ _ _ (fun _ => ?_) | refine refuseShape_core_mem _ _ _ _ _ (fun _ => ?_) | refine refuseOr_core_pending _ _ _ _ (fun _ => ?_) | refine refuseOr_core_now _ _ _ _ (fun _ => ?_) | refine refuseOr_core_mode _ _ _ _ (fun _ => ?_) | refine refuseOr_core_mem _ _ _ _ (fun _ => ?_))) <;> simp
@[simp] theorem doCanHpRead_core (carried : Bool) (d : List Byte) (w : Who) (s : State) : (doCanHpRead carried d w s).pending = s.pending ∧ (doCanHpRead carried d w s).now = s.now ∧ (doCanHpRead carried d w s).tck.mode = s.tck.mode ∧ (doCanHpRead carried d w s).slt.mem = s.slt.mem := by
  simp only [doCanHpRead]; (repeat' (first | split | apply And.intro | refine refuseShape_core_pending _ _ _ _ _ (fun _ => ?_) | refine refuseShape_core_now _ _ _ _ _ (fun _ => ?_) | refine refuseShape_core_mode _ _ _ _ _ (fun _ => ?_) | refine refuseShape_core_mem _ _ _ _ _ (fun _ => ?_) | refine refuseOr_core_pending _ _ _ _ (fun _ => ?_) | refine refuseOr_core_now _ _ _ _ (fun _ => ?_) | refine refuseOr_core_mode _ _ _ _ (fun _ => ?_) | refine refuseOr_core_mem _ _ _ _ (fun _ => ?_))) <;> simp

/-! ### Local -/
@[simp] theorem localApply_core (s : State) (old : RegFile) : (localApply s old).pending = s.pending ∧ (localApply s old).now = s.now ∧ (localApply s old).tck.mode = s.tck.mode ∧ (localApply s old).slt.mem = s.slt.mem := by
  simp [localApply]
@[simp] theorem localCutDone_core (s : State) : (localCutDone s).pending = s.pending ∧ (localCutDone s).now = s.now ∧ (localCutDone s).tck.mode = s.tck.mode ∧ (localCutDone s).slt.mem = s.slt.mem := by
  simp [localCutDone]
@[simp] theorem lchAskClear_core (s : State) (v : BitVec 32) : (lchAskClear s v).pending = s.pending ∧ (lchAskClear s v).now = s.now ∧ (lchAskClear s v).tck.mode = s.tck.mode ∧ (lchAskClear s v).slt.mem = s.slt.mem := by
  simp [lchAskClear]
@[simp] theorem doLchClear_core (carried : Bool) (d : List Byte) (w : Who) (s : State) : (doLchClear carried d w s).pending = s.pending ∧ (doLchClear carried d w s).now = s.now ∧ (doLchClear carried d w s).tck.mode = s.tck.mode ∧ (doLchClear carried d w s).slt.mem = s.slt.mem := by
  simp only [doLchClear]; (repeat' (first | split | apply And.intro | refine refuseOr_core_pending _ _ _ _ (fun _ => ?_) | refine refuseOr_core_now _ _ _ _ (fun _ => ?_) | refine refuseOr_core_mode _ _ _ _ (fun _ => ?_) | refine refuseOr_core_mem _ _ _ _ (fun _ => ?_))) <;> simp
@[simp] theorem setMv_core (s : State) (g : Nat) (mv : BitVec 16) : (setMv s g mv).pending = s.pending ∧ (setMv s g mv).now = s.now ∧ (setMv s g mv).tck.mode = s.tck.mode ∧ (setMv s g mv).slt.mem = s.slt.mem := by
  simp [setMv]
@[simp] theorem outsOff_core (s : State) (b : BitVec 32) : (outsOff s b).pending = s.pending ∧ (outsOff s b).now = s.now ∧ (outsOff s b).tck.mode = s.tck.mode ∧ (outsOff s b).slt.mem = s.slt.mem := by
  simp [outsOff]
@[simp] theorem lplusGroupFail_core (s : State) (g : Nat) (mv : BitVec 16) : (lplusGroupFail s g mv).pending = s.pending ∧ (lplusGroupFail s g mv).now = s.now ∧ (lplusGroupFail s g mv).tck.mode = s.tck.mode ∧ (lplusGroupFail s g mv).slt.mem = s.slt.mem := by
  simp only [lplusGroupFail]; (repeat' split) <;> simp
@[simp] theorem lplusGroupRestore_core (s : State) (g : Nat) (mv : BitVec 16) : (lplusGroupRestore s g mv).pending = s.pending ∧ (lplusGroupRestore s g mv).now = s.now ∧ (lplusGroupRestore s g mv).tck.mode = s.tck.mode ∧ (lplusGroupRestore s g mv).slt.mem = s.slt.mem := by
  simp only [lplusGroupRestore]; (repeat' split) <;> simp
@[simp] theorem countUp_core (s : State) (ch : Nat) : (countUp s ch).pending = s.pending ∧ (countUp s ch).now = s.now ∧ (countUp s ch).tck.mode = s.tck.mode ∧ (countUp s ch).slt.mem = s.slt.mem := by
  simp [countUp]
@[simp] theorem setLevel_core (s : State) (ch : Nat) (on : Bool) : (setLevel s ch on).pending = s.pending ∧ (setLevel s ch on).now = s.now ∧ (setLevel s ch on).tck.mode = s.tck.mode ∧ (setLevel s ch on).slt.mem = s.slt.mem := by
  simp only [setLevel]; (repeat' split) <;> simp
@[simp] theorem localEdge_core (s : State) (ch : Nat) (rising : Bool) : (localEdge s ch rising).pending = s.pending ∧ (localEdge s ch rising).now = s.now ∧ (localEdge s ch rising).tck.mode = s.tck.mode ∧ (localEdge s ch rising).slt.mem = s.slt.mem := by
  simp only [localEdge]; (repeat' split) <;> simp
@[simp] theorem wireBreak_core (s : State) (ch : Nat) : (wireBreak s ch).pending = s.pending ∧ (wireBreak s ch).now = s.now ∧ (wireBreak s ch).tck.mode = s.tck.mode ∧ (wireBreak s ch).slt.mem = s.slt.mem := by
  simp only [wireBreak]; (repeat' split) <;> simp
@[simp] theorem wireBreakClear_core (s : State) (ch : Nat) (on : Bool) : (wireBreakClear s ch on).pending = s.pending ∧ (wireBreakClear s ch on).now = s.now ∧ (wireBreakClear s ch on).tck.mode = s.tck.mode ∧ (wireBreakClear s ch on).slt.mem = s.slt.mem := by
  simp only [wireBreakClear]; (repeat' split) <;> simp
@[simp] theorem s0Pulse_core (s : State) (ch ms : Nat) : (s0Pulse s ch ms).pending = s.pending ∧ (s0Pulse s ch ms).now = s.now ∧ (s0Pulse s ch ms).tck.mode = s.tck.mode ∧ (s0Pulse s ch ms).slt.mem = s.slt.mem := by
  simp only [s0Pulse]; (repeat' split) <;> simp
@[simp] theorem localLaunch_core (s : State) : (localLaunch s).pending = s.pending ∧ (localLaunch s).now = s.now ∧ (localLaunch s).tck.mode = s.tck.mode ∧ (localLaunch s).slt.mem = s.slt.mem := by
  simp [localLaunch]
@[simp] theorem outputOverload_core (s : State) (ch : Nat) : (outputOverload s ch).pending = s.pending ∧ (outputOverload s ch).now = s.now ∧ (outputOverload s ch).tck.mode = s.tck.mode ∧ (outputOverload s ch).slt.mem = s.slt.mem := by
  simp only [outputOverload]; (repeat' split) <;> simp
@[simp] theorem clearLatches_core (s : State) (bits : BitVec 32) (kind : Nat) : (clearLatches s bits kind).pending = s.pending ∧ (clearLatches s bits kind).now = s.now ∧ (clearLatches s bits kind).tck.mode = s.tck.mode ∧ (clearLatches s bits kind).slt.mem = s.slt.mem := by
  simp only [clearLatches]; (repeat' (first | split | apply And.intro | refine foldl_pending_of (fun _ _ => ?_) ?_ | refine foldl_now_of (fun _ _ => ?_) ?_ | refine foldl_mode_of (fun _ _ => ?_) ?_ | refine foldl_mem_of (fun _ _ => ?_) ?_)) <;> simp
@[simp] theorem overloadRetry_core (s : State) (ch : Nat) : (overloadRetry s ch).pending = s.pending ∧ (overloadRetry s ch).now = s.now ∧ (overloadRetry s ch).tck.mode = s.tck.mode ∧ (overloadRetry s ch).slt.mem = s.slt.mem := by
  simp only [overloadRetry]; (repeat' split) <;> simp
@[simp] theorem localClearEdge_core (s : State) : (localClearEdge s).pending = s.pending ∧ (localClearEdge s).now = s.now ∧ (localClearEdge s).tck.mode = s.tck.mode ∧ (localClearEdge s).slt.mem = s.slt.mem := by
  simp [localClearEdge]

/-! ### Meter -/
@[simp] theorem elsbOf_core (s : State) (f : Nat) : (elsbOf s f).2.pending = s.pending ∧ (elsbOf s f).2.now = s.now ∧ (elsbOf s f).2.tck.mode = s.tck.mode ∧ (elsbOf s f).2.slt.mem = s.slt.mem := by
  simp only [elsbOf]; (repeat' split) <;> simp
@[simp] theorem setElsb_core (s : State) : (setElsb s).pending = s.pending ∧ (setElsb s).now = s.now ∧ (setElsb s).tck.mode = s.tck.mode ∧ (setElsb s).slt.mem = s.slt.mem := by
  have k : ∀ (e : Nat × State) (f : Nat), ({ e.2 with mtr.elsb := e.2.mtr.elsb.setIfInBounds f (BitVec.ofNat 32 e.1) } : State).pending = e.2.pending ∧ ({ e.2 with mtr.elsb := e.2.mtr.elsb.setIfInBounds f (BitVec.ofNat 32 e.1) } : State).now = e.2.now ∧ ({ e.2 with mtr.elsb := e.2.mtr.elsb.setIfInBounds f (BitVec.ofNat 32 e.1) } : State).tck.mode = e.2.tck.mode ∧ ({ e.2 with mtr.elsb := e.2.mtr.elsb.setIfInBounds f (BitVec.ofNat 32 e.1) } : State).slt.mem = e.2.slt.mem := fun _ _ => ⟨rfl, rfl, rfl, rfl⟩
  unfold setElsb; generalize [0, 1, 2, 3] = l; refine ⟨foldl_pending_of (fun x f => ?_) rfl, foldl_now_of (fun x f => ?_) rfl, foldl_mode_of (fun x f => ?_) rfl, foldl_mem_of (fun x f => ?_) rfl⟩
  · exact (k (elsbOf x f) f).1.trans (elsbOf_core x f).1
  · exact (k (elsbOf x f) f).2.1.trans (elsbOf_core x f).2.1
  · exact (k (elsbOf x f) f).2.2.1.trans (elsbOf_core x f).2.2.1
  · exact (k (elsbOf x f) f).2.2.2.trans (elsbOf_core x f).2.2.2
@[simp] theorem setFeeder_core (s : State) (f : Nat) (x : Feeder → Feeder) : (setFeeder s f x).pending = s.pending ∧ (setFeeder s f x).now = s.now ∧ (setFeeder s f x).tck.mode = s.tck.mode ∧ (setFeeder s f x).slt.mem = s.slt.mem := by
  simp [setFeeder]
@[simp] theorem spoilWindow_core (s : State) (f : Nat) : (spoilWindow s f).pending = s.pending ∧ (spoilWindow s f).now = s.now ∧ (spoilWindow s f).tck.mode = s.tck.mode ∧ (spoilWindow s f).slt.mem = s.slt.mem := by
  simp only [spoilWindow]; (repeat' split) <;> simp
@[simp] theorem clearEnergy_core (s : State) (f : Nat) : (clearEnergy s f).pending = s.pending ∧ (clearEnergy s f).now = s.now ∧ (clearEnergy s f).tck.mode = s.tck.mode ∧ (clearEnergy s f).slt.mem = s.slt.mem := by
  simp [clearEnergy]
@[simp] theorem meterApply_core (s : State) (old : RegFile) : (meterApply s old).pending = s.pending ∧ (meterApply s old).now = s.now ∧ (meterApply s old).tck.mode = s.tck.mode ∧ (meterApply s old).slt.mem = s.slt.mem := by
  unfold meterApply; generalize [0, 1, 2, 3] = l; refine ⟨foldl_pending_of (fun _ _ => ?_) (by simp), foldl_now_of (fun _ _ => ?_) (by simp), foldl_mode_of (fun _ _ => ?_) (by simp), foldl_mem_of (fun _ _ => ?_) (by simp)⟩ <;> dsimp only <;> (repeat' split) <;> simp
@[simp] theorem rootFree_core (s : State) (a b : Nat) : (rootFree s a b).2.pending = s.pending ∧ (rootFree s a b).2.now = s.now ∧ (rootFree s a b).2.tck.mode = s.tck.mode ∧ (rootFree s a b).2.slt.mem = s.slt.mem := by
  simp only [rootFree]; (repeat' split) <;> simp
@[simp] theorem endEvent_core (s : State) (f kind : Nat) : (endEvent s f kind).pending = s.pending ∧ (endEvent s f kind).now = s.now ∧ (endEvent s f kind).tck.mode = s.tck.mode ∧ (endEvent s f kind).slt.mem = s.slt.mem := by
  simp only [endEvent]; (repeat' split) <;> simp
@[simp] theorem endEvents_core (s : State) (f : Nat) : (endEvents s f).pending = s.pending ∧ (endEvents s f).now = s.now ∧ (endEvents s f).tck.mode = s.tck.mode ∧ (endEvents s f).slt.mem = s.slt.mem := by
  simp [endEvents]
@[simp] theorem meterBeforeApply_core (s : State) : (meterBeforeApply s).pending = s.pending ∧ (meterBeforeApply s).now = s.now ∧ (meterBeforeApply s).tck.mode = s.tck.mode ∧ (meterBeforeApply s).slt.mem = s.slt.mem := by
  simp [meterBeforeApply]
@[simp] theorem meterBoot_core (s : State) : (meterBoot s).pending = s.pending ∧ (meterBoot s).now = s.now ∧ (meterBoot s).tck.mode = s.tck.mode ∧ (meterBoot s).slt.mem = s.slt.mem := by
  unfold meterBoot; generalize [0, 1, 2, 3] = l; refine ⟨foldl_pending_of (fun _ _ => ?_) (by simp), foldl_now_of (fun _ _ => ?_) (by simp), foldl_mode_of (fun _ _ => ?_) (by simp), foldl_mem_of (fun _ _ => ?_) (by simp)⟩ <;> (repeat' split) <;> simp
@[simp] theorem meterCutDone_core (s : State) : (meterCutDone s).pending = s.pending ∧ (meterCutDone s).now = s.now ∧ (meterCutDone s).tck.mode = s.tck.mode ∧ (meterCutDone s).slt.mem = s.slt.mem := by
  simp [meterCutDone]
@[simp] theorem presetApply_core (s : State) (f a value wraps : Nat) : (presetApply s f a value wraps).pending = s.pending ∧ (presetApply s f a value wraps).now = s.now ∧ (presetApply s f a value wraps).tck.mode = s.tck.mode ∧ (presetApply s f a value wraps).slt.mem = s.slt.mem := by
  simp [presetApply]
@[simp] theorem energyUnits_core (s : State) (p2 n ns : Nat) : (energyUnits s p2 n ns).2.pending = s.pending ∧ (energyUnits s p2 n ns).2.now = s.now ∧ (energyUnits s p2 n ns).2.tck.mode = s.tck.mode ∧ (energyUnits s p2 n ns).2.slt.mem = s.slt.mem := by
  simp [energyUnits]
@[simp] theorem setGain_core (s : State) (j v : Nat) : (setGain s j v).pending = s.pending ∧ (setGain s j v).now = s.now ∧ (setGain s j v).tck.mode = s.tck.mode ∧ (setGain s j v).slt.mem = s.slt.mem := by
  simp [setGain]
@[simp] theorem correctSample_core (s : State) (c g : Nat) (x : Int) : (correctSample s c g x).2.pending = s.pending ∧ (correctSample s c g x).2.now = s.now ∧ (correctSample s c g x).2.tck.mode = s.tck.mode ∧ (correctSample s c g x).2.slt.mem = s.slt.mem := by
  simp only [correctSample]; (repeat' split) <;> simp
@[simp] theorem sampleGain_core (s : State) (c : Nat) (x : Int) : (sampleGain s c x).pending = s.pending ∧ (sampleGain s c x).now = s.now ∧ (sampleGain s c x).tck.mode = s.tck.mode ∧ (sampleGain s c x).slt.mem = s.slt.mem := by
  simp only [sampleGain]; (repeat' split) <;> simp
@[simp] theorem sampleOne_core (s : State) (c : Nat) (x : Int) : (sampleOne s c x).2.pending = s.pending ∧ (sampleOne s c x).2.now = s.now ∧ (sampleOne s c x).2.tck.mode = s.tck.mode ∧ (sampleOne s c x).2.slt.mem = s.slt.mem := by
  simp only [sampleOne]; (repeat' split) <;> simp
@[simp] theorem sampleFeeder_core (s : State) (ws : List Word) (f : Nat) : (sampleFeeder s ws f).pending = s.pending ∧ (sampleFeeder s ws f).now = s.now ∧ (sampleFeeder s ws f).tck.mode = s.tck.mode ∧ (sampleFeeder s ws f).slt.mem = s.slt.mem := by
  simp only [sampleFeeder]; (repeat' (first | split | apply And.intro | refine foldl_pending_of (fun _ _ => ?_) ?_ | refine foldl_now_of (fun _ _ => ?_) ?_ | refine foldl_mode_of (fun _ _ => ?_) ?_ | refine foldl_mem_of (fun _ _ => ?_) ?_ | refine foldl_p1_pending_of (fun _ _ => ?_) ?_ | refine foldl_p2_pending_of (fun _ _ => ?_) ?_ | refine foldl_p1_now_of (fun _ _ => ?_) ?_ | refine foldl_p2_now_of (fun _ _ => ?_) ?_ | refine foldl_p1_mode_of (fun _ _ => ?_) ?_ | refine foldl_p2_mode_of (fun _ _ => ?_) ?_ | refine foldl_p1_mem_of (fun _ _ => ?_) ?_ | refine foldl_p2_mem_of (fun _ _ => ?_) ?_)) <;> simp
@[simp] theorem sampleInstant_core (s : State) (ws : List Word) : (sampleInstant s ws).pending = s.pending ∧ (sampleInstant s ws).now = s.now ∧ (sampleInstant s ws).tck.mode = s.tck.mode ∧ (sampleInstant s ws).slt.mem = s.slt.mem := by
  simp only [sampleInstant]; (repeat' (first | split | apply And.intro | refine foldl_pending_of (fun _ _ => ?_) ?_ | refine foldl_now_of (fun _ _ => ?_) ?_ | refine foldl_mode_of (fun _ _ => ?_) ?_ | refine foldl_mem_of (fun _ _ => ?_) ?_)) <;> simp
@[simp] theorem gainUp_core (s : State) (f : Nat) : (gainUp s f).pending = s.pending ∧ (gainUp s f).now = s.now ∧ (gainUp s f).tck.mode = s.tck.mode ∧ (gainUp s f).slt.mem = s.slt.mem := by
  simp only [gainUp]; (repeat' (first | split | apply And.intro | refine foldl_pending_of (fun _ _ => ?_) ?_ | refine foldl_now_of (fun _ _ => ?_) ?_ | refine foldl_mode_of (fun _ _ => ?_) ?_ | refine foldl_mem_of (fun _ _ => ?_) ?_)) <;> simp
@[simp] theorem judge_core (s : State) (f kind : Nat) (vs : List Nat) (begins ends : Nat → Bool) (anyBegins anyEnds : Bool) (deeper : Nat → Nat → Nat) : (judge s f kind vs begins ends anyBegins anyEnds deeper).pending = s.pending ∧ (judge s f kind vs begins ends anyBegins anyEnds deeper).now = s.now ∧ (judge s f kind vs begins ends anyBegins anyEnds deeper).tck.mode = s.tck.mode ∧ (judge s f kind vs begins ends anyBegins anyEnds deeper).slt.mem = s.slt.mem := by
  simp only [judge]; (repeat' (first | split | apply And.intro | refine foldl_pending_of (fun _ _ => ?_) ?_ | refine foldl_now_of (fun _ _ => ?_) ?_ | refine foldl_mode_of (fun _ _ => ?_) ?_ | refine foldl_mem_of (fun _ _ => ?_) ?_)) <;> simp
@[simp] theorem putResult_core (s : State) (f item phase : Nat) (v : Nat) : (putResult s f item phase v).pending = s.pending ∧ (putResult s f item phase v).now = s.now ∧ (putResult s f item phase v).tck.mode = s.tck.mode ∧ (putResult s f item phase v).slt.mem = s.slt.mem := by
  simp [putResult]
@[simp] theorem scaledResult_core (s : State) (v k : Nat) : (scaledResult s v k).2.pending = s.pending ∧ (scaledResult s v k).2.now = s.now ∧ (scaledResult s v k).2.tck.mode = s.tck.mode ∧ (scaledResult s v k).2.slt.mem = s.slt.mem := by
  simp [scaledResult]
@[simp] theorem scaledSigned_core (s : State) (v : Int) (d : Nat) : (scaledSigned s v d).2.pending = s.pending ∧ (scaledSigned s v d).2.now = s.now ∧ (scaledSigned s v d).2.tck.mode = s.tck.mode ∧ (scaledSigned s v d).2.slt.mem = s.slt.mem := by
  simp [scaledSigned]
@[simp] theorem judgeHalf_core (s1 : State) (f : Nat) (vs : List Nat) : (judgeHalf s1 f vs).pending = s1.pending ∧ (judgeHalf s1 f vs).now = s1.now ∧ (judgeHalf s1 f vs).tck.mode = s1.tck.mode ∧ (judgeHalf s1 f vs).slt.mem = s1.slt.mem := by
  simp [judgeHalf]
@[simp] theorem cap24_snd (x : Nat × State) : (cap24 x).2 = x.2 := by cases x; rfl
@[simp] theorem rmsResult_core (s : State) (f ofs sq n k : Nat) : (rmsResult s f ofs sq n k).2.pending = s.pending ∧ (rmsResult s f ofs sq n k).2.now = s.now ∧ (rmsResult s f ofs sq n k).2.tck.mode = s.tck.mode ∧ (rmsResult s f ofs sq n k).2.slt.mem = s.slt.mem := by
  simp [rmsResult]
@[simp] theorem halfCycleBoundary_core (s : State) (f : Nat) (timed : Bool) : (halfCycleBoundary s f timed).pending = s.pending ∧ (halfCycleBoundary s f timed).now = s.now ∧ (halfCycleBoundary s f timed).tck.mode = s.tck.mode ∧ (halfCycleBoundary s f timed).slt.mem = s.slt.mem := by
  unfold halfCycleBoundary
  extract_lets x s0 h
  have h0 : s0.pending = s.pending ∧ s0.now = s.now ∧ s0.tck.mode = s.tck.mode ∧ s0.slt.mem = s.slt.mem := by simp [s0]
  clear_value s0
  split
  · simp
  · split
    · exact h0
    · extract_lets q s1
      have h1 : s1.pending = s0.pending ∧ s1.now = s0.now ∧ s1.tck.mode = s0.tck.mode ∧ s1.slt.mem = s0.slt.mem := by
        simp only [s1]; generalize List.range 3 = l; simp
      clear_value s1
      (repeat' split) <;> simp [h0, h1]
@[simp] theorem setFreq_core (s : State) (f : Nat) (valid : Bool) : (setFreq s f valid).pending = s.pending ∧ (setFreq s f valid).now = s.now ∧ (setFreq s f valid).tck.mode = s.tck.mode ∧ (setFreq s f valid).slt.mem = s.slt.mem := by
  simp only [setFreq]; (repeat' split) <;> simp
@[simp] theorem referenceLost_core (s : State) (f : Nat) : (referenceLost s f).pending = s.pending ∧ (referenceLost s f).now = s.now ∧ (referenceLost s f).tck.mode = s.tck.mode ∧ (referenceLost s f).slt.mem = s.slt.mem := by
  simp only [referenceLost]; (repeat' split) <;> simp
@[simp] theorem angleOf_core (s : State) (z : Int × Int) : (angleOf s z).2.pending = s.pending ∧ (angleOf s z).2.now = s.now ∧ (angleOf s z).2.tck.mode = s.tck.mode ∧ (angleOf s z).2.slt.mem = s.slt.mem := by
  simp only [angleOf]; (repeat' split) <;> simp
@[simp] theorem powerResult_core (s : State) (f : Nat) (v : Int) (d n : Nat) : (powerResult s f v d n).2.pending = s.pending ∧ (powerResult s f v d n).2.now = s.now ∧ (powerResult s f v d n).2.tck.mode = s.tck.mode ∧ (powerResult s f v d n).2.slt.mem = s.slt.mem := by
  simp [powerResult]
@[simp] theorem phaseResults_core (s : State) (f n i : Nat) (x : PhaseSum) (ref : Int × Int) : (phaseResults s f n i x ref).pending = s.pending ∧ (phaseResults s f n i x ref).now = s.now ∧ (phaseResults s f n i x ref).tck.mode = s.tck.mode ∧ (phaseResults s f n i x ref).slt.mem = s.slt.mem := by
  simp [phaseResults]
@[simp] theorem powerResults_core (s : State) (f n i : Nat) (e : Int × Int × Nat) : (powerResults s f n i e).pending = s.pending ∧ (powerResults s f n i e).now = s.now ∧ (powerResults s f n i e).tck.mode = s.tck.mode ∧ (powerResults s f n i e).slt.mem = s.slt.mem := by
  simp only [powerResults]; (repeat' split) <;> simp
@[simp] theorem cycleResults_core (s : State) (f type period : Nat) (x : Feeder) (ps : List (Int × Int × Nat)) : (cycleResults s f type period x ps).pending = s.pending ∧ (cycleResults s f type period x ps).now = s.now ∧ (cycleResults s f type period x ps).tck.mode = s.tck.mode ∧ (cycleResults s f type period x ps).slt.mem = s.slt.mem := by
  simp only [cycleResults]; (repeat' (first | split | apply And.intro | refine foldl_pending_of (fun _ _ => ?_) ?_ | refine foldl_now_of (fun _ _ => ?_) ?_ | refine foldl_mode_of (fun _ _ => ?_) ?_ | refine foldl_mem_of (fun _ _ => ?_) ?_)) <;> simp
@[simp] theorem addEnergy_core (s : State) (f a n : Nat) : (addEnergy s f a n).pending = s.pending ∧ (addEnergy s f a n).now = s.now ∧ (addEnergy s f a n).tck.mode = s.tck.mode ∧ (addEnergy s f a n).slt.mem = s.slt.mem := by
  simp only [addEnergy]; (repeat' split) <;> simp
@[simp] theorem addSigned_core (s : State) (f a : Nat) (p2 : Int) (n ns : Nat) : (addSigned s f a p2 n ns).pending = s.pending ∧ (addSigned s f a p2 n ns).now = s.now ∧ (addSigned s f a p2 n ns).tck.mode = s.tck.mode ∧ (addSigned s f a p2 n ns).slt.mem = s.slt.mem := by
  simp [addSigned]
@[simp] theorem cycleEnergy_core (s : State) (f n ns : Nat) (ps : List (Int × Int × Nat)) : (cycleEnergy s f n ns ps).pending = s.pending ∧ (cycleEnergy s f n ns ps).now = s.now ∧ (cycleEnergy s f n ns ps).tck.mode = s.tck.mode ∧ (cycleEnergy s f n ns ps).slt.mem = s.slt.mem := by
  simp [cycleEnergy]
@[simp] theorem cycleCompute_core (s : State) (f ns : Nat) : (cycleCompute s f ns).pending = s.pending ∧ (cycleCompute s f ns).now = s.now ∧ (cycleCompute s f ns).tck.mode = s.tck.mode ∧ (cycleCompute s f ns).slt.mem = s.slt.mem := by
  simp only [cycleCompute]; (repeat' split) <;> simp
@[simp] theorem lineCycleEnd_core (s : State) (f : Nat) (m : CycleMeas) : (lineCycleEnd s f m).pending = s.pending ∧ (lineCycleEnd s f m).now = s.now ∧ (lineCycleEnd s f m).tck.mode = s.tck.mode ∧ (lineCycleEnd s f m).slt.mem = s.slt.mem := by
  simp only [lineCycleEnd]; (repeat' split) <;> simp
@[simp] theorem resultReady_core (s : State) (f : Nat) : (resultReady s f).pending = s.pending ∧ (resultReady s f).now = s.now ∧ (resultReady s f).tck.mode = s.tck.mode ∧ (resultReady s f).slt.mem = s.slt.mem := by
  simp only [resultReady]; (repeat' (first | split | apply And.intro | refine foldl_pending_of (fun _ _ => ?_) ?_ | refine foldl_now_of (fun _ _ => ?_) ?_ | refine foldl_mode_of (fun _ _ => ?_) ?_ | refine foldl_mem_of (fun _ _ => ?_) ?_)) <;> simp
@[simp] theorem meterChannelFail_core (s : State) (c : Nat) : (meterChannelFail s c).pending = s.pending ∧ (meterChannelFail s c).now = s.now ∧ (meterChannelFail s c).tck.mode = s.tck.mode ∧ (meterChannelFail s c).slt.mem = s.slt.mem := by
  simp only [meterChannelFail]; (repeat' split) <;> simp
@[simp] theorem meterChannelRecover_core (s : State) (c : Nat) : (meterChannelRecover s c).pending = s.pending ∧ (meterChannelRecover s c).now = s.now ∧ (meterChannelRecover s c).tck.mode = s.tck.mode ∧ (meterChannelRecover s c).slt.mem = s.slt.mem := by
  simp only [meterChannelRecover]; (repeat' split) <;> simp
@[simp] theorem energyLatch_core (s : State) (f : Nat) : (energyLatch s f).pending = s.pending ∧ (energyLatch s f).now = s.now ∧ (energyLatch s f).tck.mode = s.tck.mode ∧ (energyLatch s f).slt.mem = s.slt.mem := by
  simp only [energyLatch]; (repeat' split) <;> simp
@[simp] theorem signedEnergies_core (s : State) (n ns : Nat) (l : List Int) : (signedEnergies s n ns l).2.pending = s.pending ∧ (signedEnergies s n ns l).2.now = s.now ∧ (signedEnergies s n ns l).2.tck.mode = s.tck.mode ∧ (signedEnergies s n ns l).2.slt.mem = s.slt.mem := by
  induction l generalizing s with
  | nil => simp [signedEnergies]
  | cons p l ih => simp [signedEnergies, ih]
@[simp] theorem openEnergies_core (s : State) (f : Nat) : (openEnergies s f).2.pending = s.pending ∧ (openEnergies s f).2.now = s.now ∧ (openEnergies s f).2.tck.mode = s.tck.mode ∧ (openEnergies s f).2.slt.mem = s.slt.mem := by
  unfold openEnergies
  dsimp only
  split
  · simp
  · exact signedEnergies_core s _ _ _
@[simp] theorem captureFeeder_core (s : State) (f : Nat) : (captureFeeder s f).pending = s.pending ∧ (captureFeeder s f).now = s.now ∧ (captureFeeder s f).tck.mode = s.tck.mode ∧ (captureFeeder s f).slt.mem = s.slt.mem := by
  simp only [captureFeeder]; (repeat' split) <;> simp
@[simp] theorem pfwCapture_core (s : State) (ws : List Word) : (pfwCapture s ws).pending = s.pending ∧ (pfwCapture s ws).now = s.now ∧ (pfwCapture s ws).tck.mode = s.tck.mode ∧ (pfwCapture s ws).slt.mem = s.slt.mem := by
  simp only [pfwCapture]; (repeat' (first | split | apply And.intro | refine foldl_pending_of (fun _ _ => ?_) ?_ | refine foldl_now_of (fun _ _ => ?_) ?_ | refine foldl_mode_of (fun _ _ => ?_) ?_ | refine foldl_mem_of (fun _ _ => ?_) ?_)) <;> simp
@[simp] theorem dropLatchSaves_core (s : State) : (dropLatchSaves s).pending = s.pending ∧ (dropLatchSaves s).now = s.now ∧ (dropLatchSaves s).tck.mode = s.tck.mode ∧ (dropLatchSaves s).slt.mem = s.slt.mem := by
  simp only [dropLatchSaves]; (repeat' split) <;> simp
@[simp] theorem pfwRecordsComplete_core (s : State) : (pfwRecordsComplete s).pending = s.pending ∧ (pfwRecordsComplete s).now = s.now ∧ (pfwRecordsComplete s).tck.mode = s.tck.mode ∧ (pfwRecordsComplete s).slt.mem = s.slt.mem := by
  simp only [pfwRecordsComplete]; (repeat' split) <;> simp
@[simp] theorem doMtrEnergyGet_core (d : List Byte) (w : Who) (s : State) : (doMtrEnergyGet d w s).pending = s.pending ∧ (doMtrEnergyGet d w s).now = s.now ∧ (doMtrEnergyGet d w s).tck.mode = s.tck.mode ∧ (doMtrEnergyGet d w s).slt.mem = s.slt.mem := by
  simp only [doMtrEnergyGet]; (repeat' (first | split | apply And.intro | refine refuseOr_core_pending _ _ _ _ (fun _ => ?_) | refine refuseOr_core_now _ _ _ _ (fun _ => ?_) | refine refuseOr_core_mode _ _ _ _ (fun _ => ?_) | refine refuseOr_core_mem _ _ _ _ (fun _ => ?_))) <;> simp
@[simp] theorem doMtrEnergyPreset_core (d : List Byte) (w : Who) (s : State) : (doMtrEnergyPreset d w s).pending = s.pending ∧ (doMtrEnergyPreset d w s).now = s.now ∧ (doMtrEnergyPreset d w s).tck.mode = s.tck.mode ∧ (doMtrEnergyPreset d w s).slt.mem = s.slt.mem := by
  simp [doMtrEnergyPreset]

end Sys2Proof.Machine
end

