-- ==== Sys2Proof/Laws/KeepReset.lean ====
section
/-! SUPPORT. What the functions of resets, the watchdog, firmware leave alone, of the queue of commands, the model's time, the mode and slate memory. -/
namespace Sys2Proof.Machine
open Sys2Proof
set_option linter.all false

/-! ### Resets -/
@[simp] theorem expertVector_core (s : State) (p : Port) : (expertVector s p).pending = s.pending ∧ (expertVector s p).now = s.now ∧ (expertVector s p).tck.mode = s.tck.mode ∧ (expertVector s p).slt.mem = s.slt.mem := by
  simp only [expertVector]; (repeat' split) <;> simp
@[simp] theorem coldState_core (s : State) (t : Tck) : (coldState s t).pending = s.pending ∧ (coldState s t).now = s.now := by
  simp [coldState]
@[simp] theorem coldReset_core (s : State) (cause : Nat) (joining : Bool) : (coldReset s cause joining).pending = s.pending ∧ (coldReset s cause joining).now = s.now := by
  simp [coldReset]
@[simp] theorem slatePass_core (s : State) : (slatePass s).pending = s.pending ∧ (slatePass s).now = s.now := by
  simp only [slatePass]; (repeat' split) <;> simp
@[simp] theorem reloadStage_core (s : State) (b : Nat) : (reloadStage s b).pending = s.pending ∧ (reloadStage s b).now = s.now ∧ (reloadStage s b).tck.mode = s.tck.mode ∧ (reloadStage s b).slt.mem = s.slt.mem := by
  simp [reloadStage]
@[simp] theorem endExpert_core (s : State) (p : Port) (mask : BitVec 20) : (endExpert s p mask).pending = s.pending ∧ (endExpert s p mask).now = s.now ∧ (endExpert s p mask).tck.mode = s.tck.mode ∧ (endExpert s p mask).slt.mem = s.slt.mem := by
  simp only [endExpert]; (repeat' (first | split | apply And.intro | refine foldl_pending_of (fun _ _ => ?_) ?_ | refine foldl_now_of (fun _ _ => ?_) ?_ | refine foldl_mode_of (fun _ _ => ?_) ?_ | refine foldl_mem_of (fun _ _ => ?_) ?_)) <;> simp
@[simp] theorem resetUnless_core (s : State) (cause : Nat) : (resetUnless s cause).pending = s.pending ∧ (resetUnless s cause).now = s.now := by
  simp only [resetUnless]; (repeat' split) <;> simp
@[simp] theorem powerOn_core (s : State) : (powerOn s).pending = s.pending ∧ (powerOn s).now = s.now := by
  simp only [powerOn]; (repeat' split) <;> simp
@[simp] theorem railLoss_core (s : State) : (railLoss s).pending = s.pending ∧ (railLoss s).now = s.now := by
  simp only [railLoss]; (repeat' split) <;> simp
@[simp] theorem doReset_core (w : Who) (s : State) : (doReset w s).pending = s.pending ∧ (doReset w s).now = s.now := by
  simp [doReset]
@[simp] theorem doJoin_core (w : Who) (s : State) : (doJoin w s).pending = s.pending ∧ (doJoin w s).now = s.now := by
  simp [doJoin]
@[simp] theorem dropSems_core (s : State) (p : Port) : (dropSems s p).pending = s.pending ∧ (dropSems s p).now = s.now ∧ (dropSems s p).tck.mode = s.tck.mode ∧ (dropSems s p).slt.mem = s.slt.mem := by
  simp [dropSems]
@[simp] theorem portReset_core (s : State) (p : Port) : (portReset s p).pending = s.pending ∧ (portReset s p).now = s.now ∧ (portReset s p).tck.mode = s.tck.mode ∧ (portReset s p).slt.mem = s.slt.mem := by
  simp only [portReset]; (repeat' split) <;> simp
@[simp] theorem portResets_core (s : State) (r : PortReset) : (portResets s r).pending = s.pending ∧ (portResets s r).now = s.now ∧ (portResets s r).tck.mode = s.tck.mode ∧ (portResets s r).slt.mem = s.slt.mem := by
  simp only [portResets]; (repeat' split) <;> simp
@[simp] theorem slateOpStart_core (s : State) : (slateOpStart s).pending = s.pending ∧ (slateOpStart s).now = s.now := by
  simp only [slateOpStart]; (repeat' split) <;> simp

/-! ### Watchdog -/
@[simp] theorem wdtRestart_core (s : State) : (wdtRestart s).pending = s.pending ∧ (wdtRestart s).now = s.now ∧ (wdtRestart s).tck.mode = s.tck.mode ∧ (wdtRestart s).slt.mem = s.slt.mem := by
  simp [wdtRestart]
@[simp] theorem wdtApply_core (s : State) (old : RegFile) : (wdtApply s old).pending = s.pending ∧ (wdtApply s old).now = s.now ∧ (wdtApply s old).tck.mode = s.tck.mode ∧ (wdtApply s old).slt.mem = s.slt.mem := by
  simp only [wdtApply]; (repeat' split) <;> simp
@[simp] theorem wdtBoot_core (s : State) : (wdtBoot s).pending = s.pending ∧ (wdtBoot s).now = s.now ∧ (wdtBoot s).tck.mode = s.tck.mode ∧ (wdtBoot s).slt.mem = s.slt.mem := by
  simp only [wdtBoot]; (repeat' split) <;> simp
@[simp] theorem beginPointer_core (s : State) (payload : List Byte) : (beginPointer s payload).2.pending = s.pending ∧ (beginPointer s payload).2.now = s.now ∧ (beginPointer s payload).2.tck.mode = s.tck.mode := by
  simp [beginPointer]
@[simp] theorem writePointers_core (x0 : State) (x1 : List (List Byte)) (x2 : Option (Nat × Nat)) : (writePointers x0 x1 x2).2.pending = x0.pending ∧ (writePointers x0 x1 x2).2.now = x0.now ∧ (writePointers x0 x1 x2).2.tck.mode = x0.tck.mode := by
  induction x1 generalizing x0 x2 with
  | nil => simp [writePointers]
  | cons p l ih =>
    unfold writePointers; dsimp only
    split <;> simp [ih]
@[simp] theorem wdtPassed_core (s : State) : (wdtPassed s).pending = s.pending ∧ (wdtPassed s).now = s.now ∧ (wdtPassed s).tck.mode = s.tck.mode ∧ (wdtPassed s).slt.mem = s.slt.mem := by
  simp only [wdtPassed]; (repeat' split) <;> simp
@[simp] theorem doWdtEvidenceClear_core (carried : Bool) (d : List Byte) (w : Who) (s : State) : (doWdtEvidenceClear carried d w s).pending = s.pending ∧ (doWdtEvidenceClear carried d w s).now = s.now ∧ (doWdtEvidenceClear carried d w s).tck.mode = s.tck.mode ∧ (doWdtEvidenceClear carried d w s).slt.mem = s.slt.mem := by
  simp [doWdtEvidenceClear]
@[simp] theorem countDenied_core (s : State) (p : Port) : (countDenied s p).pending = s.pending ∧ (countDenied s p).now = s.now ∧ (countDenied s p).tck.mode = s.tck.mode ∧ (countDenied s p).slt.mem = s.slt.mem := by
  simp [countDenied]
@[simp] theorem wdtAccept_core (s : State) : (wdtAccept s).pending = s.pending ∧ (wdtAccept s).now = s.now ∧ (wdtAccept s).tck.mode = s.tck.mode ∧ (wdtAccept s).slt.mem = s.slt.mem := by
  simp [wdtAccept]
@[simp] theorem wdtExpire_core (s : State) (kind : Nat) : (wdtExpire s kind).pending = s.pending ∧ (wdtExpire s kind).now = s.now := by
  simp only [wdtExpire]; (repeat' split) <;> simp
@[simp] theorem wdtJudge_core (s : State) (key : Nat) : (wdtJudge s key).pending = s.pending ∧ (wdtJudge s key).now = s.now := by
  simp only [wdtJudge]; (repeat' split) <;> simp
@[simp] theorem wdtServiceWrite_core (s : State) (p : Port) (v : Dword) : (wdtServiceWrite s p v).pending = s.pending ∧ (wdtServiceWrite s p v).now = s.now := by
  simp only [wdtServiceWrite, access]; (repeat' split) <;> simp
@[simp] theorem wdtRegister_core (s : State) : (wdtRegister s).pending = s.pending ∧ (wdtRegister s).now = s.now ∧ (wdtRegister s).tck.mode = s.tck.mode ∧ (wdtRegister s).slt.mem = s.slt.mem := by
  simp only [wdtRegister]; (repeat' (first | split | apply And.intro | refine foldl_pending_of (fun _ _ => ?_) ?_ | refine foldl_now_of (fun _ _ => ?_) ?_ | refine foldl_mode_of (fun _ _ => ?_) ?_ | refine foldl_mem_of (fun _ _ => ?_) ?_)) <;> simp
@[simp] theorem wdtClearEdge_core (s : State) : (wdtClearEdge s).pending = s.pending ∧ (wdtClearEdge s).now = s.now ∧ (wdtClearEdge s).tck.mode = s.tck.mode ∧ (wdtClearEdge s).slt.mem = s.slt.mem := by
  unfold wdtClearEdge
  generalize List.replicate 256 (0#8) = z
  refine ⟨foldl_pending_of (fun _ _ => ?_) rfl, foldl_now_of (fun _ _ => ?_) rfl, foldl_mode_of (fun _ _ => ?_) rfl, foldl_mem_of (fun _ _ => ?_) rfl⟩ <;> dsimp only <;> split <;> simp
@[simp] theorem supervisorService_core (s : State) : (supervisorService s).pending = s.pending ∧ (supervisorService s).now = s.now ∧ (supervisorService s).tck.mode = s.tck.mode ∧ (supervisorService s).slt.mem = s.slt.mem := by
  simp only [supervisorService]; (repeat' split) <;> simp
@[simp] theorem watchdogExpiry_core (s : State) : (watchdogExpiry s).pending = s.pending ∧ (watchdogExpiry s).now = s.now := by
  simp only [watchdogExpiry]; (repeat' split) <;> simp
@[simp] theorem doWdtEvidenceGet_core (d : List Byte) (w : Who) (s : State) : (doWdtEvidenceGet d w s).pending = s.pending ∧ (doWdtEvidenceGet d w s).now = s.now ∧ (doWdtEvidenceGet d w s).tck.mode = s.tck.mode ∧ (doWdtEvidenceGet d w s).slt.mem = s.slt.mem := by
  simp [doWdtEvidenceGet]

/-! ### Firmware -/
@[simp] theorem setSlot_core (s : State) (n : Nat) (f : FwSlot → FwSlot) : (setSlot s n f).pending = s.pending ∧ (setSlot s n f).now = s.now ∧ (setSlot s n f).tck.mode = s.tck.mode ∧ (setSlot s n f).slt.mem = s.slt.mem := by
  simp only [setSlot]; (repeat' split) <;> simp
@[simp] theorem saveSettings_core (s : State) : (saveSettings s).pending = s.pending ∧ (saveSettings s).now = s.now ∧ (saveSettings s).tck.mode = s.tck.mode ∧ (saveSettings s).slt.mem = s.slt.mem := by
  simp only [saveSettings]; (repeat' split) <;> simp
@[simp] theorem confirmTrial_core (s : State) : (confirmTrial s).pending = s.pending ∧ (confirmTrial s).now = s.now ∧ (confirmTrial s).tck.mode = s.tck.mode ∧ (confirmTrial s).slt.mem = s.slt.mem := by
  simp [confirmTrial]
@[simp] theorem trialConfirmTimeout_core (s : State) : (trialConfirmTimeout s).pending = s.pending ∧ (trialConfirmTimeout s).now = s.now ∧ (trialConfirmTimeout s).tck.mode = s.tck.mode ∧ (trialConfirmTimeout s).slt.mem = s.slt.mem := by
  simp only [trialConfirmTimeout]; (repeat' split) <;> simp
@[simp] theorem abandonStaging_core (s : State) (cause : Nat) : (abandonStaging s cause).pending = s.pending ∧ (abandonStaging s cause).now = s.now ∧ (abandonStaging s cause).tck.mode = s.tck.mode ∧ (abandonStaging s cause).slt.mem = s.slt.mem := by
  simp only [abandonStaging]; (repeat' split) <;> simp
@[simp] theorem sdCardDetect_core (s : State) (card : Option Card) : (sdCardDetect s card).pending = s.pending ∧ (sdCardDetect s card).now = s.now ∧ (sdCardDetect s card).tck.mode = s.tck.mode ∧ (sdCardDetect s card).slt.mem = s.slt.mem := by
  simp only [sdCardDetect]; (repeat' split) <;> simp
@[simp] theorem recordVar_core (s : State) (code : Nat) (d : List Byte) : (recordVar s code d).pending = s.pending ∧ (recordVar s code d).now = s.now ∧ (recordVar s code d).tck.mode = s.tck.mode ∧ (recordVar s code d).slt.mem = s.slt.mem := by
  simp only [recordVar]; (repeat' split) <;> simp
@[simp] theorem staged_core (s : State) (g : Staging) : (staged s g).pending = s.pending ∧ (staged s g).now = s.now ∧ (staged s g).tck.mode = s.tck.mode := by
  simp only [staged]; (repeat' split) <;> simp
@[simp] theorem stagingEnd_core (s : State) (res : StagingResult) : (stagingEnd s res).pending = s.pending ∧ (stagingEnd s res).now = s.now ∧ (stagingEnd s res).tck.mode = s.tck.mode := by
  simp only [stagingEnd]; (repeat' split) <;> simp
@[simp] theorem beginStaging_core (s : State) (g : Staging) : (beginStaging s g).pending = s.pending ∧ (beginStaging s g).now = s.now ∧ (beginStaging s g).tck.mode = s.tck.mode ∧ (beginStaging s g).slt.mem = s.slt.mem := by
  simp [beginStaging]
@[simp] theorem sdPoll_core (s : State) : (sdPoll s).pending = s.pending ∧ (sdPoll s).now = s.now ∧ (sdPoll s).tck.mode = s.tck.mode ∧ (sdPoll s).slt.mem = s.slt.mem := by
  simp only [sdPoll]; (repeat' split) <;> simp
@[simp] theorem doFwuScan_core (d : List Byte) (w : Who) (s : State) : (doFwuScan d w s).pending = s.pending ∧ (doFwuScan d w s).now = s.now ∧ (doFwuScan d w s).tck.mode = s.tck.mode ∧ (doFwuScan d w s).slt.mem = s.slt.mem := by
  simp [doFwuScan]
@[simp] theorem doFwuStage_core (d : List Byte) (w : Who) (s : State) : (doFwuStage d w s).pending = s.pending ∧ (doFwuStage d w s).now = s.now ∧ (doFwuStage d w s).tck.mode = s.tck.mode ∧ (doFwuStage d w s).slt.mem = s.slt.mem := by
  simp only [doFwuStage]; (repeat' (first | split | apply And.intro | refine refuseOr_core_pending _ _ _ _ (fun _ => ?_) | refine refuseOr_core_now _ _ _ _ (fun _ => ?_) | refine refuseOr_core_mode _ _ _ _ (fun _ => ?_) | refine refuseOr_core_mem _ _ _ _ (fun _ => ?_))) <;> simp
@[simp] theorem doFwuActivate_core (d : List Byte) (w : Who) (s : State) : (doFwuActivate d w s).pending = s.pending ∧ (doFwuActivate d w s).now = s.now ∧ (doFwuActivate d w s).tck.mode = s.tck.mode ∧ (doFwuActivate d w s).slt.mem = s.slt.mem := by
  simp [doFwuActivate]
@[simp] theorem doFwuConfirm_core (d : List Byte) (w : Who) (s : State) : (doFwuConfirm d w s).pending = s.pending ∧ (doFwuConfirm d w s).now = s.now ∧ (doFwuConfirm d w s).tck.mode = s.tck.mode ∧ (doFwuConfirm d w s).slt.mem = s.slt.mem := by
  simp [doFwuConfirm]
@[simp] theorem doFwuInfo_core (d : List Byte) (w : Who) (s : State) : (doFwuInfo d w s).pending = s.pending ∧ (doFwuInfo d w s).now = s.now ∧ (doFwuInfo d w s).tck.mode = s.tck.mode ∧ (doFwuInfo d w s).slt.mem = s.slt.mem := by
  simp [doFwuInfo]

end Sys2Proof.Machine
end

