-- ==== Sys2Proof/Laws/KeepLink.lean ====
section
/-! SUPPORT. What the functions of field links and the apply step leave alone, of the queue of commands, the model's time, the mode and slate memory. -/
namespace Sys2Proof.Machine
open Sys2Proof
set_option linter.all false

/-! ### Links -/
@[simp] theorem dropWaiting_core (s : State) (k : Nat) : (dropWaiting s k).pending = s.pending ∧ (dropWaiting s k).now = s.now ∧ (dropWaiting s k).tck.mode = s.tck.mode ∧ (dropWaiting s k).slt.mem = s.slt.mem := by
  simp [dropWaiting]
@[simp] theorem refreshFrame_core (s : State) (k : Nat) : (refreshFrame s k).pending = s.pending ∧ (refreshFrame s k).now = s.now ∧ (refreshFrame s k).tck.mode = s.tck.mode ∧ (refreshFrame s k).slt.mem = s.slt.mem := by
  simp [refreshFrame]
@[simp] theorem linkApplyOne_core (s : State) (old : RegFile) (k : Nat) : (linkApplyOne s old k).pending = s.pending ∧ (linkApplyOne s old k).now = s.now ∧ (linkApplyOne s old k).tck.mode = s.tck.mode ∧ (linkApplyOne s old k).slt.mem = s.slt.mem := by
  simp only [linkApplyOne]; (repeat' split) <;> simp
@[simp] theorem linkApply_core (s : State) (old : RegFile) : (linkApply s old).pending = s.pending ∧ (linkApply s old).now = s.now ∧ (linkApply s old).tck.mode = s.tck.mode ∧ (linkApply s old).slt.mem = s.slt.mem := by
  simp [linkApply]
@[simp] theorem queueParley_core (s : State) (k : Nat) (why : ParleyWhy) (path : List Byte) (op index : Nat) (data : List Byte) : (queueParley s k why path op index data).pending = s.pending ∧ (queueParley s k why path op index data).now = s.now ∧ (queueParley s k why path op index data).tck.mode = s.tck.mode ∧ (queueParley s k why path op index data).slt.mem = s.slt.mem := by
  simp [queueParley]
@[simp] theorem sendMap_core (s : State) (k i : Nat) (why : ParleyWhy) : (sendMap s k i why).pending = s.pending ∧ (sendMap s k i why).now = s.now ∧ (sendMap s k i why).tck.mode = s.tck.mode ∧ (sendMap s k i why).slt.mem = s.slt.mem := by
  simp [sendMap]
@[simp] theorem tableApply_core (s : State) (k : Nat) (t : List Station) : (tableApply s k t).pending = s.pending ∧ (tableApply s k t).now = s.now ∧ (tableApply s k t).tck.mode = s.tck.mode ∧ (tableApply s k t).slt.mem = s.slt.mem := by
  unfold tableApply
  extract_lets s1 todo left s2
  have h1 : s1.pending = s.pending ∧ s1.now = s.now ∧ s1.tck.mode = s.tck.mode ∧ s1.slt.mem = s.slt.mem := by simp [s1]
  clear_value s1
  have h2 : s2.pending = s1.pending ∧ s2.now = s1.now ∧ s2.tck.mode = s1.tck.mode ∧ s2.slt.mem = s1.slt.mem := by simp only [s2]; split <;> simp
  clear_value s2; simp [h1, h2]
@[simp] theorem fence_core (s : State) (k claim : Nat) : (fence s k claim).pending = s.pending ∧ (fence s k claim).now = s.now ∧ (fence s k claim).tck.mode = s.tck.mode ∧ (fence s k claim).slt.mem = s.slt.mem := by
  simp only [fence]; (repeat' split) <;> simp
@[simp] theorem noteClaim_core (s : State) (k claim : Nat) : (noteClaim s k claim).pending = s.pending ∧ (noteClaim s k claim).now = s.now ∧ (noteClaim s k claim).tck.mode = s.tck.mode ∧ (noteClaim s k claim).slt.mem = s.slt.mem := by
  simp only [noteClaim]; (repeat' split) <;> simp
@[simp] theorem headerIn_core (s : State) (k : Nat) (f : RxFrame) : (headerIn s k f).2.pending = s.pending ∧ (headerIn s k f).2.now = s.now ∧ (headerIn s k f).2.tck.mode = s.tck.mode ∧ (headerIn s k f).2.slt.mem = s.slt.mem := by
  simp only [headerIn]; (repeat' split) <;> simp
@[simp] theorem noteFcrc_core (s : State) (k : Nat) (f : List Byte) : (noteFcrc s k f).pending = s.pending ∧ (noteFcrc s k f).now = s.now ∧ (noteFcrc s k f).tck.mode = s.tck.mode ∧ (noteFcrc s k f).slt.mem = s.slt.mem := by
  simp only [noteFcrc]; (repeat' split) <;> simp
@[simp] theorem setLive_core (s : State) (k i : Nat) (f : StLive → StLive) : (setLive s k i f).pending = s.pending ∧ (setLive s k i f).now = s.now ∧ (setLive s k i f).tck.mode = s.tck.mode ∧ (setLive s k i f).slt.mem = s.slt.mem := by
  simp [setLive]
@[simp] theorem markLost_core (s : State) (k i cause : Nat) : (markLost s k i cause).pending = s.pending ∧ (markLost s k i cause).now = s.now ∧ (markLost s k i cause).tck.mode = s.tck.mode ∧ (markLost s k i cause).slt.mem = s.slt.mem := by
  simp only [markLost]; (repeat' split) <;> simp
@[simp] theorem stationValid_core (s : State) (k i : Nat) (status : Byte) : (stationValid s k i status).pending = s.pending ∧ (stationValid s k i status).now = s.now ∧ (stationValid s k i status).tck.mode = s.tck.mode ∧ (stationValid s k i status).slt.mem = s.slt.mem := by
  simp only [stationValid]; (repeat' split) <;> simp
@[simp] theorem deliver_core (s : State) (k m : Nat) (e : Station) (seg : List Byte) : (deliver s k m e seg).pending = s.pending ∧ (deliver s k m e seg).now = s.now ∧ (deliver s k m e seg).tck.mode = s.tck.mode ∧ (deliver s k m e seg).slt.mem = s.slt.mem := by
  simp [deliver]
@[simp] theorem loseMembers_core (s : State) (k : Nat) (path : List Byte) : (loseMembers s k path).pending = s.pending ∧ (loseMembers s k path).now = s.now ∧ (loseMembers s k path).tck.mode = s.tck.mode ∧ (loseMembers s k path).slt.mem = s.slt.mem := by
  simp only [loseMembers]; (repeat' (first | split | apply And.intro | refine foldl_pending_of (fun _ _ => ?_) ?_ | refine foldl_now_of (fun _ _ => ?_) ?_ | refine foldl_mode_of (fun _ _ => ?_) ?_ | refine foldl_mem_of (fun _ _ => ?_) ?_)) <;> simp
@[simp] theorem stationRound_core (s : State) (m k : Nat) (e : Station) (i : Nat) (seg : List Byte) (out : RoundOutcome) : (stationRound s m k e i seg out).pending = s.pending ∧ (stationRound s m k e i seg out).now = s.now ∧ (stationRound s m k e i seg out).tck.mode = s.tck.mode ∧ (stationRound s m k e i seg out).slt.mem = s.slt.mem := by
  simp only [stationRound]; (repeat' split) <;> simp
@[simp] theorem segmentEffect_core (s : State) (m k : Nat) (e : Station) (seg : List Byte) (out : RoundOutcome) : (segmentEffect s m k e seg out).pending = s.pending ∧ (segmentEffect s m k e seg out).now = s.now ∧ (segmentEffect s m k e seg out).tck.mode = s.tck.mode ∧ (segmentEffect s m k e seg out).slt.mem = s.slt.mem := by
  simp only [segmentEffect]; (repeat' split) <;> simp
@[simp] theorem judgeSegment_core (m k : Nat) (t : List Station) (late : Bool) (x0 : Nat) (x1 : State) (x2 : Nat) (x3 : List Byte) : (judgeSegment m k t late x0 x1 x2 x3).pending = x1.pending ∧ (judgeSegment m k t late x0 x1 x2 x3).now = x1.now ∧ (judgeSegment m k t late x0 x1 x2 x3).tck.mode = x1.tck.mode ∧ (judgeSegment m k t late x0 x1 x2 x3).slt.mem = x1.slt.mem := by
  induction x0 generalizing x1 x2 x3 with
  | zero => simp [judgeSegment]
  | succ n ih =>
    unfold judgeSegment
    extract_lets e out s1
    have h1 : s1.pending = x1.pending ∧ s1.now = x1.now ∧ s1.tck.mode = x1.tck.mode ∧ s1.slt.mem = x1.slt.mem := by simp [s1]
    clear_value s1
    split
    · refine ⟨foldl_p1_pending_of (fun _ _ => ?_) h1.1, foldl_p1_now_of (fun _ _ => ?_) h1.2.1, foldl_p1_mode_of (fun _ _ => ?_) h1.2.2.1, foldl_p1_mem_of (fun _ _ => ?_) h1.2.2.2⟩ <;> simp [ih]
    · exact h1
@[simp] theorem judgeRound_core (s : State) (k : Nat) (r : RoundLay) (late : Bool) (body : List Byte) : (judgeRound s k r late body).pending = s.pending ∧ (judgeRound s k r late body).now = s.now ∧ (judgeRound s k r late body).tck.mode = s.tck.mode ∧ (judgeRound s k r late body).slt.mem = s.slt.mem := by
  simp [judgeRound]
@[simp] theorem roundMissing_core (s : State) (k : Nat) : (roundMissing s k).pending = s.pending ∧ (roundMissing s k).now = s.now ∧ (roundMissing s k).tck.mode = s.tck.mode ∧ (roundMissing s k).slt.mem = s.slt.mem := by
  simp only [roundMissing]; (repeat' (first | split | apply And.intro | refine foldl_pending_of (fun _ _ => ?_) ?_ | refine foldl_now_of (fun _ _ => ?_) ?_ | refine foldl_mode_of (fun _ _ => ?_) ?_ | refine foldl_mem_of (fun _ _ => ?_) ?_)) <;> simp
@[simp] theorem judgeEcho_core (s : State) (k : Nat) (f : List Byte) (r : RoundLay) (late : Bool) : (judgeEcho s k f r late).pending = s.pending ∧ (judgeEcho s k f r late).now = s.now ∧ (judgeEcho s k f r late).tck.mode = s.tck.mode ∧ (judgeEcho s k f r late).slt.mem = s.slt.mem := by
  simp only [judgeEcho]; (repeat' split) <;> simp
@[simp] theorem noteRtt_core (s : State) (k : Nat) (f : List Byte) (u : Nat) (rtt : BitVec 16) : (noteRtt s k f u rtt).pending = s.pending ∧ (noteRtt s k f u rtt).now = s.now ∧ (noteRtt s k f u rtt).tck.mode = s.tck.mode ∧ (noteRtt s k f u rtt).slt.mem = s.slt.mem := by
  simp [noteRtt]
@[simp] theorem echoReceived_core (s : State) (k : Nat) (g : RxFrame) (rtt : BitVec 16) : (echoReceived s k g rtt).pending = s.pending ∧ (echoReceived s k g rtt).now = s.now ∧ (echoReceived s k g rtt).tck.mode = s.tck.mode ∧ (echoReceived s k g rtt).slt.mem = s.slt.mem := by
  simp only [echoReceived]; (repeat' split) <;> simp
@[simp] theorem echoMissing_core (s : State) (k : Nat) : (echoMissing s k).pending = s.pending ∧ (echoMissing s k).now = s.now ∧ (echoMissing s k).tck.mode = s.tck.mode ∧ (echoMissing s k).slt.mem = s.slt.mem := by
  simp only [echoMissing]; (repeat' split) <;> simp
@[simp] theorem linkLockLost_core (s : State) (k : Nat) : (linkLockLost s k).pending = s.pending ∧ (linkLockLost s k).now = s.now ∧ (linkLockLost s k).tck.mode = s.tck.mode ∧ (linkLockLost s k).slt.mem = s.slt.mem := by
  simp [linkLockLost]
@[simp] theorem lockGained_core (s : State) (k : Nat) : (lockGained s k).pending = s.pending ∧ (lockGained s k).now = s.now ∧ (lockGained s k).tck.mode = s.tck.mode ∧ (lockGained s k).slt.mem = s.slt.mem := by
  simp [lockGained]
@[simp] theorem linkLockTimeout_core (s : State) (k : Nat) : (linkLockTimeout s k).pending = s.pending ∧ (linkLockTimeout s k).now = s.now ∧ (linkLockTimeout s k).tck.mode = s.tck.mode ∧ (linkLockTimeout s k).slt.mem = s.slt.mem := by
  simp only [linkLockTimeout]; (repeat' split) <;> simp
@[simp] theorem setOrder_core (s : State) (k : Nat) (o : List Byte) : (setOrder s k o).pending = s.pending ∧ (setOrder s k o).now = s.now ∧ (setOrder s k o).tck.mode = s.tck.mode ∧ (setOrder s k o).slt.mem = s.slt.mem := by
  simp only [setOrder]; (repeat' split) <;> simp
@[simp] theorem fieldFrameTurnback_core (s : State) (k : Fin 24) (g : RxFrame) : (fieldFrameTurnback s k g).pending = s.pending ∧ (fieldFrameTurnback s k g).now = s.now ∧ (fieldFrameTurnback s k g).tck.mode = s.tck.mode ∧ (fieldFrameTurnback s k g).slt.mem = s.slt.mem := by
  simp only [fieldFrameTurnback]; (repeat' split) <;> simp
@[simp] theorem higherClaimSeen_core (s : State) (k claim : Nat) : (higherClaimSeen s k claim).pending = s.pending ∧ (higherClaimSeen s k claim).now = s.now ∧ (higherClaimSeen s k claim).tck.mode = s.tck.mode ∧ (higherClaimSeen s k claim).slt.mem = s.slt.mem := by
  simp only [higherClaimSeen]; (repeat' split) <;> simp
@[simp] theorem rollCompare_core (s : State) (k : Nat) (es : List (List Byte)) : (rollCompare s k es).pending = s.pending ∧ (rollCompare s k es).now = s.now ∧ (rollCompare s k es).tck.mode = s.tck.mode ∧ (rollCompare s k es).slt.mem = s.slt.mem := by
  unfold rollCompare
  extract_lets addrs t known dup s1 s2 s3 s4
  have h1 : s1.pending = s.pending ∧ s1.now = s.now ∧ s1.tck.mode = s.tck.mode ∧ s1.slt.mem = s.slt.mem := by
    simp only [s1]
    refine ⟨foldl_pending_of (fun _ _ => ?_) rfl, foldl_now_of (fun _ _ => ?_) rfl, foldl_mode_of (fun _ _ => ?_) rfl, foldl_mem_of (fun _ _ => ?_) rfl⟩ <;> (repeat' split) <;> simp
  have h2 : s2.pending = s1.pending ∧ s2.now = s1.now ∧ s2.tck.mode = s1.tck.mode ∧ s2.slt.mem = s1.slt.mem := by simp [s2]
  have h3 : s3.pending = s2.pending ∧ s3.now = s2.now ∧ s3.tck.mode = s2.tck.mode ∧ s3.slt.mem = s2.slt.mem := by
    simp only [s3]
    refine ⟨foldl_pending_of (fun _ _ => ?_) rfl, foldl_now_of (fun _ _ => ?_) rfl, foldl_mode_of (fun _ _ => ?_) rfl, foldl_mem_of (fun _ _ => ?_) rfl⟩ <;> (repeat' split) <;> simp
  have h4 : s4.pending = s3.pending ∧ s4.now = s3.now ∧ s4.tck.mode = s3.tck.mode ∧ s4.slt.mem = s3.slt.mem := by
    simp only [s4]
    refine ⟨foldl_pending_of (fun _ _ => ?_) rfl, foldl_now_of (fun _ _ => ?_) rfl, foldl_mode_of (fun _ _ => ?_) rfl, foldl_mem_of (fun _ _ => ?_) rfl⟩ <;> (repeat' split) <;> simp
  clear_value s1 s2 s3 s4
  simp [h1, h2, h3, h4]
@[simp] theorem rollLate_core (s : State) (k : Nat) (rtt : BitVec 16) : (rollLate s k rtt).pending = s.pending ∧ (rollLate s k rtt).now = s.now ∧ (rollLate s k rtt).tck.mode = s.tck.mode ∧ (rollLate s k rtt).slt.mem = s.slt.mem := by
  simp [rollLate]
@[simp] theorem rollUp_core (s1 : State) (k : Nat) (es : List (List Byte)) : (rollUp s1 k es).pending = s1.pending ∧ (rollUp s1 k es).now = s1.now ∧ (rollUp s1 k es).tck.mode = s1.tck.mode ∧ (rollUp s1 k es).slt.mem = s1.slt.mem := by
  simp [rollUp]
@[simp] theorem rollAgain_core (s1 : State) (k : Nat) (es : List (List Byte)) (who : List Who) (answer : List Byte) : (rollAgain s1 k es who answer).pending = s1.pending ∧ (rollAgain s1 k es who answer).now = s1.now ∧ (rollAgain s1 k es who answer).tck.mode = s1.tck.mode ∧ (rollAgain s1 k es who answer).slt.mem = s1.slt.mem := by
  simp [rollAgain]
@[simp] theorem rollCallReceived_core (s : State) (k : Nat) (g : RxFrame) (rtt : BitVec 16) : (rollCallReceived s k g rtt).pending = s.pending ∧ (rollCallReceived s k g rtt).now = s.now ∧ (rollCallReceived s k g rtt).tck.mode = s.tck.mode ∧ (rollCallReceived s k g rtt).slt.mem = s.slt.mem := by
  simp only [rollCallReceived]; (repeat' split) <;> simp
@[simp] theorem rollCallRepeat_core (s : State) (k : Nat) : (rollCallRepeat s k).pending = s.pending ∧ (rollCallRepeat s k).now = s.now ∧ (rollCallRepeat s k).tck.mode = s.tck.mode ∧ (rollCallRepeat s k).slt.mem = s.slt.mem := by
  simp only [rollCallRepeat]; (repeat' split) <;> simp
@[simp] theorem bringupNext_core (s : State) (k : Nat) (path : List Byte) : (bringupNext s k path).pending = s.pending ∧ (bringupNext s k path).now = s.now ∧ (bringupNext s k path).tck.mode = s.tck.mode ∧ (bringupNext s k path).slt.mem = s.slt.mem := by
  simp [bringupNext]
@[simp] theorem mapEnd_core (s : State) (k : Nat) (path : List Byte) (res : Option (List Byte)) : (mapEnd s k path res).pending = s.pending ∧ (mapEnd s k path res).now = s.now ∧ (mapEnd s k path res).tck.mode = s.tck.mode ∧ (mapEnd s k path res).slt.mem = s.slt.mem := by
  simp only [mapEnd]; (repeat' split) <;> simp
@[simp] theorem parleyEnd_core (s : State) (k : Nat) (q : Parley) (res : Option (List Byte)) : (parleyEnd s k q res).pending = s.pending ∧ (parleyEnd s k q res).now = s.now ∧ (parleyEnd s k q res).tck.mode = s.tck.mode ∧ (parleyEnd s k q res).slt.mem = s.slt.mem := by
  simp only [parleyEnd]; (repeat' split) <;> simp
@[simp] theorem parleyResponse_core (s : State) (k : Nat) (g : RxFrame) : (parleyResponse s k g).pending = s.pending ∧ (parleyResponse s k g).now = s.now ∧ (parleyResponse s k g).tck.mode = s.tck.mode ∧ (parleyResponse s k g).slt.mem = s.slt.mem := by
  simp only [parleyResponse]; (repeat' split) <;> simp
@[simp] theorem parleyTimeout_core (s : State) (k : Nat) : (parleyTimeout s k).pending = s.pending ∧ (parleyTimeout s k).now = s.now ∧ (parleyTimeout s k).tck.mode = s.tck.mode ∧ (parleyTimeout s k).slt.mem = s.slt.mem := by
  simp only [parleyTimeout]; (repeat' split) <;> simp
@[simp] theorem noticeReceived_core (s : State) (k : Nat) (g : RxFrame) : (noticeReceived s k g).pending = s.pending ∧ (noticeReceived s k g).now = s.now ∧ (noticeReceived s k g).tck.mode = s.tck.mode ∧ (noticeReceived s k g).slt.mem = s.slt.mem := by
  simp only [noticeReceived]; (repeat' split) <;> simp
@[simp] theorem sendParley_core (s : State) (k : Fin 24) : (sendParley s k).pending = s.pending ∧ (sendParley s k).now = s.now ∧ (sendParley s k).tck.mode = s.tck.mode ∧ (sendParley s k).slt.mem = s.slt.mem := by
  simp only [sendParley]; (repeat' split) <;> simp
@[simp] theorem sendRoll_core (s : State) (k : Fin 24) : (sendRoll s k).pending = s.pending ∧ (sendRoll s k).now = s.now ∧ (sendRoll s k).tck.mode = s.tck.mode ∧ (sendRoll s k).slt.mem = s.slt.mem := by
  simp [sendRoll]
@[simp] theorem sendSummon_core (s : State) (k : Fin 24) : (sendSummon s k).pending = s.pending ∧ (sendSummon s k).now = s.now ∧ (sendSummon s k).tck.mode = s.tck.mode ∧ (sendSummon s k).slt.mem = s.slt.mem := by
  simp [sendSummon]
@[simp] theorem linkTick_core (s : State) (k : Nat) : (linkTick s k).pending = s.pending ∧ (linkTick s k).now = s.now ∧ (linkTick s k).tck.mode = s.tck.mode ∧ (linkTick s k).slt.mem = s.slt.mem := by
  simp [linkTick]
@[simp] theorem linkCyclic_core (s : State) (k : Fin 24) : (linkCyclic s k).pending = s.pending ∧ (linkCyclic s k).now = s.now ∧ (linkCyclic s k).tck.mode = s.tck.mode ∧ (linkCyclic s k).slt.mem = s.slt.mem := by
  simp only [linkCyclic]; (repeat' split) <;> simp
@[simp] theorem linkMapping_core (s : State) (k : Fin 24) : (linkMapping s k).pending = s.pending ∧ (linkMapping s k).now = s.now ∧ (linkMapping s k).tck.mode = s.tck.mode ∧ (linkMapping s k).slt.mem = s.slt.mem := by
  simp only [linkMapping]; (repeat' split) <;> simp
@[simp] theorem linkEdge_core (s : State) (k : Fin 24) : (linkEdge s k).pending = s.pending ∧ (linkEdge s k).now = s.now ∧ (linkEdge s k).tck.mode = s.tck.mode ∧ (linkEdge s k).slt.mem = s.slt.mem := by
  simp only [linkEdge]; (repeat' split) <;> simp
@[simp] theorem linksEdge_core (s : State) : (linksEdge s).pending = s.pending ∧ (linksEdge s).now = s.now ∧ (linksEdge s).tck.mode = s.tck.mode := by
  simp [linksEdge]
@[simp] theorem linkQuiet_core (s : State) (k : Nat) : (linkQuiet s k).pending = s.pending ∧ (linkQuiet s k).now = s.now ∧ (linkQuiet s k).tck.mode = s.tck.mode ∧ (linkQuiet s k).slt.mem = s.slt.mem := by
  simp only [linkQuiet]; (repeat' split) <;> simp
@[simp] theorem linksQuiet_core (s : State) : (linksQuiet s).pending = s.pending ∧ (linksQuiet s).now = s.now ∧ (linksQuiet s).tck.mode = s.tck.mode ∧ (linksQuiet s).slt.mem = s.slt.mem := by
  simp [linksQuiet]
@[simp] theorem linksTakeOver_core (s : State) : (linksTakeOver s).pending = s.pending ∧ (linksTakeOver s).now = s.now ∧ (linksTakeOver s).tck.mode = s.tck.mode ∧ (linksTakeOver s).slt.mem = s.slt.mem := by
  simp [linksTakeOver]
@[simp] theorem doLnkTableSet_core (d : List Byte) (w : Who) (s : State) : (doLnkTableSet d w s).pending = s.pending ∧ (doLnkTableSet d w s).now = s.now ∧ (doLnkTableSet d w s).tck.mode = s.tck.mode ∧ (doLnkTableSet d w s).slt.mem = s.slt.mem := by
  simp only [doLnkTableSet]; (repeat' (first | split | apply And.intro | refine refuseOr_core_pending _ _ _ _ (fun _ => ?_) | refine refuseOr_core_now _ _ _ _ (fun _ => ?_) | refine refuseOr_core_mode _ _ _ _ (fun _ => ?_) | refine refuseOr_core_mem _ _ _ _ (fun _ => ?_))) <;> simp
@[simp] theorem doLnkTableGet_core (d : List Byte) (w : Who) (s : State) : (doLnkTableGet d w s).pending = s.pending ∧ (doLnkTableGet d w s).now = s.now ∧ (doLnkTableGet d w s).tck.mode = s.tck.mode ∧ (doLnkTableGet d w s).slt.mem = s.slt.mem := by
  simp [doLnkTableGet]
@[simp] theorem doLnkRollcall_core (d : List Byte) (w : Who) (s : State) : (doLnkRollcall d w s).pending = s.pending ∧ (doLnkRollcall d w s).now = s.now ∧ (doLnkRollcall d w s).tck.mode = s.tck.mode ∧ (doLnkRollcall d w s).slt.mem = s.slt.mem := by
  simp only [doLnkRollcall]; (repeat' (first | split | apply And.intro | refine refuseOr_core_pending _ _ _ _ (fun _ => ?_) | refine refuseOr_core_now _ _ _ _ (fun _ => ?_) | refine refuseOr_core_mode _ _ _ _ (fun _ => ?_) | refine refuseOr_core_mem _ _ _ _ (fun _ => ?_))) <;> simp
@[simp] theorem doLnkParley_core (d : List Byte) (w : Who) (s : State) : (doLnkParley d w s).pending = s.pending ∧ (doLnkParley d w s).now = s.now ∧ (doLnkParley d w s).tck.mode = s.tck.mode ∧ (doLnkParley d w s).slt.mem = s.slt.mem := by
  simp only [doLnkParley]; (repeat' (first | split | apply And.intro | refine refuseOr_core_pending _ _ _ _ (fun _ => ?_) | refine refuseOr_core_now _ _ _ _ (fun _ => ?_) | refine refuseOr_core_mode _ _ _ _ (fun _ => ?_) | refine refuseOr_core_mem _ _ _ _ (fun _ => ?_))) <;> simp
@[simp] theorem doLnkRearm_core (d : List Byte) (w : Who) (s : State) : (doLnkRearm d w s).pending = s.pending ∧ (doLnkRearm d w s).now = s.now ∧ (doLnkRearm d w s).tck.mode = s.tck.mode ∧ (doLnkRearm d w s).slt.mem = s.slt.mem := by
  simp only [doLnkRearm]; (repeat' (first | split | apply And.intro | refine refuseOr_core_pending _ _ _ _ (fun _ => ?_) | refine refuseOr_core_now _ _ _ _ (fun _ => ?_) | refine refuseOr_core_mode _ _ _ _ (fun _ => ?_) | refine refuseOr_core_mem _ _ _ _ (fun _ => ?_))) <;> simp
@[simp] theorem doLnkState_core (d : List Byte) (w : Who) (s : State) : (doLnkState d w s).pending = s.pending ∧ (doLnkState d w s).now = s.now ∧ (doLnkState d w s).tck.mode = s.tck.mode ∧ (doLnkState d w s).slt.mem = s.slt.mem := by
  simp [doLnkState]

/-! ### Apply -/
@[simp] theorem newDomain_core (s : State) : (newDomain s).pending = s.pending ∧ (newDomain s).now = s.now ∧ (newDomain s).tck.mode = s.tck.mode ∧ (newDomain s).slt.mem = s.slt.mem := by
  simp [newDomain]
@[simp] theorem blockApplied_core (s : State) (b : Nat) (old : RegFile) (m : Nat) : (blockApplied s b old m).pending = s.pending ∧ (blockApplied s b old m).now = s.now ∧ (blockApplied s b old m).tck.mode = s.tck.mode ∧ (blockApplied s b old m).slt.mem = s.slt.mem := by
  simp only [blockApplied]; (repeat' split) <;> simp
@[simp] theorem applyFile_core (s : State) (b : Nat) (new : RegFile) (m : Nat) : (applyFile s b new m).pending = s.pending ∧ (applyFile s b new m).now = s.now ∧ (applyFile s b new m).tck.mode = s.tck.mode ∧ (applyFile s b new m).slt.mem = s.slt.mem := by
  simp only [applyFile]; (repeat' split) <;> simp

end Sys2Proof.Machine
end

