-- ==== Sys2Proof/Laws/KeepCarry.lean ====
section
/-! SUPPORT. What the functions of the carry link leave alone, of the queue of commands, the model's time, the mode and slate memory. -/
namespace Sys2Proof.Machine
open Sys2Proof
set_option linter.all false

/-! ### Carry -/
@[simp] theorem seePartner_core (s : State) (c : Nat) : (seePartner s c).pending = s.pending ∧ (seePartner s c).now = s.now ∧ (seePartner s c).tck.mode = s.tck.mode ∧ (seePartner s c).slt.mem = s.slt.mem := by
  simp only [seePartner]; (repeat' split) <;> simp
@[simp] theorem raiseClaim_core (s : State) : (raiseClaim s).pending = s.pending ∧ (raiseClaim s).now = s.now ∧ (raiseClaim s).tck.mode = s.tck.mode ∧ (raiseClaim s).slt.mem = s.slt.mem := by
  simp only [raiseClaim]; (repeat' split) <;> simp
@[simp] theorem dropDelta_core (s : State) : (dropDelta s).pending = s.pending ∧ (dropDelta s).now = s.now ∧ (dropDelta s).tck.mode = s.tck.mode ∧ (dropDelta s).slt.mem = s.slt.mem := by
  simp [dropDelta]
@[simp] theorem refreshReady_core (s : State) : (refreshReady s).pending = s.pending ∧ (refreshReady s).now = s.now ∧ (refreshReady s).tck.mode = s.tck.mode ∧ (refreshReady s).slt.mem = s.slt.mem := by
  simp only [refreshReady]; (repeat' split) <;> simp
@[simp] theorem carryLaneDown_core (s : State) (lane : Fin 8) : (carryLaneDown s lane).pending = s.pending ∧ (carryLaneDown s lane).now = s.now ∧ (carryLaneDown s lane).tck.mode = s.tck.mode ∧ (carryLaneDown s lane).slt.mem = s.slt.mem := by
  simp only [carryLaneDown]; (repeat' split) <;> simp
@[simp] theorem carryLinkUp_core (s : State) (k : Bool) : (carryLinkUp s k).pending = s.pending ∧ (carryLinkUp s k).now = s.now ∧ (carryLinkUp s k).tck.mode = s.tck.mode ∧ (carryLinkUp s k).slt.mem = s.slt.mem := by
  simp only [carryLinkUp]; (repeat' split) <;> simp
@[simp] theorem sendRecords_core (x0 : Nat) (x1 : State) (x2 : List Nat) : (sendRecords x0 x1 x2).pending = x1.pending ∧ (sendRecords x0 x1 x2).now = x1.now ∧ (sendRecords x0 x1 x2).tck.mode = x1.tck.mode ∧ (sendRecords x0 x1 x2).slt.mem = x1.slt.mem := by
  induction x0 generalizing x1 x2 with
  | zero => simp [sendRecords]
  | succ n ih => cases x2 with
    | nil => simp [sendRecords]
    | cons a l => unfold sendRecords; dsimp only; simp [ih]
@[simp] theorem sendAll_core (s : State) (rs : List Nat) : (sendAll s rs).pending = s.pending ∧ (sendAll s rs).now = s.now ∧ (sendAll s rs).tck.mode = s.tck.mode ∧ (sendAll s rs).slt.mem = s.slt.mem := by
  simp [sendAll]
@[simp] theorem flushDelta_core (s : State) : (flushDelta s).pending = s.pending ∧ (flushDelta s).now = s.now ∧ (flushDelta s).tck.mode = s.tck.mode ∧ (flushDelta s).slt.mem = s.slt.mem := by
  simp [flushDelta]
@[simp] theorem switchFlag_core (s : State) : (switchFlag s).2.pending = s.pending ∧ (switchFlag s).2.now = s.now ∧ (switchFlag s).2.tck.mode = s.tck.mode ∧ (switchFlag s).2.slt.mem = s.slt.mem := by
  simp only [switchFlag]; (repeat' split) <;> simp
@[simp] theorem sendSeal_core (s : State) : (sendSeal s).pending = s.pending ∧ (sendSeal s).now = s.now ∧ (sendSeal s).tck.mode = s.tck.mode ∧ (sendSeal s).slt.mem = s.slt.mem := by
  simp only [sendSeal]; (repeat' split) <;> simp
@[simp] theorem startBulk_core (s : State) : (startBulk s).pending = s.pending ∧ (startBulk s).now = s.now ∧ (startBulk s).tck.mode = s.tck.mode ∧ (startBulk s).slt.mem = s.slt.mem := by
  simp [startBulk]
@[simp] theorem bulkPlace_core (s : State) : (bulkPlace s).pending = s.pending ∧ (bulkPlace s).now = s.now ∧ (bulkPlace s).tck.mode = s.tck.mode ∧ (bulkPlace s).slt.mem = s.slt.mem := by
  simp only [bulkPlace]; (repeat' split) <;> simp
@[simp] theorem sealSend_core (s : State) : (sealSend s).pending = s.pending ∧ (sealSend s).now = s.now ∧ (sealSend s).tck.mode = s.tck.mode ∧ (sealSend s).slt.mem = s.slt.mem := by
  simp only [sealSend]; (repeat' split) <;> simp
@[simp] theorem sealOverflow_core (s : State) : (sealOverflow s).pending = s.pending ∧ (sealOverflow s).now = s.now ∧ (sealOverflow s).tck.mode = s.tck.mode ∧ (sealOverflow s).slt.mem = s.slt.mem := by
  simp only [sealOverflow]; (repeat' split) <;> simp
@[simp] theorem countCrc_core (s : State) (lane : Fin 8) : (countCrc s lane).pending = s.pending ∧ (countCrc s lane).now = s.now ∧ (countCrc s lane).tck.mode = s.tck.mode ∧ (countCrc s lane).slt.mem = s.slt.mem := by
  simp only [countCrc]; (repeat' split) <;> simp
@[simp] theorem carryRx_core_pending (s : State) (lane : Fin 8) (f : List Byte) (types : List Nat) (k : State → State) (h0 : ∀ (y0 : State), (k y0).pending = y0.pending) : (carryRx s lane f types k).pending = s.pending := by
  simp only [carryRx]; (repeat' split) <;> simp [*]
@[simp] theorem carryRx_core_now (s : State) (lane : Fin 8) (f : List Byte) (types : List Nat) (k : State → State) (h0 : ∀ (y0 : State), (k y0).now = y0.now) : (carryRx s lane f types k).now = s.now := by
  simp only [carryRx]; (repeat' split) <;> simp [*]
@[simp] theorem carryRx_core_mode (s : State) (lane : Fin 8) (f : List Byte) (types : List Nat) (k : State → State) (h0 : ∀ (y0 : State), (k y0).tck.mode = y0.tck.mode) : (carryRx s lane f types k).tck.mode = s.tck.mode := by
  simp only [carryRx]; (repeat' split) <;> simp [*]
@[simp] theorem carryRx_core_mem (s : State) (lane : Fin 8) (f : List Byte) (types : List Nat) (k : State → State) (h0 : ∀ (y0 : State), (k y0).slt.mem = y0.slt.mem) : (carryRx s lane f types k).slt.mem = s.slt.mem := by
  simp only [carryRx]; (repeat' split) <;> simp [*]
@[simp] theorem startSync_core (s : State) : (startSync s).pending = s.pending ∧ (startSync s).now = s.now ∧ (startSync s).tck.mode = s.tck.mode ∧ (startSync s).slt.mem = s.slt.mem := by
  simp [startSync]
@[simp] theorem overflowAt_core (s : State) (tick case' : Nat) : (overflowAt s tick case').pending = s.pending ∧ (overflowAt s tick case').now = s.now ∧ (overflowAt s tick case').tck.mode = s.tck.mode ∧ (overflowAt s tick case').slt.mem = s.slt.mem := by
  simp [overflowAt]
@[simp] theorem bulkOuts_core (s : State) (ofs : Nat) (d : List Byte) : (bulkOuts s ofs d).pending = s.pending ∧ (bulkOuts s ofs d).now = s.now ∧ (bulkOuts s ofs d).tck.mode = s.tck.mode ∧ (bulkOuts s ofs d).slt.mem = s.slt.mem := by
  simp only [bulkOuts]; (repeat' (first | split | apply And.intro | refine foldl_pending_of (fun _ _ => ?_) ?_ | refine foldl_now_of (fun _ _ => ?_) ?_ | refine foldl_mode_of (fun _ _ => ?_) ?_ | refine foldl_mem_of (fun _ _ => ?_) ?_)) <;> simp
@[simp] theorem bulkData_core (s : State) (dram : Bool) (ofs : Nat) (d : List Byte) : (bulkData s dram ofs d).pending = s.pending ∧ (bulkData s dram ofs d).now = s.now ∧ (bulkData s dram ofs d).tck.mode = s.tck.mode ∧ (bulkData s dram ofs d).slt.mem = s.slt.mem := by
  simp only [bulkData]; (repeat' (first | split | apply And.intro | refine foldl_pending_of (fun _ _ => ?_) ?_ | refine foldl_now_of (fun _ _ => ?_) ?_ | refine foldl_mode_of (fun _ _ => ?_) ?_ | refine foldl_mem_of (fun _ _ => ?_) ?_)) <;> simp
@[simp] theorem takeCopy_core (s : State) (b kind : Nat) (d : List Byte) : (takeCopy s b kind d).pending = s.pending ∧ (takeCopy s b kind d).now = s.now ∧ (takeCopy s b kind d).tck.mode = s.tck.mode ∧ (takeCopy s b kind d).slt.mem = s.slt.mem := by
  simp only [takeCopy]; (repeat' split) <;> simp
@[simp] theorem bulkBank_core (s : State) (b : BankId) (d : List Byte) : (bulkBank s b d).pending = s.pending ∧ (bulkBank s b d).now = s.now ∧ (bulkBank s b d).tck.mode = s.tck.mode ∧ (bulkBank s b d).slt.mem = s.slt.mem := by
  simp only [bulkBank]; (repeat' split) <;> simp
@[simp] theorem syncChange_core (s : State) : (syncChange s).pending = s.pending ∧ (syncChange s).now = s.now ∧ (syncChange s).tck.mode = s.tck.mode ∧ (syncChange s).slt.mem = s.slt.mem := by
  simp only [syncChange]; (repeat' split) <;> simp
@[simp] theorem areaDone_core (s : State) (a : Nat) : (areaDone s a).pending = s.pending ∧ (areaDone s a).now = s.now ∧ (areaDone s a).tck.mode = s.tck.mode ∧ (areaDone s a).slt.mem = s.slt.mem := by
  simp only [areaDone]; (repeat' (first | split | apply And.intro | refine foldl_pending_of (fun _ _ => ?_) ?_ | refine foldl_now_of (fun _ _ => ?_) ?_ | refine foldl_mode_of (fun _ _ => ?_) ?_ | refine foldl_mem_of (fun _ _ => ?_) ?_)) <;> simp
@[simp] theorem bulkWords_core (s : State) (a ofs : Nat) (d : List Byte) : (bulkWords s a ofs d).pending = s.pending ∧ (bulkWords s a ofs d).now = s.now ∧ (bulkWords s a ofs d).tck.mode = s.tck.mode ∧ (bulkWords s a ofs d).slt.mem = s.slt.mem := by
  simp only [bulkWords]; (repeat' split) <;> simp
@[simp] theorem bulkArea_core (s : State) (a : Nat) : (bulkArea s a).pending = s.pending ∧ (bulkArea s a).now = s.now ∧ (bulkArea s a).tck.mode = s.tck.mode ∧ (bulkArea s a).slt.mem = s.slt.mem := by
  simp only [bulkArea]; (repeat' (first | split | apply And.intro | refine foldl_pending_of (fun _ _ => ?_) ?_ | refine foldl_now_of (fun _ _ => ?_) ?_ | refine foldl_mode_of (fun _ _ => ?_) ?_ | refine foldl_mem_of (fun _ _ => ?_) ?_)) <;> simp
@[simp] theorem bulkVolume_core (s : State) (a ofs : Nat) (d : List Byte) : (bulkVolume s a ofs d).pending = s.pending ∧ (bulkVolume s a ofs d).now = s.now ∧ (bulkVolume s a ofs d).tck.mode = s.tck.mode ∧ (bulkVolume s a ofs d).slt.mem = s.slt.mem := by
  simp only [bulkVolume]; (repeat' split) <;> simp
@[simp] theorem bulkProgress_core (s : State) : (bulkProgress s).pending = s.pending ∧ (bulkProgress s).now = s.now ∧ (bulkProgress s).tck.mode = s.tck.mode ∧ (bulkProgress s).slt.mem = s.slt.mem := by
  simp [bulkProgress]
@[simp] theorem applyBulk_core (s : State) (a ofs : Nat) (d : List Byte) : (applyBulk s a ofs d).pending = s.pending ∧ (applyBulk s a ofs d).now = s.now ∧ (applyBulk s a ofs d).tck.mode = s.tck.mode ∧ (applyBulk s a ofs d).slt.mem = s.slt.mem := by
  simp only [applyBulk]; (repeat' (first | split | apply And.intro | refine foldl_pending_of (fun _ _ => ?_) ?_ | refine foldl_now_of (fun _ _ => ?_) ?_ | refine foldl_mode_of (fun _ _ => ?_) ?_ | refine foldl_mem_of (fun _ _ => ?_) ?_)) <;> simp
@[simp] theorem endSync_core (s : State) : (endSync s).pending = s.pending ∧ (endSync s).now = s.now ∧ (endSync s).tck.mode = s.tck.mode ∧ (endSync s).slt.mem = s.slt.mem := by
  simp only [endSync]; (repeat' split) <;> simp
@[simp] theorem markCatchUp_core (s : State) (seg ofs : Nat) : (markCatchUp s seg ofs).pending = s.pending ∧ (markCatchUp s seg ofs).now = s.now ∧ (markCatchUp s seg ofs).tck.mode = s.tck.mode ∧ (markCatchUp s seg ofs).slt.mem = s.slt.mem := by
  simp only [markCatchUp]; (repeat' split) <;> simp
@[simp] theorem deltaWord_core (s : State) (late : Option BankId) (seg ofs : Nat) (v : Word) : (deltaWord s late seg ofs v).pending = s.pending ∧ (deltaWord s late seg ofs v).now = s.now ∧ (deltaWord s late seg ofs v).tck.mode = s.tck.mode ∧ (deltaWord s late seg ofs v).slt.mem = s.slt.mem := by
  simp only [deltaWord]; (repeat' split) <;> simp
@[simp] theorem deltaOut_core (s : State) (p : Nat) (v : Word) : (deltaOut s p v).pending = s.pending ∧ (deltaOut s p v).now = s.now ∧ (deltaOut s p v).tck.mode = s.tck.mode ∧ (deltaOut s p v).slt.mem = s.slt.mem := by
  simp only [deltaOut]; (repeat' split) <;> simp
theorem applyRecords_core (late : Option BankId) (n : Nat) (rs : List Nat) (s t : State) (h : applyRecords late n rs s = some t) : t.pending = s.pending ∧ t.now = s.now ∧ t.tck.mode = s.tck.mode ∧ t.slt.mem = s.slt.mem := by
  induction n generalizing rs s with
  | zero => simp only [applyRecords, Option.some.injEq] at h; subst h; simp
  | succ n ih =>
    unfold applyRecords at h
    cases rs with
    | nil => simp only [Option.some.injEq] at h; subst h; simp
    | cons r rest =>
      dsimp only at h
      split at h
      · exact ih _ _ h
      · have := ih _ _ h; simpa using this
      · have := ih _ _ h
        refine ⟨this.1.trans (foldl_pending_of (fun _ _ => ?_) rfl), this.2.1.trans (foldl_now_of (fun _ _ => ?_) rfl), this.2.2.1.trans (foldl_mode_of (fun _ _ => ?_) rfl), this.2.2.2.trans (foldl_mem_of (fun _ _ => ?_) rfl)⟩ <;> (repeat' split) <;> simp
      · have := ih _ _ h; simpa using this
      · have := ih _ _ h
        refine ⟨this.1.trans (foldl_p1_pending_of (fun _ _ => ?_) rfl), this.2.1.trans (foldl_p1_now_of (fun _ _ => ?_) rfl), this.2.2.1.trans (foldl_p1_mode_of (fun _ _ => ?_) rfl), this.2.2.2.trans (foldl_p1_mem_of (fun _ _ => ?_) rfl)⟩ <;> simp
      · have := ih _ _ h; simpa using this
      · exact absurd h (by simp)
@[simp] theorem dropFrames_core (s : State) (x : Seal) : (dropFrames s x).pending = s.pending ∧ (dropFrames s x).now = s.now ∧ (dropFrames s x).tck.mode = s.tck.mode ∧ (dropFrames s x).slt.mem = s.slt.mem := by
  simp [dropFrames]
@[simp] theorem takeSwap_core (s : State) (x : Seal) : (takeSwap s x).pending = s.pending ∧ (takeSwap s x).now = s.now ∧ (takeSwap s x).tck.mode = s.tck.mode ∧ (takeSwap s x).slt.mem = s.slt.mem := by
  simp only [takeSwap]; (repeat' split) <;> simp
@[simp] theorem sealSays_core (s : State) (x : Seal) : (sealSays s x).pending = s.pending ∧ (sealSays s x).now = s.now ∧ (sealSays s x).tck.mode = s.tck.mode ∧ (sealSays s x).slt.mem = s.slt.mem := by
  simp only [sealSays]; (repeat' split) <;> simp
@[simp] theorem catchUpEnds_core (s : State) (x : Seal) : (catchUpEnds s x).pending = s.pending ∧ (catchUpEnds s x).now = s.now ∧ (catchUpEnds s x).tck.mode = s.tck.mode ∧ (catchUpEnds s x).slt.mem = s.slt.mem := by
  simp only [catchUpEnds]; (repeat' split) <;> simp
@[simp] theorem overflowBefore_core (s : State) (y : Seal) : (overflowBefore s y).pending = s.pending ∧ (overflowBefore s y).now = s.now ∧ (overflowBefore s y).tck.mode = s.tck.mode ∧ (overflowBefore s y).slt.mem = s.slt.mem := by
  simp only [overflowBefore]; (repeat' (first | split | apply And.intro | refine foldl_pending_of (fun _ _ => ?_) ?_ | refine foldl_now_of (fun _ _ => ?_) ?_ | refine foldl_mode_of (fun _ _ => ?_) ?_ | refine foldl_mem_of (fun _ _ => ?_) ?_)) <;> simp
@[simp] theorem applySeal_core (s : State) (x : Seal) : (applySeal s x).pending = s.pending ∧ (applySeal s x).now = s.now ∧ (applySeal s x).tck.mode = s.tck.mode ∧ (applySeal s x).slt.mem = s.slt.mem := by
  unfold applySeal
  extract_lets bytes t0 t c
  have h0 : t.pending = s.pending ∧ t.now = s.now ∧ t.tck.mode = s.tck.mode ∧ t.slt.mem = s.slt.mem := by simp [t, t0]
  clear_value t bytes
  split
  · simp [c, h0]
  · split
    · rename_i u hu
      have h1 : u.pending = s.pending ∧ u.now = s.now ∧ u.tck.mode = s.tck.mode ∧ u.slt.mem = s.slt.mem := by
        split at hu
        · cases hu
        · have := applyRecords_core _ _ _ _ _ hu; simp [this, h0]
      simp [h1]
    · simp [h0]
@[simp] theorem takeControl_core (s : State) (f : List Byte) : (takeControl s f).pending = s.pending ∧ (takeControl s f).now = s.now ∧ (takeControl s f).tck.mode = s.tck.mode ∧ (takeControl s f).slt.mem = s.slt.mem := by
  simp only [takeControl]; (repeat' split) <;> simp
@[simp] theorem takeFrame_core (s : State) (n : Nat) (f : List Byte) : (takeFrame s n f).pending = s.pending ∧ (takeFrame s n f).now = s.now ∧ (takeFrame s n f).tck.mode = s.tck.mode ∧ (takeFrame s n f).slt.mem = s.slt.mem := by
  simp only [takeFrame]; (repeat' split) <;> simp
@[simp] theorem skipTo_core (s : State) (n : Nat) (y : Seal) : (skipTo s n y).pending = s.pending ∧ (skipTo s n y).now = s.now ∧ (skipTo s n y).tck.mode = s.tck.mode ∧ (skipTo s n y).slt.mem = s.slt.mem := by
  simp only [skipTo]; (repeat' split) <;> simp
@[simp] theorem takeFrames_core (x0 : Nat) (x1 : State) : (takeFrames x0 x1).pending = x1.pending ∧ (takeFrames x0 x1).now = x1.now ∧ (takeFrames x0 x1).tck.mode = x1.tck.mode ∧ (takeFrames x0 x1).slt.mem = x1.slt.mem := by
  induction x0 generalizing x1 with
  | zero => simp [takeFrames]
  | succ n ih => unfold takeFrames; split; (· simp); split; (· rw [(ih _).1, (ih _).2.1, (ih _).2.2.1, (ih _).2.2.2]; simp); split; (· rw [(ih _).1, (ih _).2.1, (ih _).2.2.1, (ih _).2.2.2]; simp); simp
@[simp] theorem sendNaks_core (x0 : Nat) (x1 : List Nat) (x2 : State) : (sendNaks x0 x1 x2).pending = x2.pending ∧ (sendNaks x0 x1 x2).now = x2.now ∧ (sendNaks x0 x1 x2).tck.mode = x2.tck.mode ∧ (sendNaks x0 x1 x2).slt.mem = x2.slt.mem := by
  induction x0 generalizing x1 x2 with
  | zero => simp [sendNaks]
  | succ n ih => unfold sendNaks; split <;> simp [ih]
@[simp] theorem sealArrived_core (s : State) (f : List Byte) : (sealArrived s f).pending = s.pending ∧ (sealArrived s f).now = s.now ∧ (sealArrived s f).tck.mode = s.tck.mode ∧ (sealArrived s f).slt.mem = s.slt.mem := by
  simp only [sealArrived]; (repeat' split) <;> simp
@[simp] theorem rxPlace_core (s : State) (f : List Byte) (gap : List Nat) : (rxPlace s f gap).pending = s.pending ∧ (rxPlace s f gap).now = s.now ∧ (rxPlace s f gap).tck.mode = s.tck.mode ∧ (rxPlace s f gap).slt.mem = s.slt.mem := by
  simp [rxPlace]
@[simp] theorem rxSequenced_core (f : List Byte) (s : State) : (rxSequenced f s).pending = s.pending ∧ (rxSequenced f s).now = s.now ∧ (rxSequenced f s).tck.mode = s.tck.mode ∧ (rxSequenced f s).slt.mem = s.slt.mem := by
  simp only [rxSequenced]; (repeat' split) <;> simp
@[simp] theorem nakReceived_core (f : List Byte) (s : State) : (nakReceived f s).pending = s.pending ∧ (nakReceived f s).now = s.now ∧ (nakReceived f s).tck.mode = s.tck.mode ∧ (nakReceived f s).slt.mem = s.slt.mem := by
  unfold nakReceived
  split
  · simp
  · extract_lets p names held s1
    have h1 : s1.pending = s.pending ∧ s1.now = s.now ∧ s1.tck.mode = s.tck.mode ∧ s1.slt.mem = s.slt.mem := by
      simp only [s1]
      refine ⟨foldl_pending_of (fun _ _ => ?_) rfl, foldl_now_of (fun _ _ => ?_) rfl, foldl_mode_of (fun _ _ => ?_) rfl, foldl_mem_of (fun _ _ => ?_) rfl⟩ <;> (repeat' split) <;> simp
    clear_value s1
    split <;> simp [h1]
@[simp] theorem heartbeatSend_core (s : State) : (heartbeatSend s).pending = s.pending ∧ (heartbeatSend s).now = s.now ∧ (heartbeatSend s).tck.mode = s.tck.mode := by
  simp only [heartbeatSend]; (repeat' split) <;> simp
@[simp] theorem followStandby_core (s : State) (wasSyncing skipped : Bool) : (followStandby s wasSyncing skipped).pending = s.pending ∧ (followStandby s wasSyncing skipped).now = s.now ∧ (followStandby s wasSyncing skipped).tck.mode = s.tck.mode ∧ (followStandby s wasSyncing skipped).slt.mem = s.slt.mem := by
  simp only [followStandby]; (repeat' split) <;> simp
@[simp] theorem placeEdge_core (s : State) (f : List Byte) : (placeEdge s f).pending = s.pending ∧ (placeEdge s f).now = s.now ∧ (placeEdge s f).tck.mode = s.tck.mode ∧ (placeEdge s f).slt.mem = s.slt.mem := by
  simp only [placeEdge]; (repeat' split) <;> simp
@[simp] theorem heartbeatReceived_core (f : List Byte) (s : State) : (heartbeatReceived f s).pending = s.pending ∧ (heartbeatReceived f s).now = s.now ∧ (heartbeatReceived f s).tck.mode = s.tck.mode ∧ (heartbeatReceived f s).slt.mem = s.slt.mem := by
  simp only [heartbeatReceived]; (repeat' split) <;> simp
@[simp] theorem partnerGone_core (s : State) : (partnerGone s).pending = s.pending ∧ (partnerGone s).now = s.now ∧ (partnerGone s).tck.mode = s.tck.mode ∧ (partnerGone s).slt.mem = s.slt.mem := by
  simp [partnerGone]
@[simp] theorem losePartner_core (s : State) (cause reason : Nat) (kind : Option Nat) : (losePartner s cause reason kind).pending = s.pending ∧ (losePartner s cause reason kind).now = s.now ∧ (losePartner s cause reason kind).tck.mode = s.tck.mode ∧ (losePartner s cause reason kind).slt.mem = s.slt.mem := by
  simp only [losePartner]; (repeat' split) <;> simp
@[simp] theorem partnerLost_core (s : State) : (partnerLost s).pending = s.pending ∧ (partnerLost s).now = s.now ∧ (partnerLost s).tck.mode = s.tck.mode ∧ (partnerLost s).slt.mem = s.slt.mem := by
  simp only [partnerLost]; (repeat' split) <;> simp
@[simp] theorem faultFrame_core (f : List Byte) (s : State) : (faultFrame f s).pending = s.pending ∧ (faultFrame f s).now = s.now ∧ (faultFrame f s).tck.mode = s.tck.mode ∧ (faultFrame f s).slt.mem = s.slt.mem := by
  simp only [faultFrame]; (repeat' split) <;> simp
@[simp] theorem takeHealth_core (s : State) (h : List Byte) (tick : Nat) : (takeHealth s h tick).pending = s.pending ∧ (takeHealth s h tick).now = s.now ∧ (takeHealth s h tick).tck.mode = s.tck.mode ∧ (takeHealth s h tick).slt.mem = s.slt.mem := by
  simp only [takeHealth]; (repeat' split) <;> simp
@[simp] theorem healthSend_core (s : State) : (healthSend s).pending = s.pending ∧ (healthSend s).now = s.now ∧ (healthSend s).tck.mode = s.tck.mode ∧ (healthSend s).slt.mem = s.slt.mem := by
  simp only [healthSend]; (repeat' split) <;> simp
@[simp] theorem healthReceived_core (f : List Byte) (s : State) : (healthReceived f s).pending = s.pending ∧ (healthReceived f s).now = s.now ∧ (healthReceived f s).tck.mode = s.tck.mode ∧ (healthReceived f s).slt.mem = s.slt.mem := by
  simp only [healthReceived]; (repeat' split) <;> simp
@[simp] theorem selftestCorrection_core (s : State) (i : Nat) : (selftestCorrection s i).pending = s.pending ∧ (selftestCorrection s i).now = s.now ∧ (selftestCorrection s i).tck.mode = s.tck.mode ∧ (selftestCorrection s i).slt.mem = s.slt.mem := by
  simp only [selftestCorrection]; (repeat' split) <;> simp
@[simp] theorem selftestItem_core (s : State) (passed : Bool) (n : BitVec 16) : (selftestItem s passed n).pending = s.pending ∧ (selftestItem s passed n).now = s.now ∧ (selftestItem s passed n).tck.mode = s.tck.mode ∧ (selftestItem s passed n).slt.mem = s.slt.mem := by
  simp only [selftestItem]; (repeat' (first | split | apply And.intro | refine foldl_pending_of (fun _ _ => ?_) ?_ | refine foldl_now_of (fun _ _ => ?_) ?_ | refine foldl_mode_of (fun _ _ => ?_) ?_ | refine foldl_mem_of (fun _ _ => ?_) ?_)) <;> simp
@[simp] theorem verdictEnd_core (s : State) (b : BankId) : (verdictEnd s b).pending = s.pending ∧ (verdictEnd s b).now = s.now ∧ (verdictEnd s b).tck.mode = s.tck.mode ∧ (verdictEnd s b).slt.mem = s.slt.mem := by
  simp only [verdictEnd]; (repeat' split) <;> simp
@[simp] theorem doSwitchover_core (d : List Byte) (w : Who) (s : State) : (doSwitchover d w s).pending = s.pending ∧ (doSwitchover d w s).now = s.now ∧ (doSwitchover d w s).tck.mode = s.tck.mode ∧ (doSwitchover d w s).slt.mem = s.slt.mem := by
  simp [doSwitchover]
@[simp] theorem doResync_core (d : List Byte) (w : Who) (s : State) : (doResync d w s).pending = s.pending ∧ (doResync d w s).now = s.now ∧ (doResync d w s).tck.mode = s.tck.mode ∧ (doResync d w s).slt.mem = s.slt.mem := by
  simp [doResync]
@[simp] theorem doHealthGet_core (d : List Byte) (w : Who) (s : State) : (doHealthGet d w s).pending = s.pending ∧ (doHealthGet d w s).now = s.now ∧ (doHealthGet d w s).tck.mode = s.tck.mode ∧ (doHealthGet d w s).slt.mem = s.slt.mem := by
  simp [doHealthGet]
@[simp] theorem lineBuild_core (s : State) : (lineBuild s).pending = s.pending ∧ (lineBuild s).now = s.now ∧ (lineBuild s).tck.mode = s.tck.mode ∧ (lineBuild s).slt.mem = s.slt.mem := by
  simp only [lineBuild]; (repeat' split) <;> simp

end Sys2Proof.Machine
end

