-- ==== Sys2Proof/Laws/KeepHost.lean ====
section
/-! SUPPORT. What the functions of registers, the host, the edge leave alone, of the queue of commands, the model's time, the mode and slate memory. -/
namespace Sys2Proof.Machine
open Sys2Proof
set_option linter.all false

/-! ### Regs -/
@[simp] theorem clearOnes_core (s : State) (b ofs : Nat) (v : Dword) : (clearOnes s b ofs v).pending = s.pending ∧ (clearOnes s b ofs v).now = s.now ∧ (clearOnes s b ofs v).tck.mode = s.tck.mode ∧ (clearOnes s b ofs v).slt.mem = s.slt.mem := by
  simp only [clearOnes]; (repeat' split) <;> simp
@[simp] theorem clearPort_core (s : State) (p : Port) (ofs : Nat) (v : Dword) : (clearPort s p ofs v).pending = s.pending ∧ (clearPort s p ofs v).now = s.now ∧ (clearPort s p ofs v).tck.mode = s.tck.mode ∧ (clearPort s p ofs v).slt.mem = s.slt.mem := by
  simp only [clearPort]; (repeat' split) <;> simp
@[simp] theorem clearRc_core (s : State) (p : Port) (b ofs : Nat) : (clearRc s p b ofs).pending = s.pending ∧ (clearRc s p b ofs).now = s.now ∧ (clearRc s p b ofs).tck.mode = s.tck.mode ∧ (clearRc s p b ofs).slt.mem = s.slt.mem := by
  simp only [clearRc]; (repeat' split) <;> simp

/-! ### Host -/
@[simp] theorem diagGood_core (s : State) : (diagGood s).pending = s.pending ∧ (diagGood s).now = s.now ∧ (diagGood s).tck.mode = s.tck.mode ∧ (diagGood s).slt.mem = s.slt.mem := by
  simp only [diagGood]; (repeat' split) <;> simp
@[simp] theorem viewWrite_core (s : State) (p : Port) (b : Nat) (on : Bool) : (viewWrite s p b on).pending = s.pending ∧ (viewWrite s p b on).now = s.now ∧ (viewWrite s p b on).tck.mode = s.tck.mode ∧ (viewWrite s p b on).slt.mem = s.slt.mem := by
  simp [viewWrite]
@[simp] theorem setReason_core (s : State) (b c : Nat) : (setReason s b c).pending = s.pending ∧ (setReason s b c).now = s.now ∧ (setReason s b c).tck.mode = s.tck.mode ∧ (setReason s b c).slt.mem = s.slt.mem := by
  simp [setReason]
@[simp] theorem commitBlock_core (s : State) (b : Nat) : (commitBlock s b).pending = s.pending ∧ (commitBlock s b).now = s.now ∧ (commitBlock s b).tck.mode = s.tck.mode ∧ (commitBlock s b).slt.mem = s.slt.mem := by
  simp only [commitBlock]; (repeat' split) <;> simp
@[simp] theorem forwardField_core (s : State) (b o : Nat) (v : Dword) : (forwardField s b o v).pending = s.pending ∧ (forwardField s b o v).now = s.now ∧ (forwardField s b o v).tck.mode = s.tck.mode ∧ (forwardField s b o v).slt.mem = s.slt.mem := by
  simp only [forwardField]; (repeat' split) <;> simp
@[simp] theorem commitWrite_core (s : State) (b : Nat) (v : Dword) : (commitWrite s b v).pending = s.pending ∧ (commitWrite s b v).now = s.now ∧ (commitWrite s b v).tck.mode = s.tck.mode ∧ (commitWrite s b v).slt.mem = s.slt.mem := by
  simp only [commitWrite]; (repeat' split) <;> simp
@[simp] theorem fieldWrite_core (s : State) (b o : Nat) (v : Dword) (d : RegDef) : (fieldWrite s b o v d).pending = s.pending ∧ (fieldWrite s b o v d).now = s.now ∧ (fieldWrite s b o v d).tck.mode = s.tck.mode := by
  simp only [fieldWrite]; (repeat' split) <;> simp
@[simp] theorem blockWrite_core (s : State) (p : Port) (b o : Nat) (v : Dword) : (blockWrite s p b o v).pending = s.pending ∧ (blockWrite s p b o v).now = s.now ∧ (blockWrite s p b o v).tck.mode = s.tck.mode := by
  simp only [blockWrite]; (repeat' split) <;> simp
@[simp] theorem setSem_core (s : State) (k : Fin 64) (o : Option SemOwner) : (setSem s k o).pending = s.pending ∧ (setSem s k o).now = s.now ∧ (setSem s k o).tck.mode = s.tck.mode ∧ (setSem s k o).slt.mem = s.slt.mem := by
  simp [setSem]
@[simp] theorem semReadOne_core (s : State) (p : Port) (k : Fin 64) : (semReadOne s p k).pending = s.pending ∧ (semReadOne s p k).now = s.now ∧ (semReadOne s p k).tck.mode = s.tck.mode ∧ (semReadOne s p k).slt.mem = s.slt.mem := by
  simp only [semReadOne]; (repeat' split) <;> simp
@[simp] theorem semRead_core (s : State) (p : Port) (k : Fin 64) (tie : Bool) : (semRead s p k tie).pending = s.pending ∧ (semRead s p k tie).now = s.now ∧ (semRead s p k tie).tck.mode = s.tck.mode ∧ (semRead s p k tie).slt.mem = s.slt.mem := by
  simp only [semRead]; (repeat' split) <;> simp
@[simp] theorem semWrite_core (s : State) (p : Port) (k : Fin 64) : (semWrite s p k).pending = s.pending ∧ (semWrite s p k).now = s.now ∧ (semWrite s p k).tck.mode = s.tck.mode ∧ (semWrite s p k).slt.mem = s.slt.mem := by
  simp only [semWrite]; (repeat' split) <;> simp
@[simp] theorem portWrite_core (s : State) (p : Port) (o : Nat) (v : Dword) : (portWrite s p o v).pending = s.pending ∧ (portWrite s p o v).now = s.now ∧ (portWrite s p o v).tck.mode = s.tck.mode ∧ (portWrite s p o v).slt.mem = s.slt.mem := by
  simp only [portWrite]; (repeat' split) <;> simp
@[simp] theorem badAccess_core (s : State) (p : Port) (read : Bool) : (badAccess s p read).pending = s.pending ∧ (badAccess s p read).now = s.now ∧ (badAccess s p read).tck.mode = s.tck.mode ∧ (badAccess s p read).slt.mem = s.slt.mem := by
  simp only [badAccess]; (repeat' split) <;> simp
@[simp] theorem barWrite_core (s : State) (p : Port) (ofs : BitVec 20) (v : Dword) : (barWrite s p ofs v).pending = s.pending ∧ (barWrite s p ofs v).now = s.now := by
  simp only [barWrite]; (repeat' split) <;> simp
@[simp] theorem tickLoRead_core (s : State) (p : Port) : (tickLoRead s p).pending = s.pending ∧ (tickLoRead s p).now = s.now ∧ (tickLoRead s p).tck.mode = s.tck.mode ∧ (tickLoRead s p).slt.mem = s.slt.mem := by
  simp [tickLoRead]
@[simp] theorem barRead_core (s : State) (p : Port) (ofs : BitVec 20) : (barRead s p ofs).pending = s.pending ∧ (barRead s p ofs).now = s.now ∧ (barRead s p ofs).tck.mode = s.tck.mode ∧ (barRead s p ofs).slt.mem = s.slt.mem := by
  simp only [barRead]; (repeat' split) <;> simp
@[simp] theorem doGetIdentity_core (d : List Byte) (w : Who) (s : State) : (doGetIdentity d w s).pending = s.pending ∧ (doGetIdentity d w s).now = s.now ∧ (doGetIdentity d w s).tck.mode = s.tck.mode ∧ (doGetIdentity d w s).slt.mem = s.slt.mem := by
  simp [doGetIdentity]
@[simp] theorem doExpertUnlock_core (d : List Byte) (w : Who) (s : State) : (doExpertUnlock d w s).pending = s.pending ∧ (doExpertUnlock d w s).now = s.now ∧ (doExpertUnlock d w s).tck.mode = s.tck.mode ∧ (doExpertUnlock d w s).slt.mem = s.slt.mem := by
  simp [doExpertUnlock]
@[simp] theorem doExpertLock_core (d : List Byte) (w : Who) (s : State) : (doExpertLock d w s).pending = s.pending ∧ (doExpertLock d w s).now = s.now ∧ (doExpertLock d w s).tck.mode = s.tck.mode ∧ (doExpertLock d w s).slt.mem = s.slt.mem := by
  simp [doExpertLock]
@[simp] theorem doGetConfig_core (stage : Bool) (d : List Byte) (w : Who) (s : State) : (doGetConfig stage d w s).pending = s.pending ∧ (doGetConfig stage d w s).now = s.now ∧ (doGetConfig stage d w s).tck.mode = s.tck.mode ∧ (doGetConfig stage d w s).slt.mem = s.slt.mem := by
  simp [doGetConfig]
@[simp] theorem doSetConfig_core (d : List Byte) (w : Who) (s : State) : (doSetConfig d w s).pending = s.pending ∧ (doSetConfig d w s).now = s.now ∧ (doSetConfig d w s).tck.mode = s.tck.mode ∧ (doSetConfig d w s).slt.mem = s.slt.mem := by
  simp only [doSetConfig]; (repeat' (first | split | apply And.intro | refine refuseOr_core_pending _ _ _ _ (fun _ => ?_) | refine refuseOr_core_now _ _ _ _ (fun _ => ?_) | refine refuseOr_core_mode _ _ _ _ (fun _ => ?_) | refine refuseOr_core_mem _ _ _ _ (fun _ => ?_))) <;> simp
@[simp] theorem askForce_core (s : State) (w : Who) (work : ForceWork) : (askForce s w work).pending = s.pending ∧ (askForce s w work).now = s.now ∧ (askForce s w work).tck.mode = s.tck.mode ∧ (askForce s w work).slt.mem = s.slt.mem := by
  simp [askForce]
@[simp] theorem doForceSet_core (d : List Byte) (w : Who) (s : State) : (doForceSet d w s).pending = s.pending ∧ (doForceSet d w s).now = s.now ∧ (doForceSet d w s).tck.mode = s.tck.mode ∧ (doForceSet d w s).slt.mem = s.slt.mem := by
  simp [doForceSet]
@[simp] theorem doForceClear_core (d : List Byte) (w : Who) (s : State) : (doForceClear d w s).pending = s.pending ∧ (doForceClear d w s).now = s.now ∧ (doForceClear d w s).tck.mode = s.tck.mode ∧ (doForceClear d w s).slt.mem = s.slt.mem := by
  simp [doForceClear]
@[simp] theorem doForceClearAll_core (d : List Byte) (w : Who) (s : State) : (doForceClearAll d w s).pending = s.pending ∧ (doForceClearAll d w s).now = s.now ∧ (doForceClearAll d w s).tck.mode = s.tck.mode ∧ (doForceClearAll d w s).slt.mem = s.slt.mem := by
  simp [doForceClearAll]
@[simp] theorem doForceList_core (d : List Byte) (w : Who) (s : State) : (doForceList d w s).pending = s.pending ∧ (doForceList d w s).now = s.now ∧ (doForceList d w s).tck.mode = s.tck.mode ∧ (doForceList d w s).slt.mem = s.slt.mem := by
  simp [doForceList]
@[simp] theorem forceChecksEnd_core (s : State) : (forceChecksEnd s).pending = s.pending ∧ (forceChecksEnd s).now = s.now ∧ (forceChecksEnd s).tck.mode = s.tck.mode ∧ (forceChecksEnd s).slt.mem = s.slt.mem := by
  simp only [forceChecksEnd]; (repeat' (first | split | apply And.intro | refine foldl_pending_of (fun _ _ => ?_) ?_ | refine foldl_now_of (fun _ _ => ?_) ?_ | refine foldl_mode_of (fun _ _ => ?_) ?_ | refine foldl_mem_of (fun _ _ => ?_) ?_)) <;> simp
@[simp] theorem blockCheckEnd_core (s : State) (b : Nat) : (blockCheckEnd s b).pending = s.pending ∧ (blockCheckEnd s b).now = s.now ∧ (blockCheckEnd s b).tck.mode = s.tck.mode ∧ (blockCheckEnd s b).slt.mem = s.slt.mem := by
  simp only [blockCheckEnd]; (repeat' split) <;> simp
@[simp] theorem checkEnd_core (s : State) (b : Nat) : (checkEnd s b).pending = s.pending ∧ (checkEnd s b).now = s.now ∧ (checkEnd s b).tck.mode = s.tck.mode ∧ (checkEnd s b).slt.mem = s.slt.mem := by
  simp only [checkEnd]; (repeat' split) <;> simp
@[simp] theorem hostTransferEnd_core (s : State) (p : Port) (slot : Fin 32) (res : TransferResult) : (hostTransferEnd s p slot res).pending = s.pending ∧ (hostTransferEnd s p slot res).now = s.now ∧ (hostTransferEnd s p slot res).tck.mode = s.tck.mode ∧ (hostTransferEnd s p slot res).slt.mem = s.slt.mem := by
  simp only [hostTransferEnd]; (repeat' split) <;> simp

/-! ### Edge -/
@[simp] theorem freezeCut_core (s : State) (m : Nat) (sender : Bool) : (freezeCut s m sender).pending = s.pending ∧ (freezeCut s m sender).now = s.now ∧ (freezeCut s m sender).tck.mode = s.tck.mode ∧ (freezeCut s m sender).slt.mem = s.slt.mem := by
  simp [freezeCut]
@[simp] theorem launchOutputs_core (s : State) (m : Nat) (rule : LaunchRule) : (launchOutputs s m rule).pending = s.pending ∧ (launchOutputs s m rule).now = s.now ∧ (launchOutputs s m rule).tck.mode = s.tck.mode ∧ (launchOutputs s m rule).slt.mem = s.slt.mem := by
  simp only [launchOutputs]; (repeat' split) <;> simp
@[simp] theorem liveApply_core (s : State) (b : Nat) : (liveApply s b).pending = s.pending ∧ (liveApply s b).now = s.now ∧ (liveApply s b).tck.mode = s.tck.mode ∧ (liveApply s b).slt.mem = s.slt.mem := by
  simp only [liveApply]; (repeat' split) <;> simp
@[simp] theorem changeNow_core (s : State) (b : Nat) (new : RegFile) (direct : List (Nat × Dword × Dword)) (m : Nat) : (changeNow s b new direct m).pending = s.pending ∧ (changeNow s b new direct m).now = s.now ∧ (changeNow s b new direct m).tck.mode = s.tck.mode ∧ (changeNow s b new direct m).slt.mem = s.slt.mem := by
  simp only [changeNow]; (repeat' split) <;> simp
@[simp] theorem applyWork_core (s : State) (b : Nat) (p : PendCfg) (m : Nat) : (applyWork s b p m).pending = s.pending ∧ (applyWork s b p m).now = s.now ∧ (applyWork s b p m).tck.mode = s.tck.mode ∧ (applyWork s b p m).slt.mem = s.slt.mem := by
  simp only [applyWork]; (repeat' (first | split | apply And.intro | refine foldl_pending_of (fun _ _ => ?_) ?_ | refine foldl_now_of (fun _ _ => ?_) ?_ | refine foldl_mode_of (fun _ _ => ?_) ?_ | refine foldl_mem_of (fun _ _ => ?_) ?_)) <;> simp
@[simp] theorem pendApply_core (s : State) (m b : Nat) : (pendApply s m b).pending = s.pending ∧ (pendApply s m b).now = s.now ∧ (pendApply s m b).tck.mode = s.tck.mode ∧ (pendApply s m b).slt.mem = s.slt.mem := by
  simp only [pendApply]; (repeat' split) <;> simp
@[simp] theorem configEdge_core (s : State) (m : Nat) : (configEdge s m).pending = s.pending ∧ (configEdge s m).now = s.now ∧ (configEdge s m).tck.mode = s.tck.mode ∧ (configEdge s m).slt.mem = s.slt.mem := by
  unfold configEdge
  generalize List.range 20 = l
  extract_lets due s1 s2
  have h1 : s1.pending = s.pending ∧ s1.now = s.now ∧ s1.tck.mode = s.tck.mode ∧ s1.slt.mem = s.slt.mem := by simp [s1]
  have h2 : s2.pending = s1.pending ∧ s2.now = s1.now ∧ s2.tck.mode = s1.tck.mode ∧ s2.slt.mem = s1.slt.mem := by simp [s2]
  clear_value s1 s2; split <;> simp [h1, h2]
@[simp] theorem forceNow_core (s : State) (w : Who) (work : ForceWork) (m : Nat) : (forceNow s w work m).pending = s.pending ∧ (forceNow s w work m).now = s.now ∧ (forceNow s w work m).tck.mode = s.tck.mode ∧ (forceNow s w work m).slt.mem = s.slt.mem := by
  simp only [forceNow]; (repeat' split) <;> simp
@[simp] theorem forceEdge_core (s : State) (m : Nat) (newTab : Bool) : (forceEdge s m newTab).pending = s.pending ∧ (forceEdge s m newTab).now = s.now ∧ (forceEdge s m newTab).tck.mode = s.tck.mode ∧ (forceEdge s m newTab).slt.mem = s.slt.mem := by
  simp only [forceEdge]; (repeat' (first | split | apply And.intro | refine foldl_pending_of (fun _ _ => ?_) ?_ | refine foldl_now_of (fun _ _ => ?_) ?_ | refine foldl_mode_of (fun _ _ => ?_) ?_ | refine foldl_mem_of (fun _ _ => ?_) ?_)) <;> simp
@[simp] theorem controlDiffers_core (s : State) : (controlDiffers s).pending = s.pending ∧ (controlDiffers s).now = s.now ∧ (controlDiffers s).tck.mode = s.tck.mode ∧ (controlDiffers s).slt.mem = s.slt.mem := by
  simp [controlDiffers]
@[simp] theorem orDiffers_core (s t : State) (h : t.pending = s.pending ∧ t.now = s.now ∧ t.tck.mode = s.tck.mode ∧ t.slt.mem = s.slt.mem) : (orDiffers s t).pending = s.pending ∧ (orDiffers s t).now = s.now ∧ (orDiffers s t).tck.mode = s.tck.mode ∧ (orDiffers s t).slt.mem = s.slt.mem := by
  unfold orDiffers; split <;> simp [h]
@[simp] theorem carriedWrite_core (s : State) (d : List Byte) (m : Nat) : (carriedWrite s d m).pending = s.pending ∧ (carriedWrite s d m).now = s.now ∧ (carriedWrite s d m).tck.mode = s.tck.mode ∧ (carriedWrite s d m).slt.mem = s.slt.mem := by
  simp only [carriedWrite]; (repeat' split) <;> simp
@[simp] theorem controlDo_core (s : State) (code : Nat) (d : List Byte) (m : Nat) (newTab : Bool) : (controlDo s code d m newTab).pending = s.pending ∧ (controlDo s code d m newTab).now = s.now ∧ (controlDo s code d m newTab).tck.mode = s.tck.mode ∧ (controlDo s code d m newTab).slt.mem = s.slt.mem := by
  simp only [controlDo]
  split
  all_goals first | (simp; done) | ((repeat' split) <;> simp; done) | ((repeat' split) <;> try simp)
@[simp] theorem controlOne_core (s : State) (m : Nat) (newTab : Bool) (c : Control) : (controlOne s m newTab c).pending = s.pending ∧ (controlOne s m newTab c).now = s.now ∧ (controlOne s m newTab c).tck.mode = s.tck.mode ∧ (controlOne s m newTab c).slt.mem = s.slt.mem := by
  simp only [controlOne]; (repeat' split) <;> simp
@[simp] theorem controlEdge_core (s : State) (m place : Nat) (newTab : Bool) : (controlEdge s m place newTab).pending = s.pending ∧ (controlEdge s m place newTab).now = s.now ∧ (controlEdge s m place newTab).tck.mode = s.tck.mode ∧ (controlEdge s m place newTab).slt.mem = s.slt.mem := by
  simp [controlEdge]
@[simp] theorem sealLate_core (s : State) : (sealLate s).pending = s.pending ∧ (sealLate s).now = s.now ∧ (sealLate s).tck.mode = s.tck.mode ∧ (sealLate s).slt.mem = s.slt.mem := by
  simp only [sealLate]; (repeat' split) <;> simp
@[simp] theorem bankEdge_core (s : State) (m : Nat) : (bankEdge s m).pending = s.pending ∧ (bankEdge s m).now = s.now ∧ (bankEdge s m).tck.mode = s.tck.mode ∧ (bankEdge s m).slt.mem = s.slt.mem := by
  simp only [bankEdge]; (repeat' split) <;> simp
@[simp] theorem releaseTasks_core (s : State) (m : Nat) : (releaseTasks s m).pending = s.pending ∧ (releaseTasks s m).now = s.now ∧ (releaseTasks s m).tck.mode = s.tck.mode ∧ (releaseTasks s m).slt.mem = s.slt.mem := by
  simp only [releaseTasks]; (repeat' split) <;> simp

end Sys2Proof.Machine
end

