-- ==== Sys2Proof/Laws/KeepEdge.lean ====
section
/-! SUPPORT. What the functions of the tick, BOOT, the passing of time leave alone, of the queue of commands, the model's time, the mode and slate memory. -/
namespace Sys2Proof.Machine
open Sys2Proof
set_option linter.all false

/-! ### Tick -/
@[simp] theorem freshSlate_core (s : State) (i : BootInputs) : (freshSlate s i).pending = s.pending ∧ (freshSlate s i).now = s.now ∧ (freshSlate s i).tck.mode = s.tck.mode ∧ (freshSlate s i).slt.mem = s.slt.mem := by
  simp only [freshSlate]; (repeat' (first | split | apply And.intro | refine foldl_pending_of (fun _ _ => ?_) ?_ | refine foldl_now_of (fun _ _ => ?_) ?_ | refine foldl_mode_of (fun _ _ => ?_) ?_ | refine foldl_mem_of (fun _ _ => ?_) ?_)) <;> simp
@[simp] theorem noteSlots_core (s : State) (i : BootInputs) : (noteSlots s i).pending = s.pending ∧ (noteSlots s i).now = s.now ∧ (noteSlots s i).tck.mode = s.tck.mode ∧ (noteSlots s i).slt.mem = s.slt.mem := by
  simp [noteSlots]
@[simp] theorem raised_core (s : State) (m : Nat) : (raised s m).pending = s.pending ∧ (raised s m).now = s.now ∧ (raised s m).tck.mode = s.tck.mode ∧ (raised s m).slt.mem = s.slt.mem := by
  simp [raised]
@[simp] theorem deadlineKept_core (s : State) : (deadlineKept s).pending = s.pending ∧ (deadlineKept s).now = s.now ∧ (deadlineKept s).tck.mode = s.tck.mode ∧ (deadlineKept s).slt.mem = s.slt.mem := by
  simp only [deadlineKept]; (repeat' split) <;> simp
@[simp] theorem overrun_core (s : State) : (overrun s).pending = s.pending ∧ (overrun s).now = s.now ∧ (overrun s).tck.mode = s.tck.mode ∧ (overrun s).slt.mem = s.slt.mem := by
  simp [overrun]
@[simp] theorem switchoverDeadline_core (s : State) : (switchoverDeadline s).pending = s.pending ∧ (switchoverDeadline s).now = s.now ∧ (switchoverDeadline s).tck.mode = s.tck.mode ∧ (switchoverDeadline s).slt.mem = s.slt.mem := by
  simp only [switchoverDeadline]; (repeat' split) <;> simp
@[simp] theorem deadline_core (s : State) : (deadline s).pending = s.pending ∧ (deadline s).now = s.now ∧ (deadline s).tck.mode = s.tck.mode ∧ (deadline s).slt.mem = s.slt.mem := by
  simp only [deadline]; (repeat' split) <;> simp
@[simp] theorem throttleTick_core (s : State) : (throttleTick s).pending = s.pending ∧ (throttleTick s).now = s.now ∧ (throttleTick s).tck.mode = s.tck.mode ∧ (throttleTick s).slt.mem = s.slt.mem := by
  simp [throttleTick]
@[simp] theorem cutSignals_core (s : State) : (cutSignals s).pending = s.pending ∧ (cutSignals s).now = s.now ∧ (cutSignals s).tck.mode = s.tck.mode ∧ (cutSignals s).slt.mem = s.slt.mem := by
  unfold cutSignals; generalize List.range 48 = l; refine ⟨foldl_pending_of (fun _ _ => ?_) rfl, foldl_now_of (fun _ _ => ?_) rfl, foldl_mode_of (fun _ _ => ?_) rfl, foldl_mem_of (fun _ _ => ?_) rfl⟩ <;> split <;> simp
@[simp] theorem closeTick_core (s : State) : (closeTick s).pending = s.pending ∧ (closeTick s).now = s.now ∧ (closeTick s).tck.mode = s.tck.mode ∧ (closeTick s).slt.mem = s.slt.mem := by
  simp only [closeTick]; (repeat' split) <;> simp
@[simp] theorem openTick_core (s : State) (m : Nat) : (openTick s m).pending = s.pending ∧ (openTick s m).now = s.now ∧ (openTick s m).tck.mode = s.tck.mode ∧ (openTick s m).slt.mem = s.slt.mem := by
  simp [openTick]
@[simp] theorem claimEdge_core (s : State) (c : EdgeCause) : (claimEdge s c).pending = s.pending ∧ (claimEdge s c).now = s.now ∧ (claimEdge s c).tck.mode = s.tck.mode ∧ (claimEdge s c).slt.mem = s.slt.mem := by
  simp only [claimEdge]; (repeat' split) <;> simp
@[simp] theorem leaveShadow_core (s : State) : (leaveShadow s).pending = s.pending ∧ (leaveShadow s).now = s.now ∧ (leaveShadow s).tck.mode = s.tck.mode ∧ (leaveShadow s).slt.mem = s.slt.mem := by
  simp only [leaveShadow]; (repeat' split) <;> simp
@[simp] theorem causeEffects_core (s : State) (m : Nat) (c : EdgeCause) : (causeEffects s m c).pending = s.pending ∧ (causeEffects s m c).now = s.now ∧ (causeEffects s m c).tck.mode = s.tck.mode ∧ (causeEffects s m c).slt.mem = s.slt.mem := by
  simp only [causeEffects]; (repeat' split) <;> simp
@[simp] theorem shadowFresh_core (s : State) : (shadowFresh s).pending = s.pending ∧ (shadowFresh s).now = s.now ∧ (shadowFresh s).tck.mode = s.tck.mode ∧ (shadowFresh s).slt.mem = s.slt.mem := by
  simp [shadowFresh]
@[simp] theorem enterMode_core (s : State) (m : Nat) (c : EdgeCause) : (enterMode s m c).pending = s.pending ∧ (enterMode s m c).now = s.now ∧ (enterMode s m c).slt.mem = s.slt.mem := by
  simp only [enterMode]; (repeat' split) <;> simp
@[simp] theorem launchEdge_core (s : State) (m : Nat) (old : Mode) : (launchEdge s m old).pending = s.pending ∧ (launchEdge s m old).now = s.now ∧ (launchEdge s m old).tck.mode = s.tck.mode := by
  simp only [launchEdge]; (repeat' split) <;> simp
@[simp] theorem registerEdge_core (b s : State) : (registerEdge b s).pending = s.pending ∧ (registerEdge b s).now = s.now ∧ (registerEdge b s).tck.mode = s.tck.mode ∧ (registerEdge b s).slt.mem = s.slt.mem := by
  unfold registerEdge; split <;> simp
@[simp] theorem applyEdge_core (s : State) (m : Nat) : (applyEdge s m).pending = s.pending ∧ (applyEdge s m).now = s.now ∧ (applyEdge s m).tck.mode = s.tck.mode ∧ (applyEdge s m).slt.mem = s.slt.mem := by
  unfold applyEdge
  extract_lets s1 nt s2 s3
  have h1 : s1.pending = s.pending ∧ s1.now = s.now ∧ s1.tck.mode = s.tck.mode ∧ s1.slt.mem = s.slt.mem := by simp only [s1]; split <;> simp
  clear_value s1
  have h2 : s2.pending = s.pending ∧ s2.now = s.now ∧ s2.tck.mode = s.tck.mode ∧ s2.slt.mem = s.slt.mem := by simp [s2, h1]
  clear_value s2
  have h3 : s3.pending = s.pending ∧ s3.now = s.now ∧ s3.tck.mode = s.tck.mode ∧ s3.slt.mem = s.slt.mem := by simp [s3, h2]
  clear_value s3
  simp [h3]
@[simp] theorem answerTrans_core (s : State) (m : Nat) (c : EdgeCause) : (answerTrans s m c).pending = s.pending ∧ (answerTrans s m c).now = s.now ∧ (answerTrans s m c).tck.mode = s.tck.mode ∧ (answerTrans s m c).slt.mem = s.slt.mem := by
  simp only [answerTrans]; (repeat' split) <;> simp
@[simp] theorem answerSwitchover_core (s : State) (m : Nat) (c : EdgeCause) : (answerSwitchover s m c).pending = s.pending ∧ (answerSwitchover s m c).now = s.now ∧ (answerSwitchover s m c).tck.mode = s.tck.mode ∧ (answerSwitchover s m c).slt.mem = s.slt.mem := by
  simp only [answerSwitchover]; (repeat' split) <;> simp
@[simp] theorem answerStep_core (s : State) (m : Nat) : (answerStep s m).pending = s.pending ∧ (answerStep s m).now = s.now ∧ (answerStep s m).tck.mode = s.tck.mode ∧ (answerStep s m).slt.mem = s.slt.mem := by
  simp only [answerStep]; (repeat' split) <;> simp
@[simp] theorem firstRun_core (s : State) (c : EdgeCause) : (firstRun s c).pending = s.pending ∧ (firstRun s c).now = s.now ∧ (firstRun s c).tck.mode = s.tck.mode ∧ (firstRun s c).slt.mem = s.slt.mem := by
  simp only [firstRun]; (repeat' split) <;> simp
@[simp] theorem startTick_core (s : State) (m : Nat) : (startTick s m).pending = s.pending ∧ (startTick s m).now = s.now ∧ (startTick s m).tck.mode = s.tck.mode ∧ (startTick s m).slt.mem = s.slt.mem := by
  simp only [startTick]; (repeat' split) <;> simp
@[simp] theorem edgeVector_core (s : State) (p : Port) : (edgeVector s p).pending = s.pending ∧ (edgeVector s p).now = s.now ∧ (edgeVector s p).tck.mode = s.tck.mode ∧ (edgeVector s p).slt.mem = s.slt.mem := by
  simp only [edgeVector]; (repeat' split) <;> simp
@[simp] theorem sealEdge_core (s : State) (m : Nat) : (sealEdge s m).pending = s.pending ∧ (sealEdge s m).now = s.now ∧ (sealEdge s m).tck.mode = s.tck.mode ∧ (sealEdge s m).slt.mem = s.slt.mem := by
  simp [sealEdge]
@[simp] theorem laterEdge_core (s : State) (m : Nat) : (laterEdge s m).pending = s.pending ∧ (laterEdge s m).now = s.now := by
  unfold laterEdge
  extract_lets x0 t0 s1 old c s2 x2 x3 x4 s3 s4 s5
  have h1 : s1.pending = s.pending ∧ s1.now = s.now := by simp [s1, x0]
  clear_value s1 old c
  have h2 : s2.pending = s.pending ∧ s2.now = s.now := by simp [s2, h1]
  clear_value s2
  have h3 : s3.pending = s.pending ∧ s3.now = s.now := by simp [s3, x3, h2]
  clear_value s3
  have h4 : s4.pending = s.pending ∧ s4.now = s.now := by simp [s4, h3]
  clear_value s4
  have h5 : s5.pending = s.pending ∧ s5.now = s.now := by simp [s5, h4]
  clear_value s5
  simp [h5]
@[simp] theorem linksStart_core (s : State) (target : Mode) : (linksStart s target).pending = s.pending ∧ (linksStart s target).now = s.now ∧ (linksStart s target).tck.mode = s.tck.mode ∧ (linksStart s target).slt.mem = s.slt.mem := by
  simp [linksStart]
@[simp] theorem bootBank_core (s : State) (m : Nat) : (bootBank s m).pending = s.pending ∧ (bootBank s m).now = s.now ∧ (bootBank s m).tck.mode = s.tck.mode ∧ (bootBank s m).slt.mem = s.slt.mem := by
  simp only [bootBank]; (repeat' split) <;> simp
@[simp] theorem firstEdge_core (s : State) (target : Mode) (code : Code) (ps : List Nat) : (firstEdge s target code ps).pending = s.pending ∧ (firstEdge s target code ps).now = s.now := by
  unfold firstEdge
  generalize (match target, s.cry.adoptTick with | .shadow, some t => t.toNat + 1 | _, _ => 0) = m0
  extract_lets m x1 s1 s2 s3 s4 s5 x2 s6
  have h1 : s1.pending = s.pending ∧ s1.now = s.now := by simp [s1]
  clear_value s1
  have h2 : s2.pending = s1.pending ∧ s2.now = s1.now := by simp [s2]
  clear_value s2
  have h3 : s3.pending = s2.pending ∧ s3.now = s2.now := by simp [s3]
  clear_value s3
  have h4 : s4.pending = s3.pending ∧ s4.now = s3.now := by simp only [s4]; split <;> simp
  clear_value s4
  have h5 : s5.pending = s4.pending ∧ s5.now = s4.now := by simp only [s5]; split <;> simp
  clear_value s5
  have h6 : s6.pending = s5.pending ∧ s6.now = s5.now := by simp [s6]
  clear_value s6
  simp [h1, h2, h3, h4, h5, h6]
@[simp] theorem tickEdge_core (s : State) : (tickEdge s).pending = s.pending ∧ (tickEdge s).now = s.now := by
  simp only [tickEdge]; (repeat' split) <;> simp
@[simp] theorem pfwRole_core (s : State) : (pfwRole s).pending = s.pending ∧ (pfwRole s).now = s.now ∧ (pfwRole s).tck.mode = s.tck.mode ∧ (pfwRole s).slt.mem = s.slt.mem := by
  simp only [pfwRole]; (repeat' split) <;> simp
@[simp] theorem pfwAssert_core (s : State) : (pfwAssert s).pending = s.pending ∧ (pfwAssert s).now = s.now ∧ (pfwAssert s).tck.mode = s.tck.mode ∧ (pfwAssert s).slt.mem = s.slt.mem := by
  simp only [pfwAssert]; (repeat' split) <;> simp
@[simp] theorem pfwDeassert_core (s : State) : (pfwDeassert s).pending = s.pending ∧ (pfwDeassert s).now = s.now ∧ (pfwDeassert s).tck.mode = s.tck.mode ∧ (pfwDeassert s).slt.mem = s.slt.mem := by
  simp only [pfwDeassert]; (repeat' split) <;> simp

/-! ### Boot -/
@[simp] theorem loadBedrock_core (s : State) (ok : Bool) : (loadBedrock s ok).pending = s.pending ∧ (loadBedrock s ok).now = s.now ∧ (loadBedrock s ok).tck.mode = s.tck.mode ∧ (loadBedrock s ok).slt.mem = s.slt.mem := by
  simp only [loadBedrock]; (repeat' split) <;> simp
@[simp] theorem putBlock_core (s : State) (b : Nat) (f : RegFile) : (putBlock s b f).pending = s.pending ∧ (putBlock s b f).now = s.now ∧ (putBlock s b f).tck.mode = s.tck.mode ∧ (putBlock s b f).slt.mem = s.slt.mem := by
  simp [putBlock]
@[simp] theorem keptBlocks_core (s : State) : (keptBlocks s).pending = s.pending ∧ (keptBlocks s).now = s.now ∧ (keptBlocks s).tck.mode = s.tck.mode ∧ (keptBlocks s).slt.mem = s.slt.mem := by
  simp only [keptBlocks]; (repeat' split) <;> simp
@[simp] theorem loadSettings_core (s : State) (x : Settings) : (loadSettings s x).pending = s.pending ∧ (loadSettings s x).now = s.now ∧ (loadSettings s x).tck.mode = s.tck.mode ∧ (loadSettings s x).slt.mem = s.slt.mem := by
  simp [loadSettings]
@[simp] theorem resetBlock_core (s : State) (b : Nat) : (resetBlock s b).pending = s.pending ∧ (resetBlock s b).now = s.now ∧ (resetBlock s b).tck.mode = s.tck.mode ∧ (resetBlock s b).slt.mem = s.slt.mem := by
  simp only [resetBlock]; (repeat' split) <;> simp
@[simp] theorem checkBlocks_core (s : State) : (checkBlocks s).2.pending = s.pending ∧ (checkBlocks s).2.now = s.now ∧ (checkBlocks s).2.tck.mode = s.tck.mode ∧ (checkBlocks s).2.slt.mem = s.slt.mem := by
  simp only [checkBlocks]; (repeat' (first | split | apply And.intro | refine foldl_pending_of (fun _ _ => ?_) ?_ | refine foldl_now_of (fun _ _ => ?_) ?_ | refine foldl_mode_of (fun _ _ => ?_) ?_ | refine foldl_mem_of (fun _ _ => ?_) ?_ | refine foldl_p1_pending_of (fun _ _ => ?_) ?_ | refine foldl_p2_pending_of (fun _ _ => ?_) ?_ | refine foldl_p1_now_of (fun _ _ => ?_) ?_ | refine foldl_p2_now_of (fun _ _ => ?_) ?_ | refine foldl_p1_mode_of (fun _ _ => ?_) ?_ | refine foldl_p2_mode_of (fun _ _ => ?_) ?_ | refine foldl_p1_mem_of (fun _ _ => ?_) ?_ | refine foldl_p2_mem_of (fun _ _ => ?_) ?_)) <;> simp
@[simp] theorem settle_core (s : State) : (settle s).pending = s.pending ∧ (settle s).now = s.now ∧ (settle s).tck.mode = s.tck.mode ∧ (settle s).slt.mem = s.slt.mem := by
  unfold settle
  generalize List.range 20 = l; generalize List.range 24 = l2
  extract_lets s1
  have h1 : s1.pending = s.pending ∧ s1.now = s.now ∧ s1.tck.mode = s.tck.mode ∧ s1.slt.mem = s.slt.mem := by simp [s1]
  clear_value s1
  refine ⟨foldl_pending_of (fun _ _ => ?_) h1.1, foldl_now_of (fun _ _ => ?_) h1.2.1, foldl_mode_of (fun _ _ => ?_) h1.2.2.1, foldl_mem_of (fun _ _ => ?_) h1.2.2.2⟩ <;> simp
@[simp] theorem recordFallback_core (s : State) : (recordFallback s).pending = s.pending ∧ (recordFallback s).now = s.now ∧ (recordFallback s).tck.mode = s.tck.mode ∧ (recordFallback s).slt.mem = s.slt.mem := by
  simp only [recordFallback]; (repeat' split) <;> simp
@[simp] theorem recordReset_core (s : State) : (recordReset s).pending = s.pending ∧ (recordReset s).now = s.now ∧ (recordReset s).tck.mode = s.tck.mode ∧ (recordReset s).slt.mem = s.slt.mem := by
  simp only [recordReset]; (repeat' split) <;> simp
@[simp] theorem countResets_core (s : State) : (countResets s).pending = s.pending ∧ (countResets s).now = s.now ∧ (countResets s).tck.mode = s.tck.mode ∧ (countResets s).slt.mem = s.slt.mem := by
  simp only [countResets]; (repeat' (first | split | apply And.intro | refine foldl_pending_of (fun _ _ => ?_) ?_ | refine foldl_now_of (fun _ _ => ?_) ?_ | refine foldl_mode_of (fun _ _ => ?_) ?_ | refine foldl_mem_of (fun _ _ => ?_) ?_)) <;> simp
@[simp] theorem loadTime_core (s : State) : (loadTime s).pending = s.pending ∧ (loadTime s).now = s.now ∧ (loadTime s).tck.mode = s.tck.mode ∧ (loadTime s).slt.mem = s.slt.mem := by
  simp [loadTime]
theorem stepFiveTail_core (s : State) (n : BitVec 24) : (loadTime (countResets (tailBoot { s with cry.stored := n }))).pending = s.pending ∧ (loadTime (countResets (tailBoot { s with cry.stored := n }))).now = s.now ∧ (loadTime (countResets (tailBoot { s with cry.stored := n }))).tck.mode = s.tck.mode ∧ (loadTime (countResets (tailBoot { s with cry.stored := n }))).slt.mem = s.slt.mem := by
  have h : ∀ u : State, (loadTime (countResets (tailBoot u))).pending = u.pending ∧ (loadTime (countResets (tailBoot u))).now = u.now ∧ (loadTime (countResets (tailBoot u))).tck.mode = u.tck.mode ∧ (loadTime (countResets (tailBoot u))).slt.mem = u.slt.mem := by
    intro u; rw [(loadTime_core _).1, (loadTime_core _).2.1, (loadTime_core _).2.2.1, (loadTime_core _).2.2.2, (countResets_core _).1, (countResets_core _).2.1, (countResets_core _).2.2.1, (countResets_core _).2.2.2, (tailBoot_core _).1, (tailBoot_core _).2.1, (tailBoot_core _).2.2.1, (tailBoot_core _).2.2.2]
    exact ⟨rfl, rfl, rfl, rfl⟩
  exact h { s with cry.stored := n }
@[simp] theorem stepFiveEnd_core (s : State) : (stepFiveEnd s).pending = s.pending ∧ (stepFiveEnd s).now = s.now ∧ (stepFiveEnd s).tck.mode = s.tck.mode ∧ (stepFiveEnd s).slt.mem = s.slt.mem := by
  have h : (meterBoot (brkBoot (recordReset (recordFallback s)))).pending = s.pending ∧ (meterBoot (brkBoot (recordReset (recordFallback s)))).now = s.now ∧ (meterBoot (brkBoot (recordReset (recordFallback s)))).tck.mode = s.tck.mode ∧ (meterBoot (brkBoot (recordReset (recordFallback s)))).slt.mem = s.slt.mem := by simp
  unfold stepFiveEnd
  generalize meterBoot (brkBoot (recordReset (recordFallback s))) = x at h ⊢
  dsimp only
  generalize claimStored x = n
  have h2 := stepFiveTail_core x n
  exact ⟨h2.1.trans h.1, h2.2.1.trans h.2.1, h2.2.2.1.trans h.2.2.1, h2.2.2.2.trans h.2.2.2⟩
@[simp] theorem loadStored_core (s : State) (b : BankId) : (loadStored s b).2.pending = s.pending ∧ (loadStored s b).2.now = s.now ∧ (loadStored s b).2.tck.mode = s.tck.mode ∧ (loadStored s b).2.slt.mem = s.slt.mem := by
  simp only [loadStored]; (repeat' split) <;> simp
@[simp] theorem stepSix_core (s : State) : (stepSix s).2.pending = s.pending ∧ (stepSix s).2.now = s.now ∧ (stepSix s).2.tck.mode = s.tck.mode ∧ (stepSix s).2.slt.mem = s.slt.mem := by
  simp [stepSix]
@[simp] theorem meetPartner_core (s : State) (p : Probe) (r : PairResult) : (meetPartner s p r).pending = s.pending ∧ (meetPartner s p r).now = s.now ∧ (meetPartner s p r).tck.mode = s.tck.mode ∧ (meetPartner s p r).slt.mem = s.slt.mem := by
  simp [meetPartner]
@[simp] theorem sendProbes_core (x0 : Nat) (x1 : State) : (sendProbes x0 x1).pending = x1.pending ∧ (sendProbes x0 x1).now = x1.now ∧ (sendProbes x0 x1).tck.mode = x1.tck.mode ∧ (sendProbes x0 x1).slt.mem = x1.slt.mem := by
  induction x0 generalizing x1 with
  | zero => simp [sendProbes]
  | succ n ih =>
    unfold sendProbes; rw [(ih _).1, (ih _).2.1, (ih _).2.2.1, (ih _).2.2.2]
    refine ⟨foldl_pending_of (fun _ _ => ?_) rfl, foldl_now_of (fun _ _ => ?_) rfl, foldl_mode_of (fun _ _ => ?_) rfl, foldl_mem_of (fun _ _ => ?_) rfl⟩ <;> split <;> simp
@[simp] theorem stepSeven_core (s : State) (probe : Option Probe) : (stepSeven s probe).2.pending = s.pending ∧ (stepSeven s probe).2.now = s.now ∧ (stepSeven s probe).2.tck.mode = s.tck.mode ∧ (stepSeven s probe).2.slt.mem = s.slt.mem := by
  simp only [stepSeven]; (repeat' split) <;> simp
@[simp] theorem stepEight_core (s : State) (locks : BitVec 24) : (stepEight s locks).2.pending = s.pending ∧ (stepEight s locks).2.now = s.now ∧ (stepEight s locks).2.tck.mode = s.tck.mode ∧ (stepEight s locks).2.slt.mem = s.slt.mem := by
  simp [stepEight]
@[simp] theorem finishBoot_core (s : State) (i : BootInputs) (settings : Option (Nat × List Nat)) : (finishBoot s i settings).pending = s.pending ∧ (finishBoot s i settings).now = s.now ∧ (finishBoot s i settings).tck.mode = s.tck.mode ∧ (finishBoot s i settings).slt.mem = s.slt.mem := by
  simp only [finishBoot]; (repeat' split) <;> simp
@[simp] theorem trialFallback_core (s : State) (detail : Nat) (cut : Option (Nat × Nat)) : (trialFallback s detail cut).pending = s.pending ∧ (trialFallback s detail cut).now = s.now := by
  simp only [trialFallback]; (repeat' split) <;> simp
@[simp] theorem bootFrom_core (s : State) (i : BootInputs) (cut : Option (Nat × Nat)) : (bootFrom s i cut).pending = s.pending ∧ (bootFrom s i cut).now = s.now := by
  simp only [bootFrom]; (repeat' split) <;> simp
@[simp] theorem bootSequence_core (s : State) (i : BootInputs) : (bootSequence s i).pending = s.pending ∧ (bootSequence s i).now = s.now := by
  simp only [bootSequence]; (repeat' split) <;> simp
@[simp] theorem causePersists_core (s : State) (code : Nat) : (causePersists s code).2.pending = s.pending ∧ (causePersists s code).2.now = s.now ∧ (causePersists s code).2.tck.mode = s.tck.mode ∧ (causePersists s code).2.slt.mem = s.slt.mem := by
  simp only [causePersists]; (repeat' split) <;> simp
@[simp] theorem faultAgain_core (s : State) : (faultAgain s).pending = s.pending ∧ (faultAgain s).now = s.now ∧ (faultAgain s).tck.mode = s.tck.mode ∧ (faultAgain s).slt.mem = s.slt.mem := by
  simp only [faultAgain]; (repeat' split) <;> simp
@[simp] theorem doRun_core (w : Who) (s : State) : (doRun w s).pending = s.pending ∧ (doRun w s).now = s.now ∧ (doRun w s).tck.mode = s.tck.mode ∧ (doRun w s).slt.mem = s.slt.mem := by
  simp only [doRun]; (repeat' (first | split | apply And.intro | refine refuseOr_core_pending _ _ _ _ (fun _ => ?_) | refine refuseOr_core_now _ _ _ _ (fun _ => ?_) | refine refuseOr_core_mode _ _ _ _ (fun _ => ?_) | refine refuseOr_core_mem _ _ _ _ (fun _ => ?_))) <;> simp

/-! ### Idle -/
@[simp] theorem idle_core (s : State) : (idle s).pending = s.pending := by
  simp only [idle]; (repeat' split) <;> simp

end Sys2Proof.Machine
end

