-- ==== Sys2Proof/Laws/Records.lean ====
section
/-! SUPPORT. What entering a report does: the newest event, and nothing of the ports but interrupt status. -/
namespace Sys2Proof.Machine
open Sys2Proof

theorem irqOnly_refl (s : State) : IrqOnly s s := rfl
theorem raiseVector_irqOnly (s : State) (p : Port) (v : Fin 8) : IrqOnly s (raiseVector s p v) := by
  unfold IrqOnly raiseVector
  dsimp only
  split
  · rfl
  · split <;> cases p <;> rfl
theorem irqOnly_trans {s t u : State} (h1 : IrqOnly s t) (h2 : IrqOnly t u) : IrqOnly s u := by
  unfold IrqOnly at *; rw [h2, h1]
theorem raiseCursor_irqOnly (s : State) (p : Port) : IrqOnly s (raiseCursor s p) := by
  unfold raiseCursor; split
  · exact raiseVector_irqOnly _ _ _
  · rfl
theorem enterReport_irqOnly (s : State) (code : Code) (fault boot : Bool) (ps : List Nat) (v : Option (List Byte)) (sec : Nat) (nsq : Dword) :
    IrqOnly s (enterReport s code fault boot ps v sec nsq) := by
  unfold enterReport
  dsimp only
  split
  · rfl
  · split
    · rfl
    · refine irqOnly_trans ?_ (raiseCursor_irqOnly _ _)
      exact irqOnly_trans (show IrqOnly s _ from rfl) (raiseCursor_irqOnly _ _)
/-- A report changes of the ports nothing but interrupt status. -/
theorem report_irqOnly (s : State) (code : Code) (fault : Bool) (ps : List Nat) : IrqOnly s (report s code fault ps) := by
  unfold report reportVar
  dsimp only
  (repeat' split)
  · rfl
  · rfl
  · exact enterReport_irqOnly _ _ _ _ _ _ _ _
  · rfl
  · rfl
theorem record_irqOnly (s : State) (code : Nat) (ps : List Nat) : IrqOnly s (record s code ps) := report_irqOnly _ _ _ _

theorem evict_head (q : RecSt) (e : RingRec) (l : List RingRec) (h : q.ring = e :: l) (hi : q.head - e.index ≤ ringSlots) :
    (evict q).ring.head? = some e := by
  unfold evict; split
  · rw [h]; rfl
  · simp only [h, List.filter_cons, hi, decide_true]; rfl
/-- A record that has room is the newest of the ring. -/
theorem ringEnter_head (q : RecSt) (now : Nat) (r : Rec) (hq : q.seq < 65536) (hv : r.var = none) :
    ∃ e, (ringEnter q now r).ring.head? = some e ∧ e.body = { r with seq := BitVec.ofNat 16 q.seq } := by
  unfold ringEnter
  rw [if_neg (by omega)]
  dsimp only
  exact ⟨_, evict_head _ _ _ rfl (by simp only [recSlots, hv, ringSlots]; omega), rfl⟩
/-- A report that goes in is the newest event. -/
theorem report_last (s : State) (code : Nat) (fault : Bool) (ps : List Nat) (ha : Awake s) (hc : code < 65536)
    (h : CanRecord s code) : LastReport (report s (BitVec.ofNat 16 code) fault ps) code fault ps := by
  unfold report reportVar
  rw [if_neg ha]
  obtain ⟨h0, h⟩ := h
  simp only [h0]
  rcases h with ⟨h1, h2⟩ | ⟨h1, h2, h3⟩
  · rw [if_neg (by simp [h1]), if_neg (by omega)]
    exact .inl ⟨h1, { code := BitVec.ofNat 16 code, fault := fault, params := ps, var := none, sec := s.ntm.sec, nsq := stampNow s },
      by simp only [List.getLast?_append, List.getLast?_singleton, Option.some_or], rfl, rfl, rfl⟩
  · rw [if_pos h1]
    right
    have hcode : (BitVec.ofNat 16 code).toNat = code := by simp; omega
    unfold enterReport
    dsimp only
    rw [hcode]
    rw [if_neg (by
      rintro ⟨ha, hb, hd⟩
      rcases h3 with h | h | h
      · simp [h] at ha
      · exact hb h
      · omega)]
    generalize hq : (if (isFieldOrigin code && !fault) = true then { s.recd with entered := smPut s.recd.entered code (smGetD s.recd.entered code 0 + 1) } else s.recd) = q
    have hst : q.started = true ∧ q.seq < 65536 := by rw [← hq]; split <;> exact ⟨h1, h2⟩
    split
    · rename_i q' hf
      split at hf
      · exact absurd hf (by simp)
      · rename_i hfv
        have hff : fault = false := by cases fault <;> simp_all
        unfold tryFold at hf
        split at hf
        · rename_i e older hr
          split at hf
          · rename_i hcond
            have key : q'.started = q.started ∧ ∃ b, q'.ring = { e with body := { e.body with repeats := b } } :: older := by
              simp only [Option.some.injEq] at hf
              subst hf
              split
              · unfold tailPush; split <;> exact ⟨rfl, _, rfl⟩
              · exact ⟨rfl, _, rfl⟩
            obtain ⟨hs', b, hb⟩ := key
            refine ⟨hs'.trans hst.1, { e with body := { e.body with repeats := b } }, by simp only [hb]; rfl, hcond.1, ?_, hcond.2.1⟩
            rw [hff]
            simpa using hcond.2.2.2.1
          · exact absurd hf (by simp)
        · exact absurd hf (by simp)
    · obtain ⟨e, he, hb⟩ := ringEnter_head q s.now { code := BitVec.ofNat 16 code, boot := false, fieldOrigin := isFieldOrigin code, fault := fault, repeats := 0#8, sec := s.ntm.sec, nsq := stampNow s, tickLo := BitVec.ofNat 32 s.tck.tick.toNat, params := params4 ps, seq := 0#16, var := none } hst.2 rfl
      simp only [raiseCursor_parts]
      have hs : ∀ r : Rec, (ringEnter q s.now r).started = q.started := by
        intro r
        unfold ringEnter evict
        dsimp only
        (repeat' split) <;> first | rfl | (unfold tailPush; split <;> rfl)
      refine ⟨(hs _).trans hst.1, e, he, ?_, ?_, ?_⟩ <;> rw [hb]
/-- An event recorded: the newest event, with only interrupt status of the ports changed. -/
theorem record_reports (s : State) (code : Nat) (ps : List Nat) (ha : Awake s) (hc : code < 65536) : Reports s (record s code ps) code ps :=
  ⟨fun h => report_last s code false ps ha hc h, record_irqOnly s code ps⟩

end Sys2Proof.Machine
end

