-- ==== Sys2Proof/Laws/SlateMem.lean ====
section
/-! SUPPORT. Slate memory: what a byte or a word written does to every byte read, and that every write keeps the canonical form. -/
namespace Sys2Proof.Machine
open Sys2Proof

/-- Every listed address of a canonical list lies above a bound. -/
def Memory.above (n : Nat) (m : List Host.Cell) : Bool := m.all (fun c => decide (n < c.1))

theorem memory_above_cons (n : Nat) (c : Host.Cell) (r : List Host.Cell) : Memory.above n (c :: r) = true ↔ n < c.1 ∧ Memory.above n r = true := by
  simp [Memory.above]

theorem memory_wf_cons (c : Host.Cell) (r : List Host.Cell) :
    Memory.wf (c :: r) = true ↔ c.2 ≠ 0#8 ∧ Memory.above c.1 r = true ∧ Memory.wf r = true := by
  induction r generalizing c with
  | nil => simp [Memory.wf, Memory.sorted, Memory.above]
  | cons d r ih =>
    have hd := ih d
    have : Memory.wf (c :: d :: r) = true ↔ c.2 ≠ 0#8 ∧ c.1 < d.1 ∧ Memory.wf (d :: r) = true := by
      simp only [Memory.wf, Memory.sorted, List.all_cons, Bool.and_eq_true, decide_eq_true_eq, bne_iff_ne, ne_eq]
      exact ⟨fun h => ⟨h.2.1, h.1.1, h.1.2, h.2.2⟩, fun h => ⟨⟨h.2.1, h.2.2.1⟩, h.1, h.2.2.2⟩⟩
    rw [this]
    constructor
    · rintro ⟨h1, h2, h3⟩
      refine ⟨h1, ?_, h3⟩
      have h4 := (hd.mp h3).2.1
      simp only [Memory.above, List.all_cons, List.all_eq_true, decide_eq_true_eq, Bool.and_eq_true] at *
      exact ⟨h2, fun x hx => Nat.lt_trans h2 (h4 x hx)⟩
    · rintro ⟨h1, h2, h3⟩
      refine ⟨h1, ?_, h3⟩
      simp only [Memory.above, List.all_cons, decide_eq_true_eq, Bool.and_eq_true] at h2
      exact h2.1

theorem memPut_above (n a : Nat) (v : Byte) (m : List Host.Cell) (h : Memory.above n m = true) (ha : n < a) :
    Memory.above n (memPut m a v) = true := by
  induction m with
  | nil => unfold memPut; split <;> simp_all [Memory.above]
  | cons c r ih =>
    have hc := (memory_above_cons n c r).mp h
    unfold memPut
    (repeat' split) <;> simp [memory_above_cons, hc, ih, ha]

/-- A byte written keeps the canonical form. -/
theorem memPut_wf (m : List Host.Cell) (a : Nat) (v : Byte) (h : Memory.wf m = true) : Memory.wf (memPut m a v) = true := by
  induction m with
  | nil => unfold memPut; split <;> simp_all [Memory.wf, Memory.sorted]
  | cons c r ih =>
    have hc := (memory_wf_cons c r).mp h
    unfold memPut
    split
    · rename_i hlt
      split
      · exact h
      · rename_i hv
        refine (memory_wf_cons _ _).mpr ⟨hv, ?_, h⟩
        have := hc.2.1
        simp only [Memory.above, List.all_cons, List.all_eq_true, decide_eq_true_eq, Bool.and_eq_true] at *
        exact ⟨hlt, fun x hx => Nat.lt_trans hlt (this x hx)⟩
    · split
      · rename_i hge heq
        split
        · exact hc.2.2
        · rename_i hv
          exact (memory_wf_cons _ _).mpr ⟨hv, by rw [heq]; exact hc.2.1, hc.2.2⟩
      · rename_i hge hne
        exact (memory_wf_cons _ _).mpr ⟨hc.1, memPut_above _ _ _ _ hc.2.1 (by omega), ih hc.2.2⟩

theorem memPutBytes_wf (d : List Byte) (m : List Host.Cell) (a : Nat) (h : Memory.wf m = true) : Memory.wf (memPutBytes m a d) = true := by
  induction d generalizing m a with
  | nil => exact h
  | cons b r ih => exact ih _ _ (memPut_wf m a b h)

theorem memByte_above (m : List Host.Cell) (n a : Nat) (h : Memory.above n m = true) (ha : a ≤ n) : memByte m a = 0#8 := by
  induction m with
  | nil => rfl
  | cons c r ih =>
    simp only [Memory.above, List.all_cons, Bool.and_eq_true, decide_eq_true_eq] at h ih
    unfold memByte
    rw [if_neg (by omega)]
    exact ih h.2

/-- The byte written reads back. -/
theorem memByte_memPut_same (m : List Host.Cell) (a : Nat) (v : Byte) (h : Memory.wf m = true) : memByte (memPut m a v) a = v := by
  induction m with
  | nil => unfold memPut; split <;> simp_all [memByte]
  | cons c r ih =>
    have hc := (memory_wf_cons c r).mp h
    unfold memPut
    split
    · rename_i hlt
      split
      · rename_i hv
        rw [hv]; unfold memByte; rw [if_neg (by omega)]
        exact memByte_above r c.1 a hc.2.1 (by omega)
      · simp [memByte]
    · split
      · rename_i hge heq
        split
        · rename_i hv; rw [hv]; exact memByte_above r c.1 a hc.2.1 (by omega)
        · simp [memByte]
      · rename_i hge hne
        unfold memByte; rw [if_neg (by omega)]
        exact ih hc.2.2

/-- Every other byte reads as before. -/
theorem memByte_memPut_other (m : List Host.Cell) (a b : Nat) (v : Byte) (h : b ≠ a) : memByte (memPut m a v) b = memByte m b := by
  induction m with
  | nil => unfold memPut; split <;> simp [memByte]; omega
  | cons c r ih =>
    unfold memPut
    (repeat' split) <;> simp only [memByte, ih] <;> (repeat' split) <;> first | rfl | omega

/-- Bytes written from an address on read back. -/
theorem memByte_memPutBytes_other (d : List Byte) (m : List Host.Cell) (a x : Nat) (h : x < a ∨ a + d.length ≤ x) :
    memByte (memPutBytes m a d) x = memByte m x := by
  induction d generalizing m a with
  | nil => rfl
  | cons b r ih =>
    simp only [List.length_cons] at h
    exact (ih (memPut m a b) (a + 1) (by omega)).trans (memByte_memPut_other m a x b (by omega))

/-- Every byte outside the bytes written reads as before. -/
theorem memByte_memPutBytes_same (d : List Byte) (m : List Host.Cell) (a i : Nat) (h : Memory.wf m = true) (hi : i < d.length) :
    memByte (memPutBytes m a d) (a + i) = (d[i]?).getD 0#8 := by
  induction d generalizing m a i with
  | nil => simp at hi
  | cons b r ih =>
    cases i with
    | zero =>
      have := memByte_memPutBytes_other r (memPut m a b) (a + 1) a (by omega)
      simpa [memPutBytes, memByte_memPut_same m a b h] using this
    | succ i =>
      have := ih (memPut m a b) (a + 1) i (memPut_wf m a b h) (by simpa using hi)
      rw [show a + (i + 1) = a + 1 + i by omega]
      simpa [memPutBytes] using this

/-- A word written keeps the canonical form. -/
theorem putWord_wf (s : State) (e : Nat × List Byte) (h : Memory.wf s.slt.mem = true) : Memory.wf (putWord s e).slt.mem = true := by
  unfold putWord; split
  · exact h
  · exact memPutBytes_wf _ _ _ h

end Sys2Proof.Machine
end

