-- ==== Sys2Proof/Laws/SlateWf.lean ====
section
/-! SUPPORT. Every function that writes slate memory keeps its canonical form. -/
namespace Sys2Proof.Machine
open Sys2Proof
set_option linter.all false

theorem foldl_wf {α : Type} (f : State → α → State) (l : List α) (s : State) (h : ∀ s a, Memory.wf s.slt.mem = true → Memory.wf (f s a).slt.mem = true) (h0 : Memory.wf s.slt.mem = true) : Memory.wf (l.foldl f s).slt.mem = true := by
  induction l generalizing s with
  | nil => exact h0
  | cons a l ih => exact ih _ (h s a h0)
@[simp] theorem foldl_putWord_wf (l : List (Nat × List Byte)) (s : State) (h : Memory.wf s.slt.mem = true) : Memory.wf (l.foldl putWord s).slt.mem = true :=
  foldl_wf putWord l s (fun s e h => putWord_wf s e h) h
theorem refuseOr_wf (s : State) (w : Who) (cs : List (Bool × Nat)) (ok : State → State) (hk : ∀ s, Memory.wf s.slt.mem = true → Memory.wf (ok s).slt.mem = true)
    (h : Memory.wf s.slt.mem = true) : Memory.wf (refuseOr s w cs ok).slt.mem = true := by
  unfold refuseOr; split
  · simp [h]
  · exact hk s h
theorem access_wf (s : State) (p : Port) (f : State → State) (hk : ∀ s, Memory.wf s.slt.mem = true → Memory.wf (f s).slt.mem = true)
    (h : Memory.wf s.slt.mem = true) : Memory.wf (access s p f).slt.mem = true := by
  unfold access; split
  · exact h
  · exact hk s h
@[simp] theorem cutRun_wf (s : State) (r : Option SltRun) (h : Memory.wf s.slt.mem = true) : Memory.wf (cutRun s r).slt.mem = true := by
  unfold cutRun; split
  · exact h
  · apply foldl_putWord_wf; simp [h]
@[simp] theorem cutSlate_wf (s : State) (h : Memory.wf s.slt.mem = true) : Memory.wf (cutSlate s).slt.mem = true := by
  simp [cutSlate, h]
@[simp] theorem coldState_wf (s : State) (t : Tck) (h : Memory.wf s.slt.mem = true) : Memory.wf (coldState s t).slt.mem = true := by
  simp [coldState, h]
@[simp] theorem coldReset_wf (s : State) (cause : Nat) (joining : Bool) (h : Memory.wf s.slt.mem = true) : Memory.wf (coldReset s cause joining).slt.mem = true := by
  simp [coldReset, h]
@[simp] theorem finishRun_wf (s : State) (r : SltRun) (h : Memory.wf s.slt.mem = true) : Memory.wf (finishRun s r).slt.mem = true := by
  unfold finishRun
  extract_lets s1
  have h1 : Memory.wf s1.slt.mem = true := by simp [s1, h]
  clear_value s1
  (repeat' split) <;> simp [h1]
@[simp] theorem endRun_wf (s : State) (h : Memory.wf s.slt.mem = true) : Memory.wf (endRun s).slt.mem = true := by
  simp only [endRun]; (repeat' split) <;> simp [h]
@[simp] theorem endClaim_wf (s : State) (h : Memory.wf s.slt.mem = true) : Memory.wf (endClaim s).slt.mem = true := by
  simp only [endClaim]; (repeat' split) <;> simp [h]
@[simp] theorem finishAll_wf (s : State) (h : Memory.wf s.slt.mem = true) : Memory.wf (finishAll s).slt.mem = true := by
  simp [finishAll, h]
@[simp] theorem beginPointer_wf (s : State) (payload : List Byte) (h : Memory.wf s.slt.mem = true) : Memory.wf ((beginPointer s payload).2).slt.mem = true := by
  simp [beginPointer, h]
@[simp] theorem writePointers_wf (x0 : State) (x1 : List (List Byte)) (x2 : Option (Nat × Nat)) (h : Memory.wf x0.slt.mem = true) : Memory.wf ((writePointers x0 x1 x2).2).slt.mem = true := by
  induction x1 generalizing x0 x2 with
  | nil => simpa [writePointers] using h
  | cons p l ih =>
    unfold writePointers; dsimp only
    split
    · apply foldl_putWord_wf; simp [h]
    · exact ih _ _ (by simp [h])
    · exact ih _ _ (by simp [h])
@[simp] theorem trialFallback_wf (s : State) (detail : Nat) (cut : Option (Nat × Nat)) (h : Memory.wf s.slt.mem = true) : Memory.wf (trialFallback s detail cut).slt.mem = true := by
  simp only [trialFallback]; (repeat' split) <;> simp [h]
@[simp] theorem bootFrom_wf (s : State) (i : BootInputs) (cut : Option (Nat × Nat)) (h : Memory.wf s.slt.mem = true) : Memory.wf (bootFrom s i cut).slt.mem = true := by
  simp only [bootFrom]; (repeat' split) <;> simp [h]
@[simp] theorem bootSequence_wf (s : State) (i : BootInputs) (h : Memory.wf s.slt.mem = true) : Memory.wf (bootSequence s i).slt.mem = true := by
  unfold bootSequence
  split
  · exact h
  · extract_lets s1 t1 s2 x y
    have h1 : Memory.wf s1.slt.mem = true := by simp only [s1]; split <;> simp [h]
    clear_value s1
    have h2 : Memory.wf s2.slt.mem = true := by simp [s2, h1]
    clear_value s2
    have h3 : Memory.wf y.2.slt.mem = true := by simp [y, h2]
    clear_value y x
    split
    · exact h1
    · split
      · exact h3
      · split
        · exact h3
        · exact bootFrom_wf _ _ _ h3
@[simp] theorem claimsDone_wf (s : State) (h : Memory.wf s.slt.mem = true) : Memory.wf (claimsDone s).slt.mem = true := by
  unfold claimsDone
  refine foldl_wf _ _ _ (fun s a h => ?_) (by simp [h])
  apply endClaim_wf; rw [(startClaim_core _).2.2.2]; split <;> simp [h]
@[simp] theorem heartbeatSend_wf (s : State) (h : Memory.wf s.slt.mem = true) : Memory.wf (heartbeatSend s).slt.mem = true := by
  simp only [heartbeatSend]; (repeat' split) <;> simp [h]
@[simp] theorem finishDue_wf (s : State) (h : Memory.wf s.slt.mem = true) : Memory.wf (finishDue s).slt.mem = true := by
  unfold finishDue
  extract_lets due s1
  have h1 : Memory.wf s1.slt.mem = true := by simp only [s1]; split <;> simp [h]
  clear_value s1
  split <;> simp [h1]
@[simp] theorem slatePass_wf (s : State) (h : Memory.wf s.slt.mem = true) : Memory.wf (slatePass s).slt.mem = true := by
  unfold slatePass
  extract_lets t
  have h1 : Memory.wf t.slt.mem = true := by simp [t, h]
  clear_value t
  split <;> simp [h1]
@[simp] theorem idle_wf (s : State) (h : Memory.wf s.slt.mem = true) : Memory.wf (idle s).slt.mem = true := by
  simp only [idle]; (repeat' split) <;> simp [h]
@[simp] theorem staged_wf (s : State) (g : Staging) (h : Memory.wf s.slt.mem = true) : Memory.wf (staged s g).slt.mem = true := by
  simp only [staged]; (repeat' split) <;> simp [h]
@[simp] theorem stagingEnd_wf (s : State) (res : StagingResult) (h : Memory.wf s.slt.mem = true) : Memory.wf (stagingEnd s res).slt.mem = true := by
  simp only [stagingEnd]; (repeat' split) <;> simp [h]
@[simp] theorem fieldWrite_wf (s : State) (b o : Nat) (v : Dword) (d : RegDef) (h : Memory.wf s.slt.mem = true) : Memory.wf (fieldWrite s b o v d).slt.mem = true := by
  simp only [fieldWrite]; (repeat' split) <;> simp [h]
@[simp] theorem blockWrite_wf (s : State) (p : Port) (b o : Nat) (v : Dword) (h : Memory.wf s.slt.mem = true) : Memory.wf (blockWrite s p b o v).slt.mem = true := by
  simp only [blockWrite]; (repeat' split) <;> simp [h]
@[simp] theorem wdtExpire_wf (s : State) (kind : Nat) (h : Memory.wf s.slt.mem = true) : Memory.wf (wdtExpire s kind).slt.mem = true := by
  simp only [wdtExpire]; (repeat' split) <;> simp [h]
@[simp] theorem wdtJudge_wf (s : State) (key : Nat) (h : Memory.wf s.slt.mem = true) : Memory.wf (wdtJudge s key).slt.mem = true := by
  simp only [wdtJudge]; (repeat' split) <;> simp [h]
@[simp] theorem wdtServiceWrite_wf (s : State) (p : Port) (v : Dword) (h : Memory.wf s.slt.mem = true) : Memory.wf (wdtServiceWrite s p v).slt.mem = true := by
  refine access_wf _ _ _ (fun s h => ?_) h; (repeat' split) <;> simp [h]
@[simp] theorem barWrite_wf (s : State) (p : Port) (ofs : BitVec 20) (v : Dword) (h : Memory.wf s.slt.mem = true) : Memory.wf (barWrite s p ofs v).slt.mem = true := by
  refine access_wf _ _ _ (fun s h => ?_) h; dsimp only; (repeat' split) <;> simp [h]
@[simp] theorem linksEdge_wf (s : State) (h : Memory.wf s.slt.mem = true) : Memory.wf (linksEdge s).slt.mem = true := by
  unfold linksEdge
  rw [foldl_mem_of (t := claimsDone s) (fun _ _ => by simp) rfl]; simp [h]
@[simp] theorem resetUnless_wf (s : State) (cause : Nat) (h : Memory.wf s.slt.mem = true) : Memory.wf (resetUnless s cause).slt.mem = true := by
  simp only [resetUnless]; (repeat' split) <;> simp [h]
@[simp] theorem powerOn_wf (s : State) (h : Memory.wf s.slt.mem = true) : Memory.wf (powerOn s).slt.mem = true := by
  simp only [powerOn]; (repeat' split) <;> simp [h]
@[simp] theorem railLoss_wf (s : State) (h : Memory.wf s.slt.mem = true) : Memory.wf (railLoss s).slt.mem = true := by
  simp only [railLoss]; (repeat' split) <;> simp [h]
@[simp] theorem doReset_wf (w : Who) (s : State) (h : Memory.wf s.slt.mem = true) : Memory.wf (doReset w s).slt.mem = true := by
  refine refuseOr_wf _ _ _ _ (fun s h => ?_) h; simp [h]
@[simp] theorem doJoin_wf (w : Who) (s : State) (h : Memory.wf s.slt.mem = true) : Memory.wf (doJoin w s).slt.mem = true := by
  refine refuseOr_wf _ _ _ _ (fun s h => ?_) h; simp [h]
@[simp] theorem startNextOp_wf (s : State) (h : Memory.wf s.slt.mem = true) : Memory.wf (startNextOp s).slt.mem = true := by
  simp only [startNextOp]; (repeat' split) <;> simp [h]
@[simp] theorem slateOpStart_wf (s : State) (h : Memory.wf s.slt.mem = true) : Memory.wf (slateOpStart s).slt.mem = true := by
  simp only [slateOpStart]; (repeat' split) <;> simp [h]
@[simp] theorem launchEdge_wf (s : State) (m : Nat) (old : Mode) (h : Memory.wf s.slt.mem = true) : Memory.wf (launchEdge s m old).slt.mem = true := by
  simp only [launchEdge]; (repeat' split) <;> simp [h]
@[simp] theorem laterEdge_wf (s : State) (m : Nat) (h : Memory.wf s.slt.mem = true) : Memory.wf (laterEdge s m).slt.mem = true := by
  unfold laterEdge
  extract_lets x0 t0 s1 old c s2 x2 x3 x4 s3 s4 s5
  have h1 : Memory.wf s1.slt.mem = true := by simp [s1, x0, h]
  clear_value s1 old c
  have h2 : Memory.wf s2.slt.mem = true := by simp [s2, h1]
  clear_value s2
  have h3 : Memory.wf s3.slt.mem = true := by simp [s3, x3, h2]
  clear_value s3
  have h4 : Memory.wf s4.slt.mem = true := by simp [s4, h3]
  clear_value s4
  have h5 : Memory.wf s5.slt.mem = true := by simp [s5, h4]
  clear_value s5
  simp [h5]
@[simp] theorem firstEdge_wf (s : State) (target : Mode) (code : Code) (ps : List Nat) (h : Memory.wf s.slt.mem = true) : Memory.wf (firstEdge s target code ps).slt.mem = true := by
  unfold firstEdge
  generalize (match target, s.cry.adoptTick with | .shadow, some t => t.toNat + 1 | _, _ => 0) = m0
  extract_lets m x1 s1 s2 s3 s4 s5 x2 s6
  have h1 : Memory.wf s1.slt.mem = true := by simp [s1, h]
  clear_value s1
  have h2 : Memory.wf s2.slt.mem = true := by simp [s2, h1]
  clear_value s2
  have h3 : Memory.wf s3.slt.mem = true := by simp [s3, h2]
  clear_value s3
  have h4 : Memory.wf s4.slt.mem = true := by simp only [s4]; split <;> simp [h3]
  clear_value s4
  have h5 : Memory.wf s5.slt.mem = true := by simp only [s5]; split <;> simp [h4]
  clear_value s5
  have h6 : Memory.wf s6.slt.mem = true := by simp [s6, h5]
  clear_value s6
  simp [h6]
@[simp] theorem tickEdge_wf (s : State) (h : Memory.wf s.slt.mem = true) : Memory.wf (tickEdge s).slt.mem = true := by
  simp only [tickEdge]; (repeat' split) <;> simp [h]
@[simp] theorem watchdogExpiry_wf (s : State) (h : Memory.wf s.slt.mem = true) : Memory.wf (watchdogExpiry s).slt.mem = true := by
  simp only [watchdogExpiry]; (repeat' split) <;> simp [h]

end Sys2Proof.Machine
end

