-- ==== Sys2Proof/WellFormed.lean ====
section
/-! DEFINITION. Which commands the outside can send: the bounds that the operand types do not say by themselves. -/
namespace Sys2Proof

/-- Lengths a CAN frame's data can have: 0 to 8, and with FDF the 16 lengths of CAN FD (R405). -/
def CanFrame.lenOk (f : CanFrame) : Bool :=
  decide (f.data.length ≤ 8) || (f.fdf && [12, 16, 20, 24, 32, 48, 64].contains f.data.length)
/-- A CAN frame as a bus carries it: an 11-bit identifier without IDE, no FD remote frame (R405, R410). -/
def CanFrame.wf (f : CanFrame) : Bool := f.lenOk && (f.ide || decide (f.id.toNat < 2048)) && !(f.fdf && f.remote) && (f.fdf || !f.brs)
/-- A request payload fits its area and is whole in bytes (R56, R57). -/
def Req.wf (r : Req) : Bool := decide (r.payload.length ≤ 65504)
/-- Requesters of the trunk other than the rods: 48 to 77 (R148). -/
def otherRequester (n : Nat) : Bool := decide (48 ≤ n) && decide (n ≤ 77)

/-- A command that the outside can send: payloads that fit, frames as a bus carries them, requesters that exist. -/
def Instr.wf (c : Instr) : Bool :=
  match c with
  | .canFrameReceived _ f => f.wf
  | .doorbell _ _ _ payload => decide (payload.length ≤ 65504)
  | .trunkGrant others => others.all otherRequester
  | .trunkBurstDone requester _ => decide (requester ≤ 77)
  | .run r | .stop r | .hold r | .step r | .faultAck r | .reset r | .join r | .getIdentity r | .expertUnlock r | .expertLock r | .getConfig r
  | .setConfig r | .getStage r | .forceSet r | .forceClear r | .forceClearAll r | .forceList r | .loadBegin r | .loadData r | .loadEnd r | .verify r
  | .activate r | .save r | .restore r | .erase r | .bankInfo r | .chgStart r | .chgAbort r | .lnkTableSet r | .lnkTableGet r | .lnkRollcall r
  | .lnkParley r | .lnkRearm r | .lnkState r | .crySwitchover r | .cryResync r | .cryHealthGet r | .ntmSetTime r | .ntmSetUtc r | .ntmLaunch r
  | .ntmPtpState r | .brkSetTime r | .brkShift r | .brkPwron r | .brkGetTime r | .canRecover r | .canDetect r | .canHpRead r | .lchClear r
  | .mtrEnergyGet r | .mtrEnergyPreset r | .sltRecRead r | .sltRecWrite r | .sltTallyRead r | .sltTallyAdd r | .sltRawRead r | .sltRawWrite r
  | .recSeek r | .recRead r | .recTailRead r | .recArchiveRead r | .recArchiveFlush r | .wdtEvidenceGet r | .wdtEvidenceClear r | .fwuScan r
  | .fwuStage r | .fwuActivate r | .fwuConfirm r | .fwuInfo r => r.wf
  | .powerOn | .railLoss | .resetNPin | .undervoltageReset | .lockstepMismatch | .bootSequence _ | .sdPoll | .portReset _ | .tickEdge | .computeStart
  | .segmentStart _ _ | .bundleIssue _ _ | .resultLand _ | .xstLand _ | .waitfRetire _ _ _ | .quotaWindow | .grantHeldLong | .sealSend
  | .sealOverflow | .deadline | .throttleEngage _ | .throttleRecover | .pfwAssert | .pfwDeassert | .pfwCapture _ | .railWindowFault _ | .tempSample _
  | .bar0BadAccess _ _ | .bar2Write _ | .registerWrite _ _ _ | .w1cWrite _ _ _ | .rcRead _ _ | .enableWrite _ _ _ | .commit _ _ | .discard _ _
  | .semRead _ _ _ | .semWrite _ _ _ | .tckTickLoRead _ | .hostTransferEnd _ _ _ | .saveComplete _ | .migrationLineBuild | .echoReceived _ _ _
  | .echoMissing _ | .linkLockLost _ | .fieldFrameTurnback _ _ | .linkLockTimeout _ | .rollCallReceived _ _ _ | .rollCallRepeat _
  | .parleyResponseReceived _ _ | .parleyTimeout _ | .noticeReceived _ _ | .carryLaneDown _ | .carryLinkUp _ | .deltaReceived _ _ | .sealReceived _ _
  | .controlReceived _ _ | .heartbeatSend | .heartbeatReceived _ _ | .faultFrameReceived _ _ | .partnerLost | .nakReceived _ _ | .healthSend
  | .healthReceived _ _ | .selftestItem _ _ | .bulkPlace | .ptpMessageReceived _ _ | .ptpMessageSend _ _ | .ptpMasterLost | .holdoverExpiry
  | .ntmNowNsRead _ | .launchTime _ _ | .leapSecond | .bedrockReset | .backupSample _ | .wakeInstant | .countdownExpiry | .evEdge _ _
  | .trimWindowEnd | .followCompare | .rtcSetApply | .rtcShiftApply | .brkCalSnapRead _ | .brkCountdownSetWrite _ _ | .canRxTimeout _ _
  | .canTxDone _ | .canTxError _ _ | .canRecoveryDone _ | .canTimeMark _ _ _ | .canTtSyncLost _ | .canDetectDwellEnd _ _ | .lplusGroupFail _ _
  | .lplusGroupRestore _ _ | .localEdge _ _ | .wireBreak _ | .wireBreakClear _ _ | .outputOverload _ | .overloadRetry _ | .s0Pulse _ _
  | .lchOverloadWrite _ _ | .lineCycleEnd _ _ | .halfCycleBoundary _ _ | .referenceLost _ | .resultReady _ | .energyLatch _ | .meterChannelFail _
  | .meterChannelRecover _ | .slateOpStart | .tailCopy | .archiveSegmentWrite | .recWinStateRead _ | .recWin7Read _ | .wdtServiceWrite _ _
  | .supervisorService | .watchdogExpiry | .sdCardDetect _ | .trialConfirmTimeout | .consistencyCheckEnd _ | .verifierEnd _ | .stagingEnd _
  | .grantPhaseEnd | .fieldLinkLockGained _ | .higherClaimSeen _ _ | .slewComplete | .bedrockResetEnd | .sampleInstant _ | .canRxError _ _
  | .pfwRecordsComplete => true

end Sys2Proof
end

