-- ==== Sys2Proof/Tests/Slice0.lean ====
section
/-! SUPPORT. Tests: what WellFormed refuses, values worked out by hand from the spec, and a witness that the hypotheses of every statement are met. -/
namespace Sys2Proof.Tests
open Sys2Proof Sys2Proof.Machine

set_option maxRecDepth 10000
set_option Elab.async false

/-! ### States and operands -/

def inMode (m : Mode) : State := { State.reset with tck.mode := m }
def reqOf (d : List Byte) : Req := { port := .a, slot := 3, notify := true, seq := 9#32, hostAddr := 0#64, hostLen := 0#32, payload := d }
def expert (m : Mode) (b : Nat) : State := { inMode m with host.a.expert := BitVec.ofNat 20 (2 ^ b) }
def begun (s : State) (r : Req) (code : Nat) : Who × State := match startCmd s r code with | some x => x.2 | none => (noWho, s)
abbrev Begins (s : State) (r : Req) (code : Nat) : Prop := mailboxUp s = true ∧ (startCmd s r code).map (·.1) = some r ∧ Waits (begun s r code).2 r code (begun s r
  code).1
theorem starts_of_begins {s : State} {r : Req} {code : Nat} (h : Begins s r code) : Starts s r code (begun s r code).1 (begun s r code).2 := by
  obtain ⟨h1, h2, h3⟩ := h
  refine ⟨h1, ?_, h3⟩
  cases hx : startCmd s r code with
  | none => rw [hx] at h2; cases h2
  | some x => rw [hx] at h2; obtain rfl := Option.some.inj h2; simp [begun, hx]
def held : State := { inMode .stop with host.sems := (Vector.replicate 64 none).set 0 (some { port := .b, tag := 5#16 }) }
def busyCfg (m : Mode) (b : Nat) : State := setBlk (expert m b) b (fun c => { c with check := some { copy := c.stage, work := .commit, discard := false } })
def transiting (m : Mode) (b : Nat) : State := { expert m b with tck.trans := some { target := .stop, who := noWho } }
def badCfg : State := setBlk (expert .run 7) 7 (fun c => { c with check := some { copy := [(0x200, 0xFFFFFFFF#32)], work := .commit, discard := false } })
def badImg : State := setBlk (expert .run 3) 3 (fun c => { c with check := some { copy := [(0x100, 0xFFFFFFFF#32)], work := .commit, discard := true } })
def hdr (c : Nat) : ReqHdr := { code := BitVec.ofNat 16 c, flags := 1#16, seq := 7#32, length := 65504#32, reserved12 := 0#32, hostAddr := 0#64, hostLen := 0#32, reserved28 := 0#32 }
def busySlot (m : Mode) : State := (begun (inMode m) (reqOf []) 0x0101).2
def bootUp : State := { inMode .boot with tck.bootEnd := some (.stop, 0#16, []) }
def queued : State := doorbell (inMode .stop) .b 7 (hdr 0x0104) []
def answered : State := doorbell (inMode .stop) .b 31 { hdr 0x0107 with length := 0#32 } []
def theResponse : Response := { code := 0x0107#16, reason := 0x0101#16, seq := 7#32, tick := 0#64, data := [] }
def unlockReq (mask : Nat) : Req := reqOf (leBytes 4 mask ++ leBytes 4 0x45585054)
def setReq (b : Nat) : Req := reqOf (leBytes 1 b ++ leBytes 3 0 ++ leBytes 4 0x100 ++ leBytes 4 1 ++ leBytes 4 1)
def loaded (m : Mode) : State := { inMode m with ldr.inForce := some .a, ldr.a.phase := .admitted, ldr.a.period := 4 }
def forceReq : Req := reqOf (leBytes 4 7 ++ leBytes 4 0xFFFFFF ++ leBytes 4 5)
def loading (m : Mode) : State := { inMode m with ldr.a.phase := .loading, ldr.a.length := 64 }
def dataReq : Req := { reqOf (leBytes 4 32) with hostLen := 32#32 }
def xferred : State := match exec (.loadData dataReq) (loading .stop) with | .next t => t | _ => State.reset
def theXfer : Xfer := { who := (begun (loading .stop) dataReq 0x0502).1, addr := 0#64, len := 32, kind := .load .a 32 }
def outXfer : Xfer := { theXfer with kind := .toHost [1#8] }
def sending : State := { xferred with host.xfers := [outXfer] }
def railed : State := { loaded .stop with pwr.railHeld := some 4 }
def faulted : State := { inMode .stop with tck.fault := 0x0209#16 }
def paired (m : Mode) : State := setBlk (inMode m) 8 (fun c => { c with inForce := fileSet c.inForce 8 0x100 0x10001#32 })
def endingOp : SltRun := { op := { pri := 3, work := .record 1 [], who := none, edge := 0#64 }, start := 0, finish := 1, words := [] }
def resetting : State := { inMode .stop with slt.run := some endingOp, fwu.noSlot := true }
def pfwOn : State := { inMode .stop with pwr.pfw := true }
def pairRun (m : Mode) : State := { paired m with cry.claim := some 1, cry.partner := true, cry.pMode := 5#8, cry.pReady := 0#8, cry.lanes := 0xFF#8 }
def goOnPfw : State := setBlk (inMode .hold) 2 (fun c => { c with inForce := fileSet c.inForce 2 0x100 0#32 })
def stopOnPfw : State := setBlk (inMode .hold) 2 (fun c => { c with inForce := fileSet c.inForce 2 0x100 0x2000#32 })
def pendF : PendFault := { code := 0x1312#16, cycle := none, rod := 0, params := [4], claim := none, outs := 0#32 }
def boot : BootInputs := { supervisorOk := true, slot0Ok := true, slot1Ok := true, bedrockLoadOk := true, memFail := none, rodFail := none, probe := none, locks := 0#24, pointerCut := none, slateErrors := [] }
theorem bootSlot_reset (i : BootInputs) (s : State) (hi : i.slot0Ok = true) (h1 : s.fwu.slot0.valid = true) (h2 : s.fwu.slot0.package = Config.factoryPackage)
    (e : recordNow s 1 = none) : (bootSlot s i).1 = some (0, false) := by
  have h : slotVerifies s i 0 = true := by simp [slotVerifies, slotOf, hi, h1, h2]
  simp [bootSlot, choosePointer, e, h]
def bootAt : State := noteSlots (scanRecord (freshSlate State.reset boot) 1) boot
theorem bootSlot_at : (bootSlot bootAt boot).1 = some (0, false) := bootSlot_reset boot bootAt rfl rfl rfl (by decide +kernel)
def booted (m : Mode) (c : Code) : State := { State.reset with tck.bootEnd := some (m, c, []) }
def syl (cls op dest s1 s2 pred sense imm : Nat) : Nat := 2 ^ 47 + cls * 2 ^ 44 + op * 2 ^ 36 + dest * 2 ^ 30 + s1 * 2 ^ 24 + s2 * 2 ^ 18 + pred * 2 ^ 13 + sense * 2 ^
  12 + imm
def prog : Bank := { id := 1, base := 0, code := [(0, [syl 1 0x01 5 1 2 0 0 0, syl 1 0x01 5 1 2 0 1 0])], consts := [], points := [], segs := [], tasks := [{ id := 1, kind := 0, priority := 0, tally := 0, period := 1, phase := 0, rodSet := 1, errMask := 0, triggers := [] }], scheds := [(0, [{ task := 1, entry := 0, start := 4 }])], init := [], mig := [] }
def computing (ph : Phase) : State := { inMode .run with ldr.inForce := some .a, ldr.a.prog := some prog, ldr.a.phase := .admitted, tck.computing := true, tck.phase := ph, tasks.released := [{ task := 1, count := 1, first := 0xABCDEF }] }
def runRod (pc : Nat) : Rod := { Rod.reset with run := .running, cycle := 9, pc := pc, g := ((Vector.replicate 64 0#24).set 1 7#24).set 2 0xFFFFFF#24 }
def running (r : Rod) : State := setRod (computing .compute) 0 r
def addP : Prim := { idx := 0, row := (opRow 1 1).getD (row 1 1 .r 1), w := syl 1 0x01 5 1 2 0 0 0, slot := clsSlot 1, x := none }
def codeBank (code : List Nat) : Bank := { prog with code := [(0, code)], segs := [(0x200, { kind := 1, length := 64, owner := 0, place := 0 }), (0x201, { kind := 2, length := 512, owner := 0, place := 0 })], points := [(7, { output := false, word := true, divisor := 0, subst := 0, substValue := 0#24, source := .local 0 1 }), (8, { output := true, word := true, divisor := 0, subst := 0, substValue := 0#24, source := .local 1 0 })], consts := [(0, (4, [1#24, 2#24, 3#24, 4#24]))] }
def codeRod : Rod := { runRod 0 with seg := ((((Vector.replicate 8 0#24).set 1 0x200#24).set 2 0x201#24).set 3 0x105#24), p := 1#32, lc := (Vector.replicate 2 0#24).set 1 2#24, g := (((Vector.replicate 64 0#24).set 1 7#24).set 2 0xFFFFFF#24).set 3 0x800000#24 }
def issuing (code : List Nat) (r : Rod) : State := setRod { computing .compute with ldr.a.prog := some (codeBank code) } 0 r
def primsAt (code : List Nat) : List Prim := match checkBundle code 0 false with | .ok ps _ => ps | .bad _ _ => []
def primAt (code : List Nat) : Prim := (primsAt code).headD addP
def cont (x : Nat) : Nat := x - 2 ^ 47
def xsyl (pay : Nat) : Nat := 2 ^ 47 + 5 * 2 ^ 44 + pay
def wide : List Nat := [cont (syl 0 0x02 6 1 2 0 0 0), cont (syl 1 0x01 5 1 2 0 0 0), cont (syl 1 0x18 3 1 2 0 1 0x200), syl 2 0x01 9 1 2 0 0 0]
def off4 : List Nat := [syl 1 0x01 5 1 2 0 1 0]
def ldl : List Nat := [syl 3 0x01 5 1 0 0 0 9]
def stl : List Nat := [syl 3 0x02 0 1 2 0 0 9]
def stl0 : List Nat := [syl 3 0x02 0 0 2 0 0 3]
def ldc : List Nat := [syl 3 0x03 5 1 0 0 0 (0x200 + 3)]
def stc : List Nat := [syl 3 0x04 0 1 2 0 0 (0x200 + 3)]
def xst : List Nat := [syl 3 0x05 0 1 2 0 0 (0x600 + 3)]
def ldi : List Nat := [syl 3 0x08 5 3 0 0 0 (4 * 128 + 7)]
def sti : List Nat := [syl 3 0x0A 0 3 2 0 0 8]
def fetch : List Nat := [cont (syl 3 0x10 4 1 0 0 0 (0x400 + 3)), xsyl (31 + 256 * 0x100)]
def tst : List Nat := [cont (syl 3 0x11 4 1 0 0 0 (0x400 + 3)), xsyl (31 + 256 * 0x100)]
def br : List Nat := [syl 4 0x01 0 0 0 0 0 5]
def dbnz : List Nat := [syl 4 0x02 1 0 0 0 0 0xFFF]
def call : List Nat := [syl 4 0x03 0 1 0 0 0 5]
def ret : List Nat := [syl 4 0x04 0 0 0 0 0 0]
def fqDone : FqOp := { store := false, seg := 0x201, base := 0, loc := 0x10, len := 2, order := 0, data := [1#24, 2#24], bursts := [.done], failed := false, zeroFill := false, bank := some .a }
def fqOpen : FqOp := { fqDone with bursts := [.pending] }
def holding (o : FqOp) : Rod := { codeRod with fq := (Vector.replicate 16 none).set 15 (some o) }
def waitf : List Nat := [syl 4 0x10 0 0 0 0 0 15]
def ends : List Nat := [syl 4 0x1F 0 0 0 0 0 0]
def nextProg : Bank := { codeBank ends with scheds := [(0, [{ task := 1, entry := 0, start := 4 }, { task := 1, entry := 0, start := 40 }])] }
def ending : State := setRod { computing .compute with ldr.a.prog := some nextProg } 0 codeRod
def rod12 (a b : Word) : Rod := { runRod 0 with g := ((Vector.replicate 64 0#24).set 1 a).set 2 b }
def oneFlight (due n : Nat) : Rod := { runRod 0 with flight := [{ dest := .g n, value := 0x1FFFFFF, due := due, slot := 2, issued := 8, div := false }] }
def xstored : State := { running (runRod 0) with rods.xst := [{ due := 9, src := 1, dst := 0, ofs := 0x3FFF, value := 0xABCDEF#24 }] }
def fqOp : FqOp := { store := false, seg := 0x100000, base := 0, loc := 0x10, len := 2, order := 0, data := [1#24, 2#24], bursts := [.done], failed := false, zeroFill := false, bank := some .a }
def stalledRod : Rod := { runRod 0 with run := .stalled 15 5, fq := (Vector.replicate 16 none).set 15 (some fqOp) }
def divP (op : Nat) : Prim := { idx := 0, row := (opRow 2 op).getD (row 2 op .r 1), w := syl 2 op 5 1 2 0 0 0, slot := clsSlot 2, x := none }
def heldBy (w : Nat) : Grant := { who := w, first := 0, op := 0, burst := 0, floor := false, named := false }
def granted (w : Nat) : State := { inMode .run with trk.grant := some { who := w, first := 0, op := 0, burst := 0, floor := false, named := false } }
def bursting (g : Option Grant) (sv : List (Nat × Nat × Nat)) (o : FqOp) : State := { setRod (computing .compute) 3 { codeRod with fq := (Vector.replicate 16 none).set 15 (some o), run := .stalled 15 0 } with trk.grant := g, trk.service := sv }
def bankReq (b : Nat) : Req := reqOf (leBytes 1 b ++ leBytes 3 0)
def loadReq (b n : Nat) : Req := reqOf (leBytes 1 b ++ leBytes 3 0 ++ leBytes 4 n)
def filled : State := { inMode .stop with ldr.b.phase := .loading, ldr.b.length := 2, ldr.b.chunks := [{ ofs := 0, len := 2, data := some [1#8, 2#8] }] }
def image : List Byte :=
  ([66, 75, 86, 81, 36, 72, 1, 0, 208, 0, 0, 0, 1, 0, 0, 0, 0, 0, 0, 0, 4, 0, 0, 0, 0, 0, 0, 0, 22, 106, 211, 129, 3, 0, 255, 0, 96, 0, 0, 0, 8, 0, 0, 0,
    105, 223, 34, 101, 4, 0, 255, 0, 104, 0, 0, 0, 8, 0, 0, 0, 105, 223, 34, 101, 5, 0, 255, 0, 112, 0, 0, 0, 96, 0, 0, 0, 149, 76, 146, 68, 7, 0, 255, 0,
    208, 0, 0, 0, 0, 0, 0, 0, 0, 0, 0, 0, 0, 0, 0, 0, 0, 0, 0, 0, 0, 0, 0, 0, 0, 0, 0, 0, 1, 0, 0, 0, 0, 0, 0, 0, 1, 0, 0, 255, 1, 0, 0, 0,
    1] : List Nat).map (BitVec.ofNat 8) ++ List.replicate 79 0#8
def storedBank : State := { inMode .stop with ldr.b.stored := some image }
def verifying (img : List Byte) : State :=
  let x := begun { inMode .stop with ldr.b.phase := .loaded, ldr.b.image := img } (bankReq 1) 0x0504
  { x.2 with ldr.verify := [{ bank := .b, who := some x.1 }] }
def vWho : Who := (begun (inMode .stop) (bankReq 1) 0x0504).1
def badImage : List Byte := image.set 0 0#8
def saving : State :=
  let x := begun (inMode .stop) (bankReq 1) 0x0506
  { x.2 with ldr.saves := [{ bank := .b, who := some x.1, image := image }] }
def prog2 : Bank := { prog with id := 2, base := 1, segs := [(0x100000, { kind := 2, length := 8, owner := 0, place := 0 })], init := [(0x100000, 0, [7#24])] }
def changing : State := { computing .edge with ldr.b.phase := .admitted, ldr.b.period := 4, ldr.b.share := shareNow (inMode .run), ldr.b.prog := some prog2, ldr.a.prog := some { prog with segs := prog2.segs } }
def converging : State := { changing with chg.stage := .first, chg.target := .b, chg.toBuild := [0x100000] }
def stn (a : Nat) : Station := { path := [BitVec.ofNat 8 a], group := false, phase := 0, hold := 2, outWords := [1,0,0,0,0,0,0], inWords := [1,0,0,0,0,0,0], turnMax := 0 }
def good : StLive := { lost := false, failsafe := false, claimLow := false, status := 0#8, goodRun := 0, badRun := 0, mapped := true, mapFailed := false }
def gone : StLive := { good with lost := true, goodRun := 1 }
def lnkd (m : Mode) (l : Link) : State := { inMode m with cry.claim := some 2, cry.stored := 2#24, lnk := State.reset.lnk.set 5 l, tck.tick := 10#64, recd.started := true }
def twoSt (ph : LinkPhase) (x : StLive) : Link := { Link.reset with table := [stn 1, stn 7], live := [x, x], phase := ph, lock := true, summoned := true }
def rx (f : List Byte) : RxFrame := { bytes := f, broken := false }
def rdFrame (ty claim tick dom : Nat) (b : List Byte) : List Byte := fieldFrame ty 0 claim tick 4 dom 5 b
def longFrame : List Byte := List.replicate 524296 0#8
theorem longFrame_broken : frameBroken { bytes := longFrame, broken := false } = true := by simp only [frameBroken, longFrame, List.length_replicate]; decide
def ech : List Byte := rdFrame 0x45 2 10 1 ((List.range 40).map (BitVec.ofNat 8))
def locking : Link := { twoSt .lock gone with lock := false }
def rolling : Link := { twoSt (.roll 2) gone with rollSent := true }
def pWho : Who := (begun (inMode .run) (reqOf []) 0x0704).1
def parl : Parley := { why := .host pWho, path := [1#8], op := 1, index := 2, len := 0, data := [], tag := 77 }
def asked (age : Nat) : State := { lnkd .run { twoSt .cyclic good with out := some parl, outAge := age } with host := (begun (inMode .run) (reqOf []) 0x0704).2.host }
def resp : List Byte := [1#8, 0#8, 0#8, 0#8, 0#8, 0#8, 0#8, 0#8, 77#8, 0#8] ++ List.replicate 22 0#8
theorem asked_claim : ∀ c, (asked 5).cry.claim = some c → frameDomain (rdFrame 0x50 2 10 1 resp) = domainOf (asked 5) → frameClaim (rdFrame 0x50 2 10 1 resp) ≤ c := by
  intro c hc; cases hc; decide
def noticing : State := { lnkd .run (twoSt .cyclic good) with cfg := (setBlk State.reset 7 (fun c => { c with inForce := fileSet c.inForce 7 (0x200 + 0x20 * 5) 0x200000#32 })).cfg }
def note (c : Nat) : List Byte := rdFrame 0x4E 2 10 1 ([1#8, 0#8] ++ leBytes 2 c ++ [7#8] ++ List.replicate 27 0#8)
theorem note_claim1 : ∀ c, noticing.cry.claim = some c → frameDomain (note 1) = domainOf noticing → frameClaim (note 1) ≤ c := by intro c hc; cases hc; decide
theorem note_claim5 : ∀ c, noticing.cry.claim = some c → frameDomain (note 5) = domainOf noticing → frameClaim (note 5) ≤ c := by intro c hc; cases hc; decide
def lk (rest : List Byte) : Req := reqOf (5#8 :: rest)
def pay : List Byte := [0#8, 1#8, 16#8, 0#8, 5#8, 0#8, 0#8, 4#8, 0#8, 0#8] ++ List.replicate 30 3#8
def cf (ty seq claim : Nat) (b : List Byte) : List Byte :=
  let body := padTo (8 * ceilDiv b.length 8) b
  let h := leBytes 1 ty ++ leBytes 1 (body.length / 8) ++ leBytes 4 seq ++ leBytes 4 100 ++ leBytes 3 claim
  let hd := h ++ leBytes 2 (crc16 h)
  if body.isEmpty then hd else hd ++ body ++ leBytes 4 (crc32 (hd ++ body)) ++ leBytes 4 0
def prun (m : Mode) : State := { pairRun m with cry.stored := 9#24, cry.claim := some 9, recd.started := true, tck.tick := 100#64 }
def keptRun : State := { prun .run with cry.kept := [(7, [1#8])], cry.partner := false }
def sealing (ph : Phase) : State := { prun .run with cry.sealTick := some 100#64, tck.phase := ph }
def shad : State := { paired .shadow with cry.lanes := 0xFF#8, cry.stored := 9#24, cry.partner := true, recd.started := true, tck.tick := 100#64, cry.rxNext := some 5, cry.readiness := 0#2, cry.sealMode := 3 }
def selem : List Byte := leBytes 8 100 ++ leBytes 4 0 ++ leBytes 4 (crc32 []) ++ [3#8, 0#8, 0#8, 0#8] ++ leBytes 4 5
def ff : List Byte := cf 0x46 0 8 [0x11#8, 3#8, 0#8, 0#8]
def shadN : State := { shad with cry.readiness := 3#2 }
def ioPts : SMap Point := [(7, { output := false, word := true, divisor := 0, subst := 2, substValue := 0x55#24, source := .link 5 1 [1#8] 0 0 }), (8, { output := true, word := true, divisor := 0, subst := 0, substValue := 0x33#24, source := .link 5 1 [1#8] 0 0 }),
  (9, { output := false, word := false, divisor := 0, subst := 0, substValue := 0#24, source := .local 1 0 })]
def ioProg : Bank := { prog with points := ioPts }
def outP : OutPt := { work := 5#24, launch := 4#24, sent := 3#24, everSent := true, runVal := 2#24, liveVal := 2#24, since := 0 }
def inP : InPt := { recv := some 0xABC#24, cut := 0#24, substituted := false, good := 0#24, fresh := true, since := 0 }
def edgeBase : State := setBlk (inMode .run) 0xC (fun c => { c with inForce := fileSet c.inForce 0xC 0x100 1#32 })
def edgeLink (x : StLive) : Link := { Link.reset with table := [stn 1, stn 7], live := [x, x], phase := .cyclic, lock := true, summoned := true }
def edging (x : StLive) (tr : Option Transition) : State := { edgeBase with ldr.inForce := some .a, ldr.a.prog := some ioProg, ldr.a.phase := .admitted, tck.computing := true, tck.phase := .ended, tck.deadlineMet := some true, tck.trans := tr, cry.claim := some 2, cry.stored := 2#24, lnk := State.reset.lnk.set 5 (edgeLink x), tck.tick := 10#64, recd.started := true, img.ranOnce := true, img.ins := [(7, inP), (9, inP)], img.outs := [(8, outP)], lch.level := 0xFF#32 }
def edgeTo (m : Mode) : Option Transition := some { target := m, who := noWho }
theorem noPend (x : StLive) (tr : Option Transition) : ∀ b, (blkCfg (edging x tr) b).pend = none := by
  have h : ∀ c ∈ edgeBase.cfg.toArray, c.pend = none := by decide +kernel
  intro b
  show (edgeBase.cfg.toArray.getD b BlkCfg.reset).pend = none
  rw [Array.getD_eq_getD_getElem?]
  cases e : edgeBase.cfg.toArray[b]? with
  | none => rfl
  | some c => exact h c (Array.mem_of_getElem? e)
def regSet (s : State) (b o : Nat) (v : Dword) : State := setBlk s b (fun c => { c with inForce := fileSet c.inForce b o v })
def rec1 (m : Mode) : State := { inMode m with recd.started := true, tck.tick := 100#64 }
def ptp2 : State := regSet (rec1 .run) 9 0x100 (BitVec.ofNat 32 2)
def ann : Announce := { grandmaster := 5#64, priority1 := 1#8, clockClass := 6#8, accuracy := 0x21#8, variance := 3#16, priority2 := 128#8, stepsRemoved := 2#16, sender := 0xABC#80, utcOffset := 37#16, utcValid := true, leap61 := false, leap59 := false, domain := 0#7 }
def slv : State := { ptp2 with ntm.slave := some true, ntm.quality := 2#2, ntm.sec := 5 }
def ptp3 (st : Nat) : State := { ptp2 with ntm.p0.st := st, ntm.p1.st := st }
def slvN : State := { slv with ntm.p1.st := 8 }
def slvF : State := { slvN with ntm.p1.syncIn := some (5000000000, 9#16) }
def listening : State := let s := regSet (rec1 .run) 9 0x100 10#32; { s with ntm.p0.st := 4, ntm.p1.st := 4 }
def heard : State := { listening with ntm.p1.foreign := [{ ann := ann, at' := 0, prev := none }], now := 1000 }
def senderOf (x : BitVec 64) : BitVec 80 := BitVec.ofNat 80 (((x.toNat + 1) % 2 ^ 64) * 65536)
theorem otherClock (x : BitVec 64) : (senderOf x).toNat / 65536 ≠ x.toNat := by
  have := x.isLt
  rw [senderOf, BitVec.toNat_ofNat]
  omega
def annX : Announce := { ann with sender := senderOf Config.clockIdentity }
def heardX : State := { listening with ntm.p1.foreign := [{ ann := annX, at' := 0, prev := none }], now := 1000 }
theorem heardX_sender : annX.sender.toNat / 65536 ≠ Config.clockIdentity.toNat := by
  have e : annX.sender = senderOf Config.clockIdentity := by simp only [annX]
  rw [e]; exact otherClock Config.clockIdentity
theorem noForeign (x : BitVec 80) : ∀ y ∈ ([] : List Foreign), y.ann.sender = x := fun _ h => nomatch h
theorem noForeignAt (n m : Nat) : ∀ y ∈ ([] : List Foreign), y.at' + n ≤ m := fun _ h => nomatch h
def lostM : State := { slvN with ntm.quality := 0#2 }
def lnWho : Who := (begun (rec1 .run) (reqOf []) 0x0903).1
def ln : Launch := { sec := 5, ns := 7, frame := List.replicate 60 1#8, who := lnWho }
theorem nolate (n : Nat) : ∀ x ∈ ([] : List Launch), launchNs x ≠ n := fun _ h => nomatch h
def lnState (ns : Nat) : State := { (begun (rec1 .run) (reqOf []) 0x0903).2 with ntm.queueE1 := [ln], ntm.sec := 5, ntm.ns := ns }
def lnBusy : State := { lnState 7 with ntm.p1.busyUntil := 5 }
def tReq : Req := reqOf (leBytes 6 77 ++ leBytes 2 0 ++ leBytes 4 999999999)
def uReq : Req := reqOf (leBytes 2 37 ++ [3#8, 0#8])
def lReq : Req := { reqOf ([1#8, 0#8] ++ leBytes 6 77 ++ leBytes 4 999999999) with hostLen := 1514#32 }
def wakeSt : State := { regSet (regSet (rec1 .run) 0xA 0x10C 5#32) 0xA 0x100 0xC0#32 with brk.sec := 946684801, brk.wakeDone := 946684800 * 32768 }
def evSt : State := regSet (rec1 .run) 0xA 0x120 0x1FD#32
def trimSt : State := { regSet (rec1 .run) 0xA 0x100 2#32 with brk.winOk := true, brk.winCounts := 2 ^ 33, ntm.quality := 0#2 }
def folSt (ns : Nat) : State := { regSet (rec1 .run) 0xA 0x100 0x10#32 with ntm.quality := 0#2, ntm.sec := 946684800, ntm.ns := ns }
def hand (o : BrkOp) : State := { rec1 .run with brk.handed := some o }
def expA : State := { rec1 .run with host.b.expert := 0x400#20 }
def bt : Req := reqOf (leBytes 6 77 ++ leBytes 2 5)
def pw : Req := reqOf [1#8, 0#8, 0#8, 0#8]
def canOn : State := { regSet (rec1 .run) 0xB 0x100 3#32 with cry.claim := some 2 }
def setC (s : State) (c : CanCtl) : State := setCan s 1 (fun _ => c)
def cfr : CanFrame := { id := 5#29, ide := false, fdf := false, brs := false, esi := false, remote := false, data := [1#8, 2#8], sofAgo := 7 }
def obase : Nat := canObjBase 1 3
def canRx : State := regSet (regSet (regSet canOn 0xB obase (BitVec.ofNat 32 (2^30 + 5 * 2^18))) 0xB (obase + 4) 0#32) 0xB (obase + 8) (BitVec.ofNat 32 (2 + 5 * 4096))
def ctx : CanTxF := { obj := 3, id := BitVec.ofNat 29 (5 * 2^18), ide := false, fdf := false, brs := false, oneShot := false, data := [1#8] }
def txing (te : Nat) : State := setC canOn { CanCtl.reset with cur := some ctx, txErr := te }
def ctxF : CanTxF := { ctx with fdf := true }
def txPassive : State := setC canOn { CanCtl.reset with cur := some ctxF, txErr := 130, passive := true }
def canTt : State := regSet (regSet (regSet (setC canOn { CanCtl.reset with ttSync := true }) 0xB obase (BitVec.ofNat 32 (3*2^30 + 5 * 2^18))) 0xB (obase + 8)
  (BitVec.ofNat 32 (2 + 2^11))) 0xB (0x140 + 0x40 + 0xC) (BitVec.ofNat 32 (1 + 5 * 32))
def cWho : Who := (begun (rec1 .run) (reqOf []) 0x0B02).1
def cdet (i : Nat) : CanDet := { who := cWho, dwell := 10, nominal := none, index := i }
def detSt (i : Nat) : State := { setC canOn { CanCtl.reset with det := some (cdet i) } with host := (begun (rec1 .run) (reqOf []) 0x0B02).2.host }
def c1 (a b : Nat) : Req := reqOf (leBytes 1 1 ++ leBytes 1 a ++ leBytes 2 b)
def lsn : State := regSet (regSet (rec1 .run) 0xB 0x100 3#32) 0xB 0x180 1#32
def hpS : State := regSet canRx 0xB (obase + 8) (BitVec.ofNat 32 (2 + 512))
def lchS (mode : Nat) : State := regSet (regSet (rec1 .run) 0xC 0x100 0x1F#32) 0xC 0x208 (BitVec.ofNat 32 mode)
def mtrS : State := regSet (regSet (rec1 .run) 0xD 0x100 1#32) 0xD 0x200 (BitVec.ofNat 32 (1 + 2^14 * 50))
def setF (s : State) (x : Feeder) : State := setFeeder s 0 (fun _ => x)
def cm : CycleMeas := { periodNs := 20000000, timed := false }
def failedS : State := { mtrS with mtr.chFail := 1#24 }
def sagS : State := regSet (regSet mtrS 0xD 0x20C 2300#32) 0xD 0x210 (BitVec.ofNat 32 (90 + 110 * 128))
def sagX : Feeder := { Feeder.reset with halfPrev := some { HalfSum.reset with n := 5 } }
def lat : Latched := { acc := [1,2,3,4,5], wraps := [1,2,3,4,5], seq := 7 }
def latS : State := setF mtrS { Feeder.reset with latchCut := some (lat, 9#64) }
def preq : Req := reqOf (leBytes 1 0 ++ leBytes 1 0xFF ++ leBytes 6 5 ++ leBytes 1 3)
def so (p : Nat) (w : SltWork) : SltOp := { pri := p, work := w, who := none, edge := 0#64 }
def sltS : State := { rec1 .run with slt.queue := [so 5 (.readRecord 3), so 3 (.raw 0x100 [1#8,2#8]), so 4 (.raw 0 [])] }
def sWho : Who := (begun (rec1 .run) (reqOf []) 0x0E05).1
def runS (w : SltWork) : State := { (begun (rec1 .run) (reqOf []) 0x0E05).2 with now := 500, slt.run := some { op := { pri := 5, work := w, who := some sWho, edge := 9#64 }, words := [], start := 0, finish := 501 } }
def runX (w : SltWork) : SltRun := { op := { pri := 5, work := w, who := some sWho, edge := 9#64 }, words := [], start := 0, finish := 501 }
theorem noOps : ∀ o ∈ ([] : List SltOp), isClaimOp o = false := fun _ h => nomatch h
def sr (a b : Nat) (r : List Byte) : Req := reqOf (leBytes 2 a ++ leBytes 2 b ++ r)
def rw : Req := reqOf (leBytes 4 0 ++ leBytes 2 8 ++ leBytes 2 0 ++ List.replicate 8 7#8)
def recS : State := { record (record (rec1 .run) 0x0D20 [1]) 0x0D21 [2] with now := 5000 }
def theRec : RingRec := recS.recd.ring.getLast (by decide)
def rr : Req := { reqOf (leBytes 4 0 ++ leBytes 4 2) with hostLen := 64#32 }
def rt : Req := reqOf (leBytes 2 5 ++ leBytes 2 6)
def segG (c : Nat) : ArchSeg := { tally := 1, first := 0, crc := c, slots := [] }
def arcS (c : Nat) : State := { recS with recd.archive := [segG c] }
theorem add1_ne (n : Nat) : n + 1 ≠ n := by omega
theorem segBad_of (c : Nat) (h : c ≠ crc32 (segmentSlots [])) : segmentOk (segG c) = false := beq_eq_false_iff_ne.mpr h
theorem segG_ok : segmentOk (segG (crc32 (segmentSlots []))) = true := by simp only [segmentOk, segG, beq_self_eq_true]
theorem segG_bad : segmentOk (segG (crc32 (segmentSlots []) + 1)) = false := segBad_of _ (add1_ne _)
theorem arcS_up (c : Nat) : inBoot (arcS c) = false := rfl
theorem arcS_at (c : Nat) : (arcS c).recd.archive[leAt [0#8, 0#8, 0#8, 0#8] 0 2]? = some (segG c) := rfl
def ra : Req := reqOf [0#8, 0#8, 0#8, 0#8]
def tailS : State := { rec1 .run with recd.tailQueue := [List.replicate 32 7#8], recd.tailNext := 0xFFFF#16 }
def fWho : Who := (begun recS (reqOf []) 0x0F05).1
def flS : State := { (begun recS (reqOf []) 0x0F05).2 with recd.flushes := [fWho] }
def wdS (since : Nat) (miss : Dword) : State := { regSet (regSet (rec1 .run) 0x10 0x100 0x4064#32) 0x10 0x104 10#32 with now := 50000000, wdt.since := since, wdt.reg := miss, host.a.expert := 0x10000#20 }
def evd : List Byte := evidenceOf (rec1 .run) 1 0
def clS : State := { rec1 .run with brk.evidence := evd }
def clR : Req := reqOf (leBytes 8 100)
def card1 : Card := { supported := true, speed := 0#2, exfat := true, files := [{ name := [0x41#8, 0x2E#8, 0x51#8, 0x46#8, 0x57#8], data := [1#8, 2#8] }] }
def gWho : Who := (begun (rec1 .stop) (reqOf []) 0x1102).1
def stg : Staging := { who := some gWho, slot := 1, package := [7#8] }
def stS : State := { (begun (rec1 .stop) (reqOf []) 0x1102).2 with fwu.staging := some stg, fwu.running := some 0 }
def noS : State := { rec1 .boot with fwu.noSlot := true }
def stgB : Staging := { who := none, slot := 0, package := [7#8] }
def noStg : State := { noS with fwu.staging := some stgB }
def trS : State := { regSet (rec1 .run) 0x11 0x100 10#32 with tck.begun := some 0, fwu.trial := true, fwu.running := some 0, tck.elapsed := 1000000000000, now := 1000000000000 }
def cdS : State := { rec1 .stop with fwu.card := some card1, fwu.running := some 0 }
def sg : Req := reqOf (leBytes 2 5 ++ [0#8, 0#8, 0x41#8, 0x2E#8, 0x51#8, 0x46#8, 0x57#8])
def acS : State := { rec1 .stop with fwu.running := some 0, fwu.slot1.valid := true, fwu.slot1.fails := false }
def w1 : State := { held with tck.mode := .dormant }
def w2 : State := { held with now := 10000000000 }
def w3 : State := { inMode .stop with host.b.badAccess := 255#8 }
def w4 : State := { inMode .run with tck.tick := 0xFFFFFFFFFFFFFFFF#64 }
def w5 : ReqHdr := { hdr 0x0101 with length := 65505#32 }
def w6 : Req := { reqOf [] with port := .b, slot := 7 }
def w7 : Req := { unlockReq 0x20 with port := .b }
def w8 : State := { busyCfg .stop 3 with host.a.expert := 0#20 }
def w9 : State := { transiting .hold 3 with host.a.expert := 0#20 }
def w10 : State := { inMode .run with tck.throttle := 1#2 }
def w11 : State := { inMode .run with tck.pend := some pendF }
def w12 : BootInputs := { boot with supervisorOk := false }
def w13 : State := { booted .run 0#16 with tck.pend := some pendF }
def w14 : State := { booted .stop 0x052D#16 with tck.pend := some pendF }
def w15 : State := { State.reset with tck.bootStuck := true }
def w16 : Rod := { Rod.reset with run := .waiting }
def w17 : Rod := { codeRod with delay := 1, target := some 40 }
def w18 : Rod := { codeRod with delay := 2, target := some 40 }
def w19 : Rod := { codeRod with lc := (Vector.replicate 2 0#24).set 1 1#24 }
def w20 : Rod := { codeRod with stack := [(9, 0x201#24)] }
def w21 : FqOp := { fqOpen with bursts := [.granted] }
def w22 : FqOp := { fqOpen with bursts := [.service] }
def w23 : State := { inMode .run with trk.service := [(48, 0, 0)] }
def w24 : State := { inMode .run with trk.service := [(77, 0, 0)] }
def w25 : State := { inMode .run with trk.preempted := [(3, heldBy 3)] }
def w26 : State := { inMode .stop with ldr.b.phase := .loaded }
def w27 : Bank := { prog with segs := prog2.segs }
def w28 : State := { inMode .hold with ldr.b.phase := .admitted }
def w29 : State := { inMode .stop with ldr.b.phase := .admitted }
def w30 : StLive := {gone with goodRun := 0}
def w31 : State := { sealing .compute with cry.bulk := [(3, 0), (2, 0)] }
def w32 : State := { shad with tck.tick := 0#64 }
def w33 : State := { shad with cry.lanes := 0#8, cry.readiness := 3#2, cry.readyBefore := 0#2 }
def w34 : State := { slvN with ntm.quality := 1#2, now := 10000000000000000 }
def w35 : State := { slvN with ntm.slew := -1234567 }
def w36 : State := { slvN with ntm.slew := 1234567 }
def w37 : State := { slv with ntm.utc := 0x3FFFF#20 }
def w38 : State := { wakeSt with brk.cdRun := true, brk.cd := 0 }
def w39 : State := { trimSt with brk.winOk := false }
def w40 : CanCtl := { CanCtl.reset with cur := some ctx, queue := [ctx] }
def w41 : CanCtl := { CanCtl.reset with busOff := true, recovering := true }
def w42 : CanCtl := { CanCtl.reset with rxErr := 119 }
def w43 : CanCtl := { CanCtl.reset with rxErr := 127 }
def w44 : CanCtl := { CanCtl.reset with busOff := true }
def w45 : State := { lchS 1 with lch.groupFail := 0xF#4 }
def w46 : State := { lchS 5 with lch.level := 0xFFFFFFFF#32 }
def w47 : State := { lchS 3 with lch.breaks := 0xFFFFFFFF#32 }
def w48 : State := { lchS 0x14 with lch.outs := 0xFFFFFFFF#32 }
def w49 : State := { lchS 0x14 with lch.overload := 0xFFFFFFFF#32, now := 10000000000 }
def w50 : State := { lchS 0x14 with host.b.expert := 0x1000#20 }
def w51 : HalfSum := { HalfSum.reset with n := 5 }
def w52 : Feeder := { Feeder.reset with freqValid := true }
def w53 : Feeder := { Feeder.reset with pend := [(3, 5#24)] }
def w54 : Feeder := { Feeder.reset with cyc := 50 }
def w55 : State := { mtrS with pwr.pfw := true, pwr.pfwAt := some 5 }
def w56 : State := { mtrS with pwr.pfwAt := some 5, now := 2000005, mtr.captured := true }
def w57 : State := { recS with host.b.cursor := recS.recd.head }
def w58 : State := { recS with host.b.cursor := theRec.index }
def w59 : State := { recS with host.b.winFresh := true, host.b.winData := (List.range 32).map (BitVec.ofNat 8) }
def w60 : State := { wdS 0 5#32 with now := 100000000 }
def w61 : State := { rec1 .boot with now := 100000 }

/-! ### What WellFormed refuses -/

theorem test_wf_frame_length : (Instr.canFrameReceived 0 { cfr with data := List.replicate 9 0#8 }).wf = false := by decide
theorem test_wf_frame_identifier : (Instr.canFrameReceived 0 { cfr with id := 2048#29 }).wf = false := by decide
theorem test_wf_frame_remote : (Instr.canFrameReceived 0 { cfr with fdf := true, remote := true }).wf = false := by decide
theorem test_wf_frame_brs : (Instr.canFrameReceived 0 { cfr with brs := true }).wf = false := by decide
theorem test_wf_frame : (Instr.canFrameReceived 0 cfr).wf = true := by decide
theorem test_wf_doorbell : (Instr.doorbell .a 0 (hdr 0x0101) (List.replicate 65505 0#8)).wf = false := by
  simp only [Instr.wf, List.length_replicate]; decide
theorem test_wf_request : (Instr.run (reqOf (List.replicate 65505 0#8))).wf = false := by
  simp only [Instr.wf, Req.wf, reqOf, List.length_replicate]; decide
theorem test_wf_requester : (Instr.trunkGrant [47]).wf = false := by decide
theorem test_wf_burst_requester : (Instr.trunkBurstDone 78 []).wf = false := by decide

/-! ### Values worked out by hand -/

/-- The check of the CRC-16 of R572 over the octets of "123456789". -/
theorem test_crc16_check : crc16 ([0x31, 0x32, 0x33, 0x34, 0x35, 0x36, 0x37, 0x38, 0x39] : List Byte) = 0x6F91 := by decide
/-- The check of the IEEE 802.3 frame check sequence over the same octets (R279). -/
theorem test_crc32_check : crc32 ([0x31, 0x32, 0x33, 0x34, 0x35, 0x36, 0x37, 0x38, 0x39] : List Byte) = 0xCBF43926 := by decide +kernel
/-- No row of the table has bits: no word spells a command. -/
theorem test_no_word_spells_a_command : decodeTableWord 16 0 = none := by decide
/-- 1 + 1 = 2, 1 / 3 and the square root of 2 in F32, to nearest even. -/
theorem test_float_add : fadd f32 0 0x3F800000 0x3F800000 = 0x40000000 := by decide
theorem test_float_divide : fdiv f32 0 0x3F800000 0x40400000 = 0x3EAAAAAB := by decide
theorem test_float_root : fsqrt f32 0 0x40000000 = 0x3FB504F3 := by decide +kernel
/-- A word that wraps, and one that saturates. -/
theorem test_add_wraps : aluResults (runRod 0) addP = [(.g 5, 6)] := by decide
/-- Thursday 29 February 2024, 12:34:56 (day 60 of the year). -/
theorem test_calendar_leap_day : (calendar { Brk.reset with sec := 1709210096, timeLost := false }) =
    (BitVec.ofNat 32 (2024 + 2 ^ 12 * 2 + 2 ^ 16 * 29 + 2 ^ 21 * 4), BitVec.ofNat 32 (12 + 2 ^ 5 * 34 + 2 ^ 11 * 56 + 2 ^ 17 * 60 + 2 ^ 26)) := by decide +kernel
/-- The owner word of R51: bit 31, port B in bit 16, tag 5. -/
theorem test_owner_word : (match exec (.semRead .a 0 false) held with | .next t => (portSt t .a).rdata | _ => 0#32) = 0x80010005#32 := by decide
/-- POWER_ON: mode BOOT, cause 1. -/
theorem test_power_on : (match exec .powerOn (inMode .dormant) with | .next t => (t.tck.mode, t.tck.cause) | _ => (.dormant, 0#4)) = (.boot, 1#4) := by decide +kernel
/-- A command at the front runs and leaves the queue. -/
theorem test_step_takes_the_front : (match step { inMode .run with pending := [.semRead .b 63 false, .tickEdge] } with
    | .next t => (t.pending, t.host.sems.get 63) | _ => ([], none)) = ([.tickEdge], some { port := .b, tag := 0#16 }) := by decide
/-- A nanosecond passes on an empty queue. -/
theorem test_step_idles : (match step (inMode .run) with | .next t => (t.now, t.tck.ofs) | _ => (0, 0)) = (1, 1) := by decide

/-- The state that a command answers. -/
def after (c : Instr) (s : State) : State := match exec c s with | .next t => t | _ => s
/-- R24: an edge in RUN counts the tick. -/
theorem test_edge_counts : (after .tickEdge { inMode .run with tck.tick := 0xFFFFFFFF#64 }).tck.tick = 0x100000000#64 := by decide +kernel
/-- R391: a shift of −70,000 counts from second 946,684,800 is 2 s and 4,464 counts back. -/
theorem test_shift_back : ((after .rtcShiftApply (hand (.shift (-70000)))).brk.sec, (after .rtcShiftApply (hand (.shift (-70000)))).brk.sub) = (946684797, 28304) := by decide +kernel
/-- R417: a transmit error at TEC 248 is bus-off. -/
theorem test_bus_off : ((canAt (after (.canTxError 1 .bitError) (txing 248)) 1).busOff, (canAt (after (.canTxError 1 .bitError) (txing 248)) 1).cur) = (true, none) := by decide +kernel
/-- R513: a wrong key resets the part with cause 4. -/
theorem test_bad_key : ((after (.wdtServiceWrite .a 0x5AC2#32) (wdS 0 0#32)).tck.mode, (after (.wdtServiceWrite .a 0x5AC2#32) (wdS 0 0#32)).tck.cause) = (.boot, 4#4) := by
  decide +kernel
/-- R438: a pulse of 24 ms is short. -/
theorem test_short_pulse : ((after (.s0Pulse 2 24) (lchS 6)).lch.shortCnt, (after (.s0Pulse 2 24) (lchS 6)).lch.count.get 2) = (1#16, 0#24) := by decide +kernel
/-- R307: a link whose block lock does not come has failed. -/
theorem test_lock_timeout : (linkAt (after (.linkLockTimeout 5) (lnkd .run locking)) 5).phase = .failed := by decide +kernel
/-- R345: a unit that hears nothing of its partner has lost it. -/
theorem test_partner_lost : (after .partnerLost (prun .run)).cry.partner = false := by decide +kernel
/-- R467: a word written reads back, and the byte after it does not change. -/
theorem test_slate_word : (memByte (putWord (inMode .run) (0x10, [1#8, 2#8])).slt.mem 0x11, memByte (putWord (inMode .run) (0x10, [1#8, 2#8])).slt.mem 0x18) = (2#8, 0#8) := by
  decide +kernel
/-- R521: a card that is gone. -/
theorem test_card_gone : (after (.sdCardDetect none) cdS).fwu.card = none := by decide +kernel


/-! ### Witnesses -/

/-- The hypotheses of StepRunsFrontCommand are met. -/
theorem wit_StepRunsFrontCommand : ({ inMode .run with pending := [.tickEdge, .deadline] : State }).pending = .tickEdge :: [.deadline] := rfl

/-- The hypotheses of CommandsKeepQueueAndTime and of ModeChangesOnlyAtEdgesAndResets are met. -/
theorem wit_ModeChangesOnlyAtEdgesAndResets : changesMode .bedrockResetEnd = false ∧
    exec .bedrockResetEnd { inMode .run with brk.inReset := true } = .next (inMode .run) := ⟨by decide, rfl⟩

/-- The hypotheses of SlateMemoryStaysCanonical are met. -/
theorem wit_SlateMemoryStaysCanonical : Memory.wf [(5, 1#8), (6, 2#8)] = true ∧
    step { inMode .run with slt.mem := [(5, 1#8), (6, 2#8)] } = .next (idle { inMode .run with slt.mem := [(5, 1#8), (6, 2#8)] }) := ⟨by decide, rfl⟩

/-- FirmwareEvents and FirmwareCommandsAct, a package that verifies: the hash of its public key is compared with the fused one, which has no value here, so
a package that verifies can only be assumed (log 25); with one on the card every other hypothesis is met. -/
theorem wit_Firmware_verified (p : List Byte) (h : pkgReject true p = none) :
    (([{ name := [0x41#8, 0x2E#8, 0x51#8, 0x46#8, 0x57#8], data := p }] : List CardFile).find? (fun f => (pkgReject true f.data).isNone)) =
      some { name := [0x41#8, 0x2E#8, 0x51#8, 0x46#8, 0x57#8], data := p } ∧
    cardFiles { noS with fwu.card := some { card1 with files := [{ name := [0x41#8, 0x2E#8, 0x51#8, 0x46#8, 0x57#8], data := p }] } } =
      some [{ name := [0x41#8, 0x2E#8, 0x51#8, 0x46#8, 0x57#8], data := p }] := by
  simp only [List.find?, h, Option.isNone]; exact ⟨trivial, rfl⟩

/-- NetworkTimeEvents, the second Announce of a qualified master: the identity of this unit has no value here, so the sender is named from it. -/
theorem wit_NetworkTimeEvents_qualified :
    Awake heardX ∧ ptpOn heardX true = true ∧ (ptpPort heardX true).st ≠ 1 ∧ annX.domain.toNat = ptpDomain heardX ∧ slaveOnly heardX = true ∧
    heardX.ntm.slave = none ∧ heardX.ntm.p0.best = none ∧ heardX.ntm.p1.best = none ∧
    (ptpPort heardX true).foreign = [{ ann := annX, at' := 0, prev := none }] ∧ heardX.now ≤ 0 + 4 * intervalNs heardX 4 ∧
    annX.sender.toNat / 65536 ≠ Config.clockIdentity.toNat ∧ annX.stepsRemoved.toNat < 255 ∧ (ptpPort heardX true).st ≠ 8 ∧ (ptpPort heardX true).st ≠ 9 :=
  ⟨by decide +kernel, by decide +kernel, by decide +kernel, by decide +kernel, by decide +kernel, rfl, rfl, rfl, rfl, by decide +kernel, heardX_sender,
    by decide +kernel, by decide +kernel, by decide +kernel⟩

/-- TickEdgeFreezesCutAndLaunches, the points that its clauses speak of: an output that is due, a local input, an input whose station answers and one whose
station is lost. -/
theorem wit_TickEdge_clauses :
    (smGet (pointTable (edging good none)) 8 = ioPts[1]?.map (·.2) ∧ smGet (edging good none).img.outs 8 = some outP ∧
      ioPts[1]?.map (fun e => dueOut 11 (sourcePhase (edging good none) e.2) 0) = some true ∧ outP.since ≤ 11) ∧
    (smGet (pointTable (edging good none)) 9 = ioPts[2]?.map (·.2) ∧ smGet (edging good none).img.ins 9 = some inP ∧ dueIn 11 0 0 false = true ∧
      groupEnabled (edging good none) 0 = true ∧ groupFailed (edging good none) 0 = false ∧ (edging good none).lch.breaks.getLsbD 1 = false) ∧
    (smGet (pointTable (edging good none)) 7 = ioPts[0]?.map (·.2) ∧ indexOfPath (linkAt (edging good none) 5).table [1#8] = some 0 ∧
      (liveAt (edging good none) 5 0).lost = false ∧ (liveAt (edging gone none) 5 0).lost = true ∧
      ioPts[0]?.map (fun e => dueIn 11 (sourcePhase (edging good none) e.2) 0 true) = some true ∧ inP.since + 2 ≤ 11 ∧ inP.recv = some 0xABC#24) := by
  and_intros <;> decide +kernel

/-- SegmentsStartAndBundlesIssue, class L: each of its clauses has an address that meets its premise. -/
theorem wit_Segments_clauses :
    let ofs (c : List Nat) := (rdG codeRod (sSrc1 (primAt c).w) + disp9 (primAt c)) % 2 ^ 24
    let ref (c : List Nat) := (rdG codeRod (sSrc1 (primAt c).w) + disp7 (primAt c)) % 2 ^ 24
    let seg (c : List Nat) := rdSeg codeRod (segNo (primAt c))
    ((primAt ldl).row.op = 1 ∧ ofs ldl < 524288) ∧ ((primAt stl).row.op = 2 ∧ 4 ≤ ofs stl ∧ ofs stl < 0x7C000) ∧ ((primAt stl0).row.op = 2 ∧ ofs stl0 < 4) ∧
    ((primAt ldc).row.op = 3 ∧ ldcErr (codeBank ldc) 0 (seg ldc) (ofs ldc) = none) ∧ ((primAt stc).row.op = 4 ∧ stcErr (codeBank stc) 0 (seg stc) (ofs stc) = none) ∧
    ((primAt xst).row.op = 5 ∧ xstErr (codeBank xst) (seg xst) (ofs xst) = none) ∧
    ((primAt ldi).row.op = 8 ∧ imageErr (issuing ldi codeRod) (ref ldi) false = none) ∧ ((primAt sti).row.op = 0x0A ∧ imageErr (issuing sti codeRod) (ref sti) true = none) ∧
    ((primAt fetch).row.op = 0x10 ∧ fqErr (codeBank fetch) false 0 (seg fetch) 10 (fqLen (primAt fetch)) = none) ∧
    ((primAt tst).row.op = 0x11 ∧ fqErr (codeBank tst) true 0 (seg tst) 10 (fqLen (primAt tst)) = none) := by
  and_intros <;> decide +kernel

/-- ChangeGoesThroughItsCheck, a write of ENABLE: taken, refused because a change is under way, refused because a transition is. -/
theorem wit_Change_clauses :
    (blkBusy (expert .run 7) 7 = false ∧ transPending (expert .run 7) = false) ∧ blkBusy (busyCfg .run 7) 7 = true ∧
    (blkBusy (transiting .run 0xB) 0xB = false ∧ transPending (transiting .run 0xB) = true) := by
  and_intros <;> decide +kernel

/-- The hypotheses of EmptyQueueLetsOneNanosecondPass are met, clause by clause. -/
theorem wit_EmptyQueueLetsOneNanosecondPass :
    (((inMode Mode.run).pending = []) ∧ (Awake (inMode Mode.run)) ∧ ((inMode Mode.run).slt.run = none) ∧ ((inMode Mode.run).slt.claimRun = none)) ∧
    (((inMode Mode.boot).pending = []) ∧ (Awake (inMode Mode.boot)) ∧ ((inMode Mode.boot).slt.run = none) ∧ ((inMode Mode.boot).slt.claimRun = none)) := by
  and_intros <;> decide +kernel

/-- The hypotheses of SlateWordReadsBack are met, clause by clause. -/
theorem wit_SlateWordReadsBack :
    ((Memory.wf (inMode Mode.run).slt.mem = true) ∧ (16 < sltReserved)) ∧
    ((Memory.wf (inMode Mode.run).slt.mem = true) ∧ (sltReserved ≤ sltReserved)) := by
  and_intros <;> decide +kernel

/-- The hypotheses of SemaphoreReadAcquiresOrShowsOwner are met, clause by clause. -/
theorem wit_SemaphoreReadAcquiresOrShowsOwner :
    ((Answers (inMode Mode.stop) Port.a) ∧ ((inMode Mode.stop).host.sems.get 63 = none)) ∧
    ((Answers held Port.a) ∧ (held.host.sems.get 0 = some { port := Port.b, tag := 5#16 : SemOwner })) ∧
    ((Answers (inMode Mode.run) Port.a) ∧ ((inMode Mode.run).host.sems.get 7 = none)) := by
  and_intros <;> decide +kernel

/-- The hypotheses of SemaphoreReleaseRules are met, clause by clause. -/
theorem wit_SemaphoreReleaseRules :
    ((Answers held Port.b) ∧ (held.host.sems.get 0 = some { port := Port.b, tag := 5#16 : SemOwner }) ∧ ({ port := Port.b, tag := 5#16 : SemOwner }.port = Port.b)) ∧
    ((Answers held Port.a) ∧ (∀ (o : SemOwner), held.host.sems.get 0 = some o → o.port ≠ Port.a)) ∧
    ((Awake held) ∧ ({ port := Port.b, perst := none : PortReset }.perst ≠ some false)) ∧
    ((Awake held) ∧ (Instr.resetNPin ∈ [Instr.resetNPin, Instr.undervoltageReset, Instr.lockstepMismatch])) ∧
    (w1.tck.mode = Mode.dormant) ∧
    ((Awake held) ∧ (Quiet held) ∧ (Begins held (reqOf []) 518)) ∧
    ((Awake w2) ∧ (wdtT w2 ≤ wdtCount w2)) := by
  and_intros <;> decide +kernel

/-- The hypotheses of RefusedAccessesAreCounted are met, clause by clause. -/
theorem wit_RefusedAccessesAreCounted :
    (Answers (inMode Mode.stop) Port.a) ∧
    (Answers (inMode Mode.shadow) Port.b) ∧
    ((Answers (inMode Mode.stop) Port.a) ∧ (mailboxUp (inMode Mode.stop) = true)) ∧
    ((Answers (inMode Mode.stop) Port.a) ∧ (1 ≤ blkOf 33024#20) ∧ (blkOf 33024#20 ≤ 19) ∧ (inWindow 33024#20 % 4 = 0) ∧ ((portSt (inMode Mode.stop)
      Port.a).expert.getLsbD (blkOf 33024#20) = false)) ∧
    ((Answers (inMode Mode.stop) Port.a) ∧ (1 ≤ blkOf 622852#20) ∧ (blkOf 622852#20 ≤ 19) ∧ (inWindow 622852#20 % 4 = 0) ∧ ((portSt (inMode Mode.stop)
      Port.a).expert.getLsbD (blkOf 622852#20) = false)) := by
  and_intros <;> decide +kernel

/-- The hypotheses of StagedWritesReachStageCopy are met, clause by clause. -/
theorem wit_StagedWritesReachStageCopy :
    ((Serving (expert Mode.stop 9)) ∧ (Answers (expert Mode.stop 9) Port.a) ∧ ((portSt (expert Mode.stop 9) Port.a).expert.getLsbD (blkOf 295172#20) = true) ∧ (1 ≤ blkOf
      295172#20) ∧ (blkOf 295172#20 ≤ 19) ∧ (inWindow 295172#20 % 4 = 0) ∧ (256 ≤ inWindow 295172#20) ∧ (regDef (blkOf 295172#20) (inWindow 295172#20) = some (reg 260 4
      1 65535 0 0 0 0 12304)) ∧ ((reg 260 4 1 65535 0 0 0 0 12304).live = 0) ∧ ((reg 260 4 1 65535 0 0 0 0 12304).rw = 0) ∧ ((reg 260 4 1 65535 0 0 0 0 12304).staged ≠
      0) ∧ (inWindow 295172#20 = 256 → (fileReg (blkCfg (expert Mode.stop 9) (blkOf 295172#20)).stage (blkOf 295172#20) 256 ^^^ 17185#32) &&& enableMask (blkOf
      295172#20) = 0#32)) ∧
    ((7 ∈ [7, 11, 12, 13]) ∧ (Serving (expert Mode.stop 7)) ∧ (Answers (expert Mode.stop 7) Port.a) ∧ ((portSt (expert Mode.stop 7) Port.a).expert.getLsbD 7 = true) ∧
      (blkBusy (expert Mode.stop 7) 7 = false) ∧ (transPending (expert Mode.stop 7) = false) ∧ ((fileReg (blkCfg (expert Mode.stop 7) 7).stage 7 256 ^^^ 8388609#32) &&&
      enableMask 7 ≠ 0#32)) ∧
    ((13 ∈ [7, 11, 12, 13]) ∧ (Serving (expert Mode.stop 13)) ∧ (Answers (expert Mode.stop 13) Port.a) ∧ ((portSt (expert Mode.stop 13) Port.a).expert.getLsbD 13 = true)
      ∧ (blkBusy (expert Mode.stop 13) 13 = false) ∧ (transPending (expert Mode.stop 13) = false) ∧ ((fileReg (blkCfg (expert Mode.stop 13) 13).stage 13 256 ^^^ 1#32)
      &&& enableMask 13 ≠ 0#32)) := by
  and_intros <;> decide +kernel

/-- The hypotheses of ChangeGoesThroughItsCheck are met, clause by clause. -/
theorem wit_ChangeGoesThroughItsCheck :
    ((Serving (expert Mode.run 1)) ∧ (Answers (expert Mode.run 1) Port.a) ∧ (1 ≤ ↑1) ∧ ((portSt (expert Mode.run 1) Port.a).expert.getLsbD ↑1 = true) ∧ (blkBusy (expert
      Mode.run 1) ↑1 = false) ∧ (transPending (expert Mode.run 1) = false)) ∧
    ((Serving (busyCfg Mode.run 19)) ∧ (Answers (busyCfg Mode.run 19) Port.a) ∧ (1 ≤ ↑19) ∧ ((portSt (busyCfg Mode.run 19) Port.a).expert.getLsbD ↑19 = true) ∧ (blkBusy
      (busyCfg Mode.run 19) ↑19 = true)) ∧
    ((Serving (transiting Mode.run 2)) ∧ (Answers (transiting Mode.run 2) Port.a) ∧ (1 ≤ ↑2) ∧ ((portSt (transiting Mode.run 2) Port.a).expert.getLsbD ↑2 = true) ∧
      (blkBusy (transiting Mode.run 2) ↑2 = false) ∧ (transPending (transiting Mode.run 2) = true)) ∧
    ((Serving (busyCfg Mode.run 2)) ∧ (Answers (busyCfg Mode.run 2) Port.a) ∧ (1 ≤ ↑2) ∧ ((portSt (busyCfg Mode.run 2) Port.a).expert.getLsbD ↑2 = true)) ∧
    ((Serving (expert Mode.run 2)) ∧ (Answers (expert Mode.run 2) Port.a) ∧ (1 ≤ ↑2) ∧ ((portSt (expert Mode.run 2) Port.a).expert.getLsbD ↑2 = true)) ∧
    (((blkCfg (busyCfg Mode.run 2) ↑2).check = some { copy := (blkCfg (expert Mode.run 2) 2).stage, work := CfgWork.commit, discard := false : Check }) ∧ ({ copy := (blkCfg (expert Mode.run 2) 2).stage, work := CfgWork.commit, discard := false : Check }.work
      = CfgWork.commit) ∧ (workCheck (busyCfg Mode.run 2) ↑2 { copy := (blkCfg (expert Mode.run 2) 2).stage, work := CfgWork.commit, discard := false : Check }.copy { copy := (blkCfg (expert Mode.run 2) 2).stage, work := CfgWork.commit, discard := false : Check }.work
      = none)) ∧
    (((blkCfg badCfg ↑7).check = some { copy := [(512, 4294967295#32)], work := CfgWork.commit, discard := false : Check }) ∧ ({ copy := [(512, 4294967295#32)], work := CfgWork.commit, discard := false : Check }.work
      = CfgWork.commit) ∧ (workCheck badCfg ↑7 { copy := [(512, 4294967295#32)], work := CfgWork.commit, discard := false : Check }.copy { copy := [(512, 4294967295#32)], work := CfgWork.commit, discard := false : Check }.work
      = some 1796) ∧ ((blkCfg badCfg ↑7).pend = none)) ∧
    ((7 ∈ [7, 11, 12, 13]) ∧ (Serving (expert Mode.run 7)) ∧ (Answers (expert Mode.run 7) Port.a) ∧ ((portSt (expert Mode.run 7) Port.a).expert.getLsbD 7 = true) ∧
      ((fileReg (blkCfg (expert Mode.run 7) 7).stage 7 256 ^^^ 1#32) &&& enableMask 7 ≠ 0#32)) ∧
    ((7 ∈ [7, 11, 12, 13]) ∧ (Serving (busyCfg Mode.run 7)) ∧ (Answers (busyCfg Mode.run 7) Port.a) ∧ ((portSt (busyCfg Mode.run 7) Port.a).expert.getLsbD 7 = true) ∧
      ((fileReg (blkCfg (busyCfg Mode.run 7) 7).stage 7 256 ^^^ 1#32) &&& enableMask 7 ≠ 0#32)) ∧
    ((11 ∈ [7, 11, 12, 13]) ∧ (Serving (transiting Mode.run 11)) ∧ (Answers (transiting Mode.run 11) Port.a) ∧ ((portSt (transiting Mode.run 11) Port.a).expert.getLsbD
      11 = true) ∧ ((fileReg (blkCfg (transiting Mode.run 11) 11).stage 11 256 ^^^ 1#32) &&& enableMask 11 ≠ 0#32)) := by
  and_intros <;> decide +kernel

/-- The hypotheses of PortRegistersHaveTheirSideEffects are met, clause by clause. -/
theorem wit_PortRegistersHaveTheirSideEffects :
    (Answers (inMode Mode.boot) Port.b) ∧
    (Answers w3 Port.b) ∧
    (Answers w4 Port.b) := by
  and_intros <;> decide +kernel

/-- The hypotheses of RequestAreaHoldsHeaderAndPayload are met, clause by clause. -/
theorem wit_RequestAreaHoldsHeaderAndPayload :
    ([1#8, 2#8].length ≤ 65504) ∧
    (([1#8, 2#8].length ≤ 65504) ∧ (((portSt (inMode Mode.stop) Port.b).slots.get 31).busy = none) ∧ (1 < 65504)) ∧
    (([1#8, 2#8].length ≤ 65504) ∧ (((portSt (inMode Mode.stop) Port.b).slots.get 31).busy = none) ∧ (31 < 32)) ∧
    ((((portSt answered Port.b).slots.get 31).response = some theResponse) ∧ (65535 < 65536)) ∧
    ((((portSt answered Port.b).slots.get 31).response = some theResponse) ∧ (2 < 65536)) := by
  and_intros <;> decide +kernel

/-- The hypotheses of DoorbellQueuesOrRefuses are met, clause by clause. -/
theorem wit_DoorbellQueuesOrRefuses :
    ((([] : List Byte).length ≤ 65504) ∧ (mailboxUp bootUp = true) ∧ (Answers bootUp Port.a) ∧ (((portSt bootUp Port.a).slots.get 31).busy = none) ∧ (bootUp.host.queue =
      [] ∧ badRequest (hdr 4357) = none)) ∧
    ((([] : List Byte).length ≤ 65504) ∧ (mailboxUp queued = true) ∧ (Answers queued Port.a) ∧ (((portSt queued Port.a).slots.get 7).busy = none) ∧ (queued.host.queue =
      [{ port := Port.b, slot := 7, id := 1 : Queued }]) ∧ (¬({ port := Port.b, slot := 7, id := 1 : Queued }.port = Port.a ∧ { port := Port.b, slot := 7, id := 1 : Queued }.slot
      = 7)) ∧ (badRequest (hdrOf (requestArea queued { port := Port.b, slot := 7, id := 1 : Queued }.port { port := Port.b, slot := 7, id := 1 : Queued }.slot)) = none)) ∧
    ((([] : List Byte).length ≤ 65504) ∧ (mailboxUp bootUp = true) ∧ (Answers bootUp Port.a) ∧ (((portSt bootUp Port.a).slots.get 31).busy = none) ∧ (bootUp.host.queue =
      []) ∧ (headerWrong (hdr 263) = true ∨ commandCodes.contains (hdr 263).code.toNat = false)) ∧
    ((([] : List Byte).length ≤ 65504) ∧ (mailboxUp bootUp = true) ∧ (Answers bootUp Port.a) ∧ (((portSt bootUp Port.a).slots.get 31).busy = none) ∧ (bootUp.host.queue =
      []) ∧ (headerWrong w5 = true ∨ commandCodes.contains w5.code.toNat = false)) ∧
    ((([] : List Byte).length ≤ 65504) ∧ (mailboxUp (busySlot Mode.stop) = true) ∧ (Answers (busySlot Mode.stop) Port.a) ∧ (((portSt (busySlot Mode.stop)
      Port.a).slots.get 3).busy.isSome = true)) ∧
    ((([] : List Byte).length ≤ 65504) ∧ (mailboxUp (inMode Mode.boot) = false ∨ (portSt (inMode Mode.boot) Port.a).d3hot = true ∨ (portSt (inMode Mode.boot)
      Port.a).perst = true)) := by
  and_intros <;> decide +kernel

/-- The hypotheses of RequestsStartInOrder are met, clause by clause. -/
theorem wit_RequestsStartInOrder :
    ((mailboxUp (inMode Mode.run) = true) ∧ (commandCodes.contains 4357 = true) ∧ ((reqOf [1#8]).payload.length ≤ 65504) ∧ (Answers (inMode Mode.run) (reqOf [1#8]).port)
      ∧ ((inMode Mode.run).host.queue = []) ∧ (((portSt (inMode Mode.run) (reqOf [1#8]).port).slots.get (reqOf [1#8]).slot).busy = none)) ∧
    ((mailboxUp queued = true) ∧ (queued.host.queue = [{ port := Port.b, slot := 7, id := 1 : Queued }]) ∧ (((portSt queued { port := Port.b, slot := 7, id := 1 : Queued }.port).slots.get
      { port := Port.b, slot := 7, id := 1 : Queued }.slot).busy = some { port := Port.b, slot := 7, id := 1 : Queued }.id) ∧ (∀ (x : Queued), x ∈ [] → ¬(x.port = { port := Port.b, slot := 7, id := 1 : Queued }.port
      ∧ x.slot = { port := Port.b, slot := 7, id := 1 : Queued }.slot)) ∧ ({ port := Port.b, slot := 7, id := 1 : Queued }.port = w6.port) ∧ ({ port := Port.b, slot := 7, id := 1 : Queued }.slot
      = w6.slot) ∧ ((hdrOf (requestArea queued { port := Port.b, slot := 7, id := 1 : Queued }.port { port := Port.b, slot := 7, id := 1 : Queued }.slot)).code.toNat =
      260)) ∧
    ((isMailboxRow (Instr.crySwitchover (reqOf [])) = true) ∧ (mailboxUp (inMode Mode.boot) = false)) := by
  and_intros <;> decide +kernel

/-- The hypotheses of ReadCommandsAnswer are met, clause by clause. -/
theorem wit_ReadCommandsAnswer :
    ((Awake bootUp) ∧ ((reqOf [0#8]).payload ≠ []) ∧ (Begins bootUp (reqOf [0#8]) 257)) ∧
    ((Awake bootUp) ∧ ((reqOf []).payload = []) ∧ (Begins bootUp (reqOf []) 257)) ∧
    ((Awake (inMode Mode.shadow)) ∧ (1 ≤ 19) ∧ (19 ≤ 19) ∧ (32764 < 32768) ∧ (32764 % 4 = 0) ∧ ((reqOf (leBytes 1 19 ++ leBytes 3 0 ++ leBytes 4 32764)).payload =
      leBytes 1 19 ++ leBytes 3 0 ++ leBytes 4 32764) ∧ (Begins (inMode Mode.shadow) (reqOf (leBytes 1 19 ++ leBytes 3 0 ++ leBytes 4 32764)) 260)) ∧
    ((Awake (inMode Mode.shadow)) ∧ (1 ≤ 19) ∧ (19 ≤ 19) ∧ (32764 < 32768) ∧ (32764 % 4 = 0) ∧ ((reqOf (leBytes 1 19 ++ leBytes 3 0 ++ leBytes 4 32764)).payload =
      leBytes 1 19 ++ leBytes 3 0 ++ leBytes 4 32764) ∧ (Begins (inMode Mode.shadow) (reqOf (leBytes 1 19 ++ leBytes 3 0 ++ leBytes 4 32764)) 262)) ∧
    ((Awake (inMode Mode.run)) ∧ (1 ≤ 1) ∧ (1 ≤ 19) ∧ (0 < 32768) ∧ (0 % 4 = 0) ∧ ((reqOf (leBytes 1 1 ++ leBytes 3 0 ++ leBytes 4 0)).payload = leBytes 1 1 ++ leBytes 3
      0 ++ leBytes 4 0) ∧ (Begins (inMode Mode.run) (reqOf (leBytes 1 1 ++ leBytes 3 0 ++ leBytes 4 0)) 260)) ∧
    ((Awake (inMode Mode.run)) ∧ (1 ≤ 1) ∧ (1 ≤ 19) ∧ (0 < 32768) ∧ (0 % 4 = 0) ∧ ((reqOf (leBytes 1 1 ++ leBytes 3 0 ++ leBytes 4 0)).payload = leBytes 1 1 ++ leBytes 3
      0 ++ leBytes 4 0) ∧ (Begins (inMode Mode.run) (reqOf (leBytes 1 1 ++ leBytes 3 0 ++ leBytes 4 0)) 262)) := by
  and_intros <;> decide +kernel

/-- The hypotheses of ExpertAccessIsGrantedAndEnds are met, clause by clause. -/
theorem wit_ExpertAccessIsGrantedAndEnds :
    ((Serving (inMode Mode.hold)) ∧ ((unlockReq 524288).payload.length = 8) ∧ (leAt (unlockReq 524288).payload 4 4 = 1163415636) ∧ (maskOutside (leAt (unlockReq
      524288).payload 0 4) = false) ∧ ((portSt (inMode Mode.hold) (otherPort (unlockReq 524288).port)).expert &&& BitVec.ofNat 20 (leAt (unlockReq 524288).payload 0 4) =
      0#20) ∧ (Begins (inMode Mode.hold) (unlockReq 524288) 258)) ∧
    ((Awake (expert Mode.shadow 19)) ∧ ((reqOf (leBytes 4 524290)).payload.length = 4) ∧ (maskOutside (leAt (reqOf (leBytes 4 524290)).payload 0 4) = false) ∧ (Begins
      (expert Mode.shadow 19) (reqOf (leBytes 4 524290)) 259)) ∧
    ((Awake (inMode Mode.shadow)) ∧ ((if inBootOrShadow (inMode Mode.shadow) = true then 259 else if (unlockReq 2).payload.length ≠ 8 then 265 else if leAt (unlockReq
      2).payload 4 4 ≠ 1163415636 then 261 else if maskOutside (leAt (unlockReq 2).payload 0 4) = true then 264 else if (portSt (inMode Mode.shadow) (otherPort
      (unlockReq 2).port)).expert &&& BitVec.ofNat 20 (leAt (unlockReq 2).payload 0 4) ≠ 0#20 then 260 else 0) ≠ 0) ∧ (Begins (inMode Mode.shadow) (unlockReq 2) 258)) ∧
    ((Awake (inMode Mode.stop)) ∧ ((if inBootOrShadow (inMode Mode.stop) = true then 259 else if (reqOf []).payload.length ≠ 8 then 265 else if leAt (reqOf []).payload 4
      4 ≠ 1163415636 then 261 else if maskOutside (leAt (reqOf []).payload 0 4) = true then 264 else if (portSt (inMode Mode.stop) (otherPort (reqOf []).port)).expert
      &&& BitVec.ofNat 20 (leAt (reqOf []).payload 0 4) ≠ 0#20 then 260 else 0) ≠ 0) ∧ (Begins (inMode Mode.stop) (reqOf []) 258)) ∧
    ((Awake (inMode Mode.stop)) ∧ ((if inBootOrShadow (inMode Mode.stop) = true then 259 else if (reqOf (leBytes 8 2)).payload.length ≠ 8 then 265 else if leAt (reqOf
      (leBytes 8 2)).payload 4 4 ≠ 1163415636 then 261 else if maskOutside (leAt (reqOf (leBytes 8 2)).payload 0 4) = true then 264 else if (portSt (inMode Mode.stop)
      (otherPort (reqOf (leBytes 8 2)).port)).expert &&& BitVec.ofNat 20 (leAt (reqOf (leBytes 8 2)).payload 0 4) ≠ 0#20 then 260 else 0) ≠ 0) ∧ (Begins (inMode
      Mode.stop) (reqOf (leBytes 8 2)) 258)) ∧
    ((Awake (inMode Mode.stop)) ∧ ((if inBootOrShadow (inMode Mode.stop) = true then 259 else if (unlockReq 1048576).payload.length ≠ 8 then 265 else if leAt (unlockReq
      1048576).payload 4 4 ≠ 1163415636 then 261 else if maskOutside (leAt (unlockReq 1048576).payload 0 4) = true then 264 else if (portSt (inMode Mode.stop) (otherPort
      (unlockReq 1048576).port)).expert &&& BitVec.ofNat 20 (leAt (unlockReq 1048576).payload 0 4) ≠ 0#20 then 260 else 0) ≠ 0) ∧ (Begins (inMode Mode.stop) (unlockReq
      1048576) 258)) ∧
    ((Awake (expert Mode.stop 5)) ∧ ((if inBootOrShadow (expert Mode.stop 5) = true then 259 else if w7.payload.length ≠ 8 then 265 else if leAt w7.payload 4 4 ≠
      1163415636 then 261 else if maskOutside (leAt w7.payload 0 4) = true then 264 else if (portSt (expert Mode.stop 5) (otherPort w7.port)).expert &&& BitVec.ofNat 20
      (leAt w7.payload 0 4) ≠ 0#20 then 260 else 0) ≠ 0) ∧ (Begins (expert Mode.stop 5) w7 258)) := by
  and_intros <;> decide +kernel

/-- The hypotheses of SetConfigStartsCheckOrIsRefused are met, clause by clause. -/
theorem wit_SetConfigStartsCheckOrIsRefused :
    ((Serving (inMode Mode.stop)) ∧ (16 ≤ (setReq 3).payload.length) ∧ (((setReq 3).payload.length - 4) % 12 = 0) ∧ (leAt (setReq 3).payload 1 3 = 0) ∧ (1 ≤ leAt (setReq
      3).payload 0 1) ∧ (leAt (setReq 3).payload 0 1 ≤ 19) ∧ ((entriesOf (List.drop 4 (setReq 3).payload)).any (entryBad (leAt (setReq 3).payload 0 1)) = false) ∧
      (expertHeld (inMode Mode.stop) Port.a (leAt (setReq 3).payload 0 1) = false) ∧ (expertHeld (inMode Mode.stop) Port.b (leAt (setReq 3).payload 0 1) = false) ∧
      (blkBusy (inMode Mode.stop) (leAt (setReq 3).payload 0 1) = false) ∧ (transPending (inMode Mode.stop) = false) ∧ (Begins (inMode Mode.stop) (setReq 3) 261)) ∧
    ((Awake (inMode Mode.shadow)) ∧ ((if inBootOrShadow (inMode Mode.shadow) = true then 259 else if (setReq 3).payload.length < 16 ∨ ((setReq 3).payload.length - 4) %
      12 ≠ 0 ∨ leAt (setReq 3).payload 1 3 ≠ 0 then 265 else if leAt (setReq 3).payload 0 1 = 0 ∨ leAt (setReq 3).payload 0 1 > 19 then 264 else if (entriesOf (List.drop
      4 (setReq 3).payload)).any (entryBad (leAt (setReq 3).payload 0 1)) = true then 263 else if expertHeld (inMode Mode.shadow) Port.a (leAt (setReq 3).payload 0 1) =
      true ∨ expertHeld (inMode Mode.shadow) Port.b (leAt (setReq 3).payload 0 1) = true then 256 * leAt (setReq 3).payload 0 1 + 242 else if blkBusy (inMode
      Mode.shadow) (leAt (setReq 3).payload 0 1) = true then 256 * leAt (setReq 3).payload 0 1 + 240 else if transPending (inMode Mode.shadow) = true then 256 * leAt
      (setReq 3).payload 0 1 + 241 else 0) ≠ 0) ∧ (Begins (inMode Mode.shadow) (setReq 3) 261)) ∧
    ((Awake (inMode Mode.stop)) ∧ ((if inBootOrShadow (inMode Mode.stop) = true then 259 else if (reqOf []).payload.length < 16 ∨ ((reqOf []).payload.length - 4) % 12 ≠
      0 ∨ leAt (reqOf []).payload 1 3 ≠ 0 then 265 else if leAt (reqOf []).payload 0 1 = 0 ∨ leAt (reqOf []).payload 0 1 > 19 then 264 else if (entriesOf (List.drop 4
      (reqOf []).payload)).any (entryBad (leAt (reqOf []).payload 0 1)) = true then 263 else if expertHeld (inMode Mode.stop) Port.a (leAt (reqOf []).payload 0 1) = true
      ∨ expertHeld (inMode Mode.stop) Port.b (leAt (reqOf []).payload 0 1) = true then 256 * leAt (reqOf []).payload 0 1 + 242 else if blkBusy (inMode Mode.stop) (leAt
      (reqOf []).payload 0 1) = true then 256 * leAt (reqOf []).payload 0 1 + 240 else if transPending (inMode Mode.stop) = true then 256 * leAt (reqOf []).payload 0 1 +
      241 else 0) ≠ 0) ∧ (Begins (inMode Mode.stop) (reqOf []) 261)) ∧
    ((Awake (inMode Mode.stop)) ∧ ((if inBootOrShadow (inMode Mode.stop) = true then 259 else if (setReq 20).payload.length < 16 ∨ ((setReq 20).payload.length - 4) % 12
      ≠ 0 ∨ leAt (setReq 20).payload 1 3 ≠ 0 then 265 else if leAt (setReq 20).payload 0 1 = 0 ∨ leAt (setReq 20).payload 0 1 > 19 then 264 else if (entriesOf (List.drop
      4 (setReq 20).payload)).any (entryBad (leAt (setReq 20).payload 0 1)) = true then 263 else if expertHeld (inMode Mode.stop) Port.a (leAt (setReq 20).payload 0 1) =
      true ∨ expertHeld (inMode Mode.stop) Port.b (leAt (setReq 20).payload 0 1) = true then 256 * leAt (setReq 20).payload 0 1 + 242 else if blkBusy (inMode Mode.stop)
      (leAt (setReq 20).payload 0 1) = true then 256 * leAt (setReq 20).payload 0 1 + 240 else if transPending (inMode Mode.stop) = true then 256 * leAt (setReq
      20).payload 0 1 + 241 else 0) ≠ 0) ∧ (Begins (inMode Mode.stop) (setReq 20) 261)) ∧
    ((Awake (inMode Mode.stop)) ∧ ((if inBootOrShadow (inMode Mode.stop) = true then 259 else if (setReq 1).payload.length < 16 ∨ ((setReq 1).payload.length - 4) % 12 ≠
      0 ∨ leAt (setReq 1).payload 1 3 ≠ 0 then 265 else if leAt (setReq 1).payload 0 1 = 0 ∨ leAt (setReq 1).payload 0 1 > 19 then 264 else if (entriesOf (List.drop 4
      (setReq 1).payload)).any (entryBad (leAt (setReq 1).payload 0 1)) = true then 263 else if expertHeld (inMode Mode.stop) Port.a (leAt (setReq 1).payload 0 1) = true
      ∨ expertHeld (inMode Mode.stop) Port.b (leAt (setReq 1).payload 0 1) = true then 256 * leAt (setReq 1).payload 0 1 + 242 else if blkBusy (inMode Mode.stop) (leAt
      (setReq 1).payload 0 1) = true then 256 * leAt (setReq 1).payload 0 1 + 240 else if transPending (inMode Mode.stop) = true then 256 * leAt (setReq 1).payload 0 1 +
      241 else 0) ≠ 0) ∧ (Begins (inMode Mode.stop) (setReq 1) 261)) ∧
    ((Awake (expert Mode.stop 3)) ∧ ((if inBootOrShadow (expert Mode.stop 3) = true then 259 else if (setReq 3).payload.length < 16 ∨ ((setReq 3).payload.length - 4) %
      12 ≠ 0 ∨ leAt (setReq 3).payload 1 3 ≠ 0 then 265 else if leAt (setReq 3).payload 0 1 = 0 ∨ leAt (setReq 3).payload 0 1 > 19 then 264 else if (entriesOf (List.drop
      4 (setReq 3).payload)).any (entryBad (leAt (setReq 3).payload 0 1)) = true then 263 else if expertHeld (expert Mode.stop 3) Port.a (leAt (setReq 3).payload 0 1) =
      true ∨ expertHeld (expert Mode.stop 3) Port.b (leAt (setReq 3).payload 0 1) = true then 256 * leAt (setReq 3).payload 0 1 + 242 else if blkBusy (expert Mode.stop
      3) (leAt (setReq 3).payload 0 1) = true then 256 * leAt (setReq 3).payload 0 1 + 240 else if transPending (expert Mode.stop 3) = true then 256 * leAt (setReq
      3).payload 0 1 + 241 else 0) ≠ 0) ∧ (Begins (expert Mode.stop 3) (setReq 3) 261)) ∧
    ((Awake w8) ∧ ((if inBootOrShadow w8 = true then 259 else if (setReq 3).payload.length < 16 ∨ ((setReq 3).payload.length - 4) % 12 ≠ 0 ∨ leAt (setReq 3).payload 1 3
      ≠ 0 then 265 else if leAt (setReq 3).payload 0 1 = 0 ∨ leAt (setReq 3).payload 0 1 > 19 then 264 else if (entriesOf (List.drop 4 (setReq 3).payload)).any (entryBad
      (leAt (setReq 3).payload 0 1)) = true then 263 else if expertHeld w8 Port.a (leAt (setReq 3).payload 0 1) = true ∨ expertHeld w8 Port.b (leAt (setReq 3).payload 0
      1) = true then 256 * leAt (setReq 3).payload 0 1 + 242 else if blkBusy w8 (leAt (setReq 3).payload 0 1) = true then 256 * leAt (setReq 3).payload 0 1 + 240 else if
      transPending w8 = true then 256 * leAt (setReq 3).payload 0 1 + 241 else 0) ≠ 0) ∧ (Begins w8 (setReq 3) 261)) ∧
    ((Awake w9) ∧ ((if inBootOrShadow w9 = true then 259 else if (setReq 3).payload.length < 16 ∨ ((setReq 3).payload.length - 4) % 12 ≠ 0 ∨ leAt (setReq 3).payload 1 3
      ≠ 0 then 265 else if leAt (setReq 3).payload 0 1 = 0 ∨ leAt (setReq 3).payload 0 1 > 19 then 264 else if (entriesOf (List.drop 4 (setReq 3).payload)).any (entryBad
      (leAt (setReq 3).payload 0 1)) = true then 263 else if expertHeld w9 Port.a (leAt (setReq 3).payload 0 1) = true ∨ expertHeld w9 Port.b (leAt (setReq 3).payload 0
      1) = true then 256 * leAt (setReq 3).payload 0 1 + 242 else if blkBusy w9 (leAt (setReq 3).payload 0 1) = true then 256 * leAt (setReq 3).payload 0 1 + 240 else if
      transPending w9 = true then 256 * leAt (setReq 3).payload 0 1 + 241 else 0) ≠ 0) ∧ (Begins w9 (setReq 3) 261)) := by
  and_intros <;> decide +kernel

/-- The hypotheses of ForcesWaitAndTransfersEnd are met, clause by clause. -/
theorem wit_ForcesWaitAndTransfersEnd :
    ((Serving (loaded Mode.run)) ∧ ((loaded Mode.run).ldr.inForce.isSome = true) ∧ (forcePayBad forceReq.payload 12 = false) ∧ (Begins (loaded Mode.run) forceReq 769)) ∧
    ((Serving (loaded Mode.run)) ∧ ((loaded Mode.run).ldr.inForce.isSome = true) ∧ (forcePayBad (reqOf (leBytes 4 7)).payload 4 = false) ∧ (Begins (loaded Mode.run)
      (reqOf (leBytes 4 7)) 770)) ∧
    ((Serving (loaded Mode.run)) ∧ ((reqOf []).payload = []) ∧ (Begins (loaded Mode.run) (reqOf []) 771)) ∧
    ((Serving (loaded Mode.run)) ∧ ((reqOf (leBytes 4 7)).payload.length = 4) ∧ (Begins (loaded Mode.run) (reqOf (leBytes 4 7)) 772)) ∧
    ((Serving (loading Mode.stop)) ∧ (dataReq.payload.length = 4) ∧ (leAt dataReq.payload 0 4 < 2 ^ 29) ∧ (0 < dataReq.hostLen.toNat) ∧ (dataReq.hostLen.toNat ≤
      16777216) ∧ (bankTaken (loading Mode.stop) false BankId.a = false) ∧ ((bankSt (loading Mode.stop) BankId.a).phase = BankPhase.loading) ∧ (leAt dataReq.payload 0 4
      + dataReq.hostLen.toNat ≤ (bankSt (loading Mode.stop) BankId.a).length) ∧ (Begins (loading Mode.stop) dataReq 1282)) ∧
    ((List.find? (fun y => y.who.port == theXfer.who.port && y.who.slot == theXfer.who.slot) xferred.host.xfers = some theXfer) ∧ (theXfer.kind = XferKind.load BankId.a
      32) ∧ (((portSt xferred theXfer.who.port).slots.get theXfer.who.slot).busy = some theXfer.who.id) ∧ ((bankSt xferred BankId.a).phase = BankPhase.loading) ∧ (32 +
      theXfer.len ≤ (bankSt xferred BankId.a).length)) ∧
    ((List.find? (fun y => y.who.port == outXfer.who.port && y.who.slot == outXfer.who.slot) sending.host.xfers = some outXfer) ∧ (outXfer.kind = XferKind.toHost [1#8])
      ∧ (((portSt sending outXfer.who.port).slots.get outXfer.who.slot).busy = some outXfer.who.id)) := by
  and_intros <;> decide +kernel

/-- The hypotheses of PortResetClearsOnePort are met, clause by clause. -/
theorem wit_PortResetClearsOnePort :
    ((Awake (busyCfg Mode.run 3)) ∧ (none ≠ some false)) ∧
    ((Awake xferred) ∧ (none ≠ some false)) ∧
    ((Awake xferred) ∧ (some true ≠ some false)) := by
  and_intros <;> decide +kernel

/-- The hypotheses of ModeCommandsWaitForTheEdge are met, clause by clause. -/
theorem wit_ModeCommandsWaitForTheEdge :
    ((Quiet (inMode Mode.hold)) ∧ ((inMode Mode.hold).tck.mode = Mode.hold ∨ (inMode Mode.hold).tck.mode = Mode.stop ∧ (inMode Mode.hold).tck.fault = 0#16 ∧ (inMode
      Mode.hold).tck.acked = none ∧ (inMode Mode.hold).pwr.railHeld = none ∧ runAllowed (inMode Mode.hold) = true) ∧ (Begins (inMode Mode.hold) (reqOf []) 513)) ∧
    ((Quiet (loaded Mode.stop)) ∧ ((loaded Mode.stop).tck.mode = Mode.hold ∨ (loaded Mode.stop).tck.mode = Mode.stop ∧ (loaded Mode.stop).tck.fault = 0#16 ∧ (loaded
      Mode.stop).tck.acked = none ∧ (loaded Mode.stop).pwr.railHeld = none ∧ runAllowed (loaded Mode.stop) = true) ∧ (Begins (loaded Mode.stop) (reqOf []) 513)) ∧
    ((Quiet (inMode Mode.shadow)) ∧ ((inMode Mode.shadow).tck.mode = Mode.run ∨ (inMode Mode.shadow).tck.mode = Mode.hold ∨ (inMode Mode.shadow).tck.mode = Mode.shadow)
      ∧ (Begins (inMode Mode.shadow) (reqOf []) 514)) ∧
    ((Quiet (inMode Mode.run)) ∧ ((inMode Mode.run).tck.mode = Mode.run) ∧ (Begins (inMode Mode.run) (reqOf []) 515)) ∧
    ((Quiet (inMode Mode.hold)) ∧ ((inMode Mode.hold).tck.mode = Mode.hold) ∧ ((inMode Mode.hold).chg.stage = ChgStage.idle) ∧ (Begins (inMode Mode.hold) (reqOf [])
      516)) ∧
    ((Quiet faulted) ∧ (faulted.tck.mode = Mode.stop) ∧ (faulted.tck.fault ≠ 0#16) ∧ (Begins faulted (reqOf []) 517)) ∧
    ((Quiet railed) ∧ (railed.tck.mode = Mode.stop) ∧ (railed.tck.fault = 0#16) ∧ (railed.tck.pend = none) ∧ (railed.pwr.railHeld = some 4) ∧ (runAllowed railed = true)
      ∧ (Begins railed (reqOf []) 513)) := by
  and_intros <;> decide +kernel

/-- The hypotheses of ModeCommandRefusals are met, clause by clause. -/
theorem wit_ModeCommandRefusals :
    ((Awake faulted) ∧ ((if (if (!(faulted.tck.mode == Mode.stop || faulted.tck.mode == Mode.hold)) = true then 518 else if transPending faulted = true then 516 else if
      anyBlkBusy faulted = true then 523 else 0) ≠ 0 then if (!(faulted.tck.mode == Mode.stop || faulted.tck.mode == Mode.hold)) = true then 518 else if transPending
      faulted = true then 516 else if anyBlkBusy faulted = true then 523 else 0 else if faulted.tck.mode = Mode.stop ∧ faulted.tck.fault ≠ 0#16 then 519 else if
      faulted.tck.mode = Mode.stop ∧ runAllowed faulted = false then 520 else 0) ≠ 0) ∧ (Begins faulted (reqOf []) 513)) ∧
    ((Awake (inMode Mode.stop)) ∧ ((if (if (!((inMode Mode.stop).tck.mode == Mode.stop || (inMode Mode.stop).tck.mode == Mode.hold)) = true then 518 else if transPending
      (inMode Mode.stop) = true then 516 else if anyBlkBusy (inMode Mode.stop) = true then 523 else 0) ≠ 0 then if (!((inMode Mode.stop).tck.mode == Mode.stop || (inMode
      Mode.stop).tck.mode == Mode.hold)) = true then 518 else if transPending (inMode Mode.stop) = true then 516 else if anyBlkBusy (inMode Mode.stop) = true then 523
      else 0 else if (inMode Mode.stop).tck.mode = Mode.stop ∧ (inMode Mode.stop).tck.fault ≠ 0#16 then 519 else if (inMode Mode.stop).tck.mode = Mode.stop ∧ runAllowed
      (inMode Mode.stop) = false then 520 else 0) ≠ 0) ∧ (Begins (inMode Mode.stop) (reqOf []) 513)) ∧
    ((Awake bootUp) ∧ ((if (if (!(bootUp.tck.mode == Mode.stop || bootUp.tck.mode == Mode.hold)) = true then 518 else if transPending bootUp = true then 516 else if
      anyBlkBusy bootUp = true then 523 else 0) ≠ 0 then if (!(bootUp.tck.mode == Mode.stop || bootUp.tck.mode == Mode.hold)) = true then 518 else if transPending bootUp
      = true then 516 else if anyBlkBusy bootUp = true then 523 else 0 else if bootUp.tck.mode = Mode.stop ∧ bootUp.tck.fault ≠ 0#16 then 519 else if bootUp.tck.mode =
      Mode.stop ∧ runAllowed bootUp = false then 520 else 0) ≠ 0) ∧ (Begins bootUp (reqOf []) 513)) ∧
    ((Awake (transiting Mode.run 3)) ∧ ((if (!((transiting Mode.run 3).tck.mode == Mode.run || (transiting Mode.run 3).tck.mode == Mode.hold || (transiting Mode.run
      3).tck.mode == Mode.shadow)) = true then 518 else if transPending (transiting Mode.run 3) = true then 516 else if anyBlkBusy (transiting Mode.run 3) = true then
      523 else 0) ≠ 0) ∧ (Begins (transiting Mode.run 3) (reqOf []) 514)) ∧
    ((Awake (busyCfg Mode.run 3)) ∧ ((if (!(busyCfg Mode.run 3).tck.mode == Mode.run) = true then 518 else if transPending (busyCfg Mode.run 3) = true then 516 else if
      anyBlkBusy (busyCfg Mode.run 3) = true then 523 else 0) ≠ 0) ∧ (Begins (busyCfg Mode.run 3) (reqOf []) 515)) ∧
    ((Awake (inMode Mode.run)) ∧ ((if (!(inMode Mode.run).tck.mode == Mode.hold) = true then 518 else if transPending (inMode Mode.run) = true then 516 else if
      anyBlkBusy (inMode Mode.run) = true then 523 else 0) ≠ 0) ∧ (Begins (inMode Mode.run) (reqOf []) 516)) ∧
    ((Awake (inMode Mode.stop)) ∧ ((if (!((inMode Mode.stop).tck.mode == Mode.stop && (inMode Mode.stop).tck.fault != 0#16)) = true then 518 else if transPending (inMode
      Mode.stop) = true then 516 else if anyBlkBusy (inMode Mode.stop) = true then 523 else 0) ≠ 0) ∧ (Begins (inMode Mode.stop) (reqOf []) 517)) := by
  and_intros <;> decide +kernel

/-- The hypotheses of ResetsBringBoot are met, clause by clause. -/
theorem wit_ResetsBringBoot :
    ((inMode Mode.dormant).tck.mode = Mode.dormant) ∧
    (Awake xferred) ∧
    (Awake (expert Mode.run 10)) ∧
    (Awake (busyCfg Mode.run 10)) ∧
    ((Awake bootUp) ∧ (Quiet bootUp) ∧ (Begins bootUp (reqOf []) 518)) ∧
    ((Awake (paired Mode.stop)) ∧ (Quiet (paired Mode.stop)) ∧ (Begins (paired Mode.stop) (reqOf []) 519) ∧ ((paired Mode.stop).tck.mode = Mode.stop) ∧ (isPair (paired
      Mode.stop) = true)) ∧
    (Awake (inMode Mode.run)) ∧
    ((Awake w2) ∧ (wdtT w2 ≤ wdtCount w2)) ∧
    ((resetting.pending = []) ∧ (Awake resetting) ∧ (resetting.slt.claimRun = none) ∧ (resetting.slt.run = some endingOp) ∧ (endsInReset resetting = true) ∧
      (endingOp.finish ≤ resetting.now + 1)) := by
  and_intros <;> decide +kernel

/-- The hypotheses of PowerAndTemperatureEvents are met, clause by clause. -/
theorem wit_PowerAndTemperatureEvents :
    ((Awake (inMode Mode.run)) ∧ (1#2 = if (720#12).toNat ≤ 700 then 2#2 else if (720#12).toNat ≤ 720 then 1#2 else 0#2) ∧ ((inMode Mode.run).tck.throttle.toNat <
      (1#2).toNat)) ∧
    ((Awake (inMode Mode.run)) ∧ (2#2 = if (700#12).toNat ≤ 700 then 2#2 else if (700#12).toNat ≤ 720 then 1#2 else 0#2) ∧ ((inMode Mode.run).tck.throttle.toNat <
      (2#2).toNat)) ∧
    ((Awake w10) ∧ (w10.tck.throttle ≠ 0#2)) ∧
    ((ticking (inMode Mode.run) = true) ∧ ((inMode Mode.run).tck.pend = none)) ∧
    ((ticking (inMode Mode.run) = true) ∧ ((inMode Mode.run).tck.pend = none) ∧ ((104#8).toInt < 105)) ∧
    ((ticking (inMode Mode.run) = true) ∧ ((inMode Mode.run).tck.pend = none) ∧ (105 ≤ (105#8).toInt) ∧ ((105#8).toInt < 115) ∧ ((inMode Mode.run).pwr.hotHeld = false)) ∧
    ((ticking (inMode Mode.run) = true) ∧ ((inMode Mode.run).tck.pend = none) ∧ (105 ≤ (114#8).toInt) ∧ ((114#8).toInt < 115) ∧ ((inMode Mode.run).pwr.hotHeld = false)) ∧
    ((ticking (inMode Mode.run) = true) ∧ ((inMode Mode.run).tck.pend = none) ∧ (115 ≤ (115#8).toInt)) := by
  and_intros <;> decide +kernel

/-- The hypotheses of PfwIsNotedAndCleared are met, clause by clause. -/
theorem wit_PfwIsNotedAndCleared :
    (((inMode Mode.boot).tck.mode = Mode.stop ∨ (inMode Mode.boot).tck.mode = Mode.boot) ∧ ((inMode Mode.boot).pwr.pfw = false)) ∧
    ((Awake pfwOn) ∧ (pfwOn.pwr.pfw = true)) ∧
    (((pairRun Mode.run).tck.mode = Mode.run ∨ (pairRun Mode.run).tck.mode = Mode.hold) ∧ ((pairRun Mode.run).pwr.pfw = false) ∧ ((pairRun Mode.run).tck.pend = none) ∧
      (holdsClaim (pairRun Mode.run) = true ∧ partnerShadow (pairRun Mode.run) = true ∧ (pairRun Mode.run).cry.pReady = 0#8 ∨ cfgBit (pairRun Mode.run) 2 256 13 = true)) ∧
    ((stopOnPfw.tck.mode = Mode.run ∨ stopOnPfw.tck.mode = Mode.hold) ∧ (stopOnPfw.pwr.pfw = false) ∧ (stopOnPfw.tck.pend = none) ∧ (holdsClaim stopOnPfw = true ∧
      partnerShadow stopOnPfw = true ∧ stopOnPfw.cry.pReady = 0#8 ∨ cfgBit stopOnPfw 2 256 13 = true)) ∧
    ((goOnPfw.tck.mode = Mode.run ∨ goOnPfw.tck.mode = Mode.hold) ∧ (goOnPfw.pwr.pfw = false) ∧ (goOnPfw.tck.pend = none) ∧ (holdsClaim goOnPfw = false ∨ partnerShadow
      goOnPfw = false ∨ goOnPfw.cry.pReady ≠ 0#8) ∧ (cfgBit goOnPfw 2 256 13 = false)) ∧
    (((inMode Mode.shadow).tck.mode = Mode.shadow) ∧ ((inMode Mode.shadow).pwr.pfw = false)) := by
  and_intros <;> decide +kernel

/-- The hypotheses of TickEdgeDecidesMode are met, clause by clause. -/
theorem wit_TickEdgeDecidesMode :
    ((ticking (inMode Mode.stop) = true) ∧ ((inMode Mode.stop).tck.computing = false)) ∧
    ((ticking (transiting Mode.run 3) = true) ∧ ((transiting Mode.run 3).tck.computing = false)) ∧
    ((ticking w11 = true) ∧ (w11.tck.computing = false)) := by
  and_intros <;> decide +kernel

/-- The hypotheses of TickEdgeFreezesCutAndLaunches are met, clause by clause. -/
theorem wit_TickEdgeFreezesCutAndLaunches :
    (((edging good none).tck.mode = Mode.run) ∧ ((edging good none).tck.computing = true) ∧ ((edging good none).tck.phase = Phase.ended) ∧ ((edging good
      none).tck.deadlineMet = some true) ∧ (bankInForce (edging good none) = some ioProg) ∧ (holdsClaim (edging good none) = true) ∧ ((edging good none).tck.pend = none)
      ∧ ((edging good none).cry.partnerStop = none) ∧ ((edging good none).cry.takeover = none) ∧ ((edging good none).tck.stepReq = none) ∧ ((edging good
      none).img.ranOnce = true) ∧ ((edging good none).ldr.activate = none) ∧ ((edging good none).chg.stage = ChgStage.idle) ∧ ((edging good none).cry.controls = []) ∧
      ((edging good none).img.forceOps = []) ∧ ((edging good none).tck.trans = none)) ∧
    (((edging gone (edgeTo Mode.stop)).tck.mode = Mode.run) ∧ ((edging gone (edgeTo Mode.stop)).tck.computing = true) ∧ ((edging gone (edgeTo Mode.stop)).tck.phase =
      Phase.ended) ∧ ((edging gone (edgeTo Mode.stop)).tck.deadlineMet = some true) ∧ (bankInForce (edging gone (edgeTo Mode.stop)) = some ioProg) ∧ (holdsClaim (edging
      gone (edgeTo Mode.stop)) = true) ∧ ((edging gone (edgeTo Mode.stop)).tck.pend = none) ∧ ((edging gone (edgeTo Mode.stop)).cry.partnerStop = none) ∧ ((edging gone
      (edgeTo Mode.stop)).cry.takeover = none) ∧ ((edging gone (edgeTo Mode.stop)).tck.stepReq = none) ∧ ((edging gone (edgeTo Mode.stop)).img.ranOnce = true) ∧ ((edging
      gone (edgeTo Mode.stop)).ldr.activate = none) ∧ ((edging gone (edgeTo Mode.stop)).chg.stage = ChgStage.idle) ∧ ((edging gone (edgeTo Mode.stop)).cry.controls = [])
      ∧ ((edging gone (edgeTo Mode.stop)).img.forceOps = []) ∧ ((edging gone (edgeTo Mode.stop)).tck.trans = some { target := Mode.stop, who := noWho : Transition }) ∧
      ({ target := Mode.stop, who := noWho : Transition }.target = Mode.stop)) ∧
    (((edging good (edgeTo Mode.hold)).tck.mode = Mode.run) ∧ ((edging good (edgeTo Mode.hold)).tck.computing = true) ∧ ((edging good (edgeTo Mode.hold)).tck.phase =
      Phase.ended) ∧ ((edging good (edgeTo Mode.hold)).tck.deadlineMet = some true) ∧ (bankInForce (edging good (edgeTo Mode.hold)) = some ioProg) ∧ (holdsClaim (edging
      good (edgeTo Mode.hold)) = true) ∧ ((edging good (edgeTo Mode.hold)).tck.pend = none) ∧ ((edging good (edgeTo Mode.hold)).cry.partnerStop = none) ∧ ((edging good
      (edgeTo Mode.hold)).cry.takeover = none) ∧ ((edging good (edgeTo Mode.hold)).tck.stepReq = none) ∧ ((edging good (edgeTo Mode.hold)).img.ranOnce = true) ∧ ((edging
      good (edgeTo Mode.hold)).ldr.activate = none) ∧ ((edging good (edgeTo Mode.hold)).chg.stage = ChgStage.idle) ∧ ((edging good (edgeTo Mode.hold)).cry.controls = [])
      ∧ ((edging good (edgeTo Mode.hold)).img.forceOps = []) ∧ ((edging good (edgeTo Mode.hold)).tck.trans = some { target := Mode.hold, who := noWho : Transition }) ∧
      ({ target := Mode.hold, who := noWho : Transition }.target = Mode.hold)) := by
  and_intros <;> decide +kernel

/-- The hypotheses of BootEndsAtTheFirstEdge are met, clause by clause. -/
theorem wit_BootEndsAtTheFirstEdge :
    ((State.reset.tck.mode = Mode.boot) ∧ (State.reset.tck.bootEnd = none) ∧ (State.reset.tck.bootCut = false) ∧ (State.reset.tck.bootStuck = false) ∧
      (State.reset.fwu.noSlot = false) ∧ (State.reset.brk.inReset = false) ∧ (w12.supervisorOk = false)) ∧
    ((State.reset.tck.mode = Mode.boot) ∧ (State.reset.tck.bootEnd = none) ∧ (State.reset.tck.bootCut = false) ∧ (State.reset.tck.bootStuck = false) ∧
      (State.reset.fwu.noSlot = false) ∧ (State.reset.brk.inReset = false) ∧ (boot.supervisorOk = true) ∧ (boot.pointerCut = none)) ∧
    (((booted Mode.stop 1325#16).tck.mode = Mode.boot) ∧ ((booted Mode.stop 1325#16).tck.bootEnd = some (Mode.stop, 1325#16, [])) ∧ ((booted Mode.stop 1325#16).tck.pend
      = none)) ∧
    (((booted Mode.run 0#16).tck.mode = Mode.boot) ∧ ((booted Mode.run 0#16).tck.bootEnd = some (Mode.run, 0#16, [])) ∧ ((booted Mode.run 0#16).tck.pend = none)) ∧
    (((booted Mode.shadow 0#16).tck.mode = Mode.boot) ∧ ((booted Mode.shadow 0#16).tck.bootEnd = some (Mode.shadow, 0#16, [])) ∧ ((booted Mode.shadow 0#16).tck.pend =
      none)) ∧
    (State.reset.tck.mode = Mode.dormant ∨ State.reset.tck.mode = Mode.boot ∧ State.reset.tck.bootEnd = none) ∧
    ((inMode Mode.dormant).tck.mode = Mode.dormant ∨ (inMode Mode.dormant).tck.mode = Mode.boot ∧ (inMode Mode.dormant).tck.bootEnd = none) ∧
    ((w13.tck.mode = Mode.boot) ∧ (w13.tck.bootEnd = some (Mode.run, 0#16, [])) ∧ (w13.tck.pend = some pendF)) ∧
    ((w14.tck.mode = Mode.boot) ∧ (w14.tck.bootEnd = some (Mode.stop, 1325#16, [])) ∧ (w14.tck.pend = some pendF)) ∧
    ((w15.tck.mode = Mode.boot) ∧ (w15.tck.bootEnd = none) ∧ (w15.tck.bootCut = false) ∧ (w15.tck.bootStuck = true) ∧ (w15.fwu.noSlot = false) ∧ (w15.brk.inReset =
      false)) := by
  and_intros <;> decide +kernel

/-- The hypotheses of ComputeStartAndDeadline are met, clause by clause. -/
theorem wit_ComputeStartAndDeadline :
    ((bankInForce (computing Phase.edge) = some prog) ∧ ((computing Phase.edge).tck.computing = true) ∧ ((computing Phase.edge).tck.phase = Phase.edge) ∧ ((nextSeg
      (computing Phase.edge) prog (↑0) 0).isSome = true)) ∧
    ((ticking (computing Phase.ended) = true) ∧ ((computing Phase.ended).tck.computing = true) ∧ ((computing Phase.ended).tck.deadlineMet = none) ∧ ((computing
      Phase.ended).tck.pend = none) ∧ ((computing Phase.ended).tck.phase = Phase.ended) ∧ ((computing Phase.ended).cry.sealTick = none) ∧ ((computing
      Phase.ended).cry.switchover = none) ∧ ((computing Phase.ended).chg.stage = ChgStage.idle)) ∧
    ((ticking (running (runRod 0)) = true) ∧ ((running (runRod 0)).tck.computing = true) ∧ ((running (runRod 0)).tck.deadlineMet = none) ∧ ((running (runRod 0)).tck.pend
      = none) ∧ ((running (runRod 0)).tck.phase = Phase.compute) ∧ (0 < rodsLeft (running (runRod 0)))) := by
  and_intros <;> decide +kernel

/-- The hypotheses of SegmentsStartAndBundlesIssue are met, clause by clause. -/
theorem wit_SegmentsStartAndBundlesIssue :
    ((bankInForce (running w16) = some prog) ∧ (((running w16).rods.rods.get 0).run = RodRun.waiting) ∧ (((running w16).rods.rods.get 0).flight = []) ∧ (((running
      w16).rods.rods.get 0).cstores = []) ∧ (((running w16).rods.rods.get 0).cycle ≤ { task := 1, entry := 0, start := 4 : SchedSeg }.start) ∧ (∀ (x : XStore), x ∈
      (running w16).rods.xst → x.dst ≠ ↑0) ∧ (computeGoes (running w16) { task := 1, entry := 0, start := 4 : SchedSeg }.start = true) ∧ (nextSeg (running w16) prog (↑0)
      ((running w16).rods.rods.get 0).pos = some 0) ∧ ((smGetD prog.scheds ↑0 [])[0]? = some { task := 1, entry := 0, start := 4 : SchedSeg }) ∧ (List.find? (fun x =>
      decide (x.task = { task := 1, entry := 0, start := 4 : SchedSeg }.task)) (running w16).tasks.released = some { task := 1, count := 1, first := 11259375 : Release })) ∧
    ((Issues (issuing wide codeRod) 0 (codeBank wide) (primsAt wide) 4) ∧ (∀ (p : Prim), p ∈ primsAt wide → p.row.cls < 3 ∧ isDivide p = false)) ∧
    ((Issues (issuing wide w17) 0 (codeBank wide) (primsAt wide) 4) ∧ (∀ (p : Prim), p ∈ primsAt wide → p.row.cls < 3 ∧ isDivide p = false)) ∧
    ((Issues (issuing wide w18) 0 (codeBank wide) (primsAt wide) 4) ∧ (∀ (p : Prim), p ∈ primsAt wide → p.row.cls < 3 ∧ isDivide p = false)) ∧
    ((Issues (issuing off4 codeRod) 0 (codeBank off4) (primsAt off4) 1) ∧ (((issuing off4 codeRod).rods.rods.get 0).delay = 0) ∧ (∀ (p : Prim), p ∈ primsAt off4 →
      p.row.cls < 4 ∧ guardHolds ((issuing off4 codeRod).rods.rods.get 0) p = false)) ∧
    ((Issues (issuing ldl codeRod) 0 (codeBank ldl) [primAt ldl] 1) ∧ (((issuing ldl codeRod).rods.rods.get 0).delay = 0) ∧ ((primAt ldl).row.cls = 3) ∧ (guardHolds
      ((issuing ldl codeRod).rods.rods.get 0) (primAt ldl) = true)) ∧
    ((Issues (issuing stl codeRod) 0 (codeBank stl) [primAt stl] 1) ∧ (((issuing stl codeRod).rods.rods.get 0).delay = 0) ∧ ((primAt stl).row.cls = 3) ∧ (guardHolds
      ((issuing stl codeRod).rods.rods.get 0) (primAt stl) = true)) ∧
    ((Issues (issuing stl0 codeRod) 0 (codeBank stl0) [primAt stl0] 1) ∧ (((issuing stl0 codeRod).rods.rods.get 0).delay = 0) ∧ ((primAt stl0).row.cls = 3) ∧ (guardHolds
      ((issuing stl0 codeRod).rods.rods.get 0) (primAt stl0) = true)) ∧
    ((Issues (issuing ldc codeRod) 0 (codeBank ldc) [primAt ldc] 1) ∧ (((issuing ldc codeRod).rods.rods.get 0).delay = 0) ∧ ((primAt ldc).row.cls = 3) ∧ (guardHolds
      ((issuing ldc codeRod).rods.rods.get 0) (primAt ldc) = true)) ∧
    ((Issues (issuing stc codeRod) 0 (codeBank stc) [primAt stc] 1) ∧ (((issuing stc codeRod).rods.rods.get 0).delay = 0) ∧ ((primAt stc).row.cls = 3) ∧ (guardHolds
      ((issuing stc codeRod).rods.rods.get 0) (primAt stc) = true)) ∧
    ((Issues (issuing xst codeRod) 0 (codeBank xst) [primAt xst] 1) ∧ (((issuing xst codeRod).rods.rods.get 0).delay = 0) ∧ ((primAt xst).row.cls = 3) ∧ (guardHolds
      ((issuing xst codeRod).rods.rods.get 0) (primAt xst) = true)) ∧
    ((Issues (issuing ldi codeRod) 0 (codeBank ldi) [primAt ldi] 1) ∧ (((issuing ldi codeRod).rods.rods.get 0).delay = 0) ∧ ((primAt ldi).row.cls = 3) ∧ (guardHolds
      ((issuing ldi codeRod).rods.rods.get 0) (primAt ldi) = true)) ∧
    ((Issues (issuing sti codeRod) 0 (codeBank sti) [primAt sti] 1) ∧ (((issuing sti codeRod).rods.rods.get 0).delay = 0) ∧ ((primAt sti).row.cls = 3) ∧ (guardHolds
      ((issuing sti codeRod).rods.rods.get 0) (primAt sti) = true)) ∧
    ((Issues (issuing fetch codeRod) 0 (codeBank fetch) [primAt fetch] 2) ∧ (((issuing fetch codeRod).rods.rods.get 0).delay = 0) ∧ ((primAt fetch).row.cls = 3) ∧
      (guardHolds ((issuing fetch codeRod).rods.rods.get 0) (primAt fetch) = true)) ∧
    ((Issues (issuing tst codeRod) 0 (codeBank tst) [primAt tst] 2) ∧ (((issuing tst codeRod).rods.rods.get 0).delay = 0) ∧ ((primAt tst).row.cls = 3) ∧ (guardHolds
      ((issuing tst codeRod).rods.rods.get 0) (primAt tst) = true)) ∧
    ((Issues (issuing br codeRod) 0 (codeBank br) [primAt br] 1) ∧ (((issuing br codeRod).rods.rods.get 0).delay = 0) ∧ ((primAt br).row.cls = 4) ∧ (guardHolds ((issuing
      br codeRod).rods.rods.get 0) (primAt br) = true) ∧ ((primAt br).row.op = 1)) ∧
    ((Issues (issuing dbnz codeRod) 0 (codeBank dbnz) [primAt dbnz] 1) ∧ (((issuing dbnz codeRod).rods.rods.get 0).delay = 0) ∧ ((primAt dbnz).row.cls = 4) ∧ (guardHolds
      ((issuing dbnz codeRod).rods.rods.get 0) (primAt dbnz) = true) ∧ ((primAt dbnz).row.op = 2)) ∧
    ((Issues (issuing dbnz w19) 0 (codeBank dbnz) [primAt dbnz] 1) ∧ (((issuing dbnz w19).rods.rods.get 0).delay = 0) ∧ ((primAt dbnz).row.cls = 4) ∧ (guardHolds
      ((issuing dbnz w19).rods.rods.get 0) (primAt dbnz) = true) ∧ ((primAt dbnz).row.op = 2)) ∧
    ((Issues (issuing call codeRod) 0 (codeBank call) [primAt call] 1) ∧ (((issuing call codeRod).rods.rods.get 0).delay = 0) ∧ ((primAt call).row.cls = 4) ∧ (guardHolds
      ((issuing call codeRod).rods.rods.get 0) (primAt call) = true) ∧ ((primAt call).row.op = 3) ∧ (((issuing call codeRod).rods.rods.get 0).stack.length < 16)) ∧
    ((Issues (issuing ret w20) 0 (codeBank ret) [primAt ret] 1) ∧ (((issuing ret w20).rods.rods.get 0).delay = 0) ∧ ((primAt ret).row.cls = 4) ∧ (guardHolds ((issuing
      ret w20).rods.rods.get 0) (primAt ret) = true) ∧ ((primAt ret).row.op = 4) ∧ (((issuing ret w20).rods.rods.get 0).stack = [(9, 513#24)])) ∧
    ((Issues (issuing waitf (holding fqDone)) 0 (codeBank waitf) [primAt waitf] 1) ∧ (((issuing waitf (holding fqDone)).rods.rods.get 0).delay = 0) ∧ ((primAt
      waitf).row.cls = 4) ∧ (guardHolds ((issuing waitf (holding fqDone)).rods.rods.get 0) (primAt waitf) = true) ∧ ((primAt waitf).row.op = 16) ∧ (fqAt ((issuing waitf
      (holding fqDone)).rods.rods.get 0) (field (sImm (primAt waitf).w) 0 4) = some fqDone)) ∧
    ((Issues (issuing waitf (holding fqOpen)) 0 (codeBank waitf) [primAt waitf] 1) ∧ (((issuing waitf (holding fqOpen)).rods.rods.get 0).delay = 0) ∧ ((primAt
      waitf).row.cls = 4) ∧ (guardHolds ((issuing waitf (holding fqOpen)).rods.rods.get 0) (primAt waitf) = true) ∧ ((primAt waitf).row.op = 16) ∧ (fqAt ((issuing waitf
      (holding fqOpen)).rods.rods.get 0) (field (sImm (primAt waitf).w) 0 4) = some fqOpen)) ∧
    ((Issues (issuing ends codeRod) 0 (codeBank ends) [primAt ends] 1) ∧ (((issuing ends codeRod).rods.rods.get 0).delay = 0) ∧ ((primAt ends).row.cls = 4) ∧ (guardHolds
      ((issuing ends codeRod).rods.rods.get 0) (primAt ends) = true) ∧ ((primAt ends).row.op = 31) ∧ (nextSeg (issuing ends codeRod) (codeBank ends) (↑0) (((issuing ends
      codeRod).rods.rods.get 0).pos + 1) = none) ∧ (((issuing ends codeRod).rods.rods.get 0).signals ≤ 8)) ∧
    ((Issues ending 0 nextProg [primAt ends] 1) ∧ ((ending.rods.rods.get 0).delay = 0) ∧ ((primAt ends).row.cls = 4) ∧ (guardHolds (ending.rods.rods.get 0) (primAt ends)
      = true) ∧ ((primAt ends).row.op = 31) ∧ (nextSeg ending nextProg (↑0) ((ending.rods.rods.get 0).pos + 1) = some 1)) := by
  and_intros <;> decide +kernel

/-- The hypotheses of HardwiredRegistersReadConstant are met, clause by clause. -/
theorem wit_HardwiredRegistersReadConstant :
    ((((running (oneFlight 9 0)).rods.rods.get 0).flight = [{ dest := Dest.g 0, value := 33554431, due := 9, slot := 2, issued := 8, div := false : Flight }]) ∧ ({ dest := Dest.g 0, value := 33554431, due := 9, slot := 2, issued := 8, div := false : Flight }.dest
      = Dest.g 0 ∨ { dest := Dest.g 0, value := 33554431, due := 9, slot := 2, issued := 8, div := false : Flight }.dest = Dest.p 0 ∨ { dest := Dest.g 0, value := 33554431, due := 9, slot := 2, issued := 8, div := false : Flight }.dest
      = Dest.seg 0) ∧ ({ dest := Dest.g 0, value := 33554431, due := 9, slot := 2, issued := 8, div := false : Flight }.due ≤ ((running (oneFlight 9 0)).rods.rods.get
      0).cycle) ∧ (((running (oneFlight 9 0)).rods.rods.get 0).divAt = none)) := by
  and_intros <;> decide +kernel

/-- The hypotheses of ResultsAndStoresLand are met, clause by clause. -/
theorem wit_ResultsAndStoresLand :
    ((((running (oneFlight 9 63)).rods.rods.get 0).flight = [{ dest := Dest.g 63, value := 33554431, due := 9, slot := 2, issued := 8, div := false : Flight }]) ∧ ({ dest := Dest.g 63, value := 33554431, due := 9, slot := 2, issued := 8, div := false : Flight }.dest
      = Dest.g ↑63) ∧ ({ dest := Dest.g 63, value := 33554431, due := 9, slot := 2, issued := 8, div := false : Flight }.due ≤ ((running (oneFlight 9 63)).rods.rods.get
      0).cycle)) ∧
    ((((running (oneFlight 9 0)).rods.rods.get 0).flight = [{ dest := Dest.g 0, value := 33554431, due := 9, slot := 2, issued := 8, div := false : Flight }]) ∧ ({ dest := Dest.g 0, value := 33554431, due := 9, slot := 2, issued := 8, div := false : Flight }.dest
      = Dest.g ↑0) ∧ ({ dest := Dest.g 0, value := 33554431, due := 9, slot := 2, issued := 8, div := false : Flight }.due ≤ ((running (oneFlight 9 0)).rods.rods.get
      0).cycle)) ∧
    ((((running (oneFlight 10 63)).rods.rods.get 0).flight = [{ dest := Dest.g 63, value := 33554431, due := 10, slot := 2, issued := 8, div := false : Flight }]) ∧ ({ dest := Dest.g 63, value := 33554431, due := 10, slot := 2, issued := 8, div := false : Flight }.dest
      = Dest.g ↑63) ∧ (((running (oneFlight 10 63)).rods.rods.get 0).cycle < { dest := Dest.g 63, value := 33554431, due := 10, slot := 2, issued := 8, div := false : Flight }.due)) ∧
    ((xstored.rods.xst = [{ due := 9, src := 1, dst := 0, ofs := 16383, value := 11259375#24 : XStore }]) ∧ ({ due := 9, src := 1, dst := 0, ofs := 16383, value := 11259375#24 : XStore }.dst
      = ↑0) ∧ ((xstored.rods.rods.get 0).run = RodRun.running) ∧ ({ due := 9, src := 1, dst := 0, ofs := 16383, value := 11259375#24 : XStore }.due ≤
      (xstored.rods.rods.get 0).cycle) ∧ (smGetD (xstored.rods.rods.get 0).landed (507904 + { due := 9, src := 1, dst := 0, ofs := 16383, value := 11259375#24 : XStore }.ofs)
      ({ due := 9, src := 1, dst := 0, ofs := 16383, value := 11259375#24 : XStore }.due + 1, 0, false) = ({ due := 9, src := 1, dst := 0, ofs := 16383, value := 11259375#24 : XStore }.due
      + 1, 0, false))) ∧
    ((15 < 16) ∧ (((running stalledRod).rods.rods.get 0).run = RodRun.stalled 15 5) ∧ (((running stalledRod).rods.rods.get 0).fq.toArray.getD 15 none = some fqOp) ∧
      (opComplete fqOp = true) ∧ (computeGoes (running stalledRod) (((running stalledRod).rods.rods.get 0).cycle + 3) = true)) := by
  and_intros <;> decide +kernel

/-- The hypotheses of IntegerArithmeticResults are met, clause by clause. -/
theorem wit_IntegerArithmeticResults :
    ((addP.row.cls = 1) ∧ (addP.row.op = 1)) ∧
    (((divP 8).row.cls = 2) ∧ ((divP 8).row.op = 8) ∧ (rdG (rod12 8388608#24 16777215#24) (sSrc1 (divP 8).w) = 8388608) ∧ (rdG (rod12 8388608#24 16777215#24) (sSrc2
      (divP 8).w) = 16777215)) ∧
    (((divP 10).row.cls = 2) ∧ ((divP 10).row.op = 10) ∧ (rdG (rod12 8388608#24 16777215#24) (sSrc1 (divP 10).w) = 8388608) ∧ (rdG (rod12 8388608#24 16777215#24) (sSrc2
      (divP 10).w) = 16777215)) ∧
    (((divP 8).row.cls = 2) ∧ ((divP 8).row.op = 8) ∧ (rdG (rod12 8388608#24 0#24) (sSrc2 (divP 8).w) = 0)) ∧
    (((divP 10).row.cls = 2) ∧ ((divP 10).row.op = 10) ∧ (rdG (rod12 8388608#24 0#24) (sSrc2 (divP 10).w) = 0)) ∧
    ((8388608 < 2 ^ 24) ∧ (16777215 < 2 ^ 24) ∧ (16777215 ≠ 0)) ∧
    ((16777209 < 2 ^ 24) ∧ (3 < 2 ^ 24) ∧ (3 ≠ 0)) := by
  and_intros <;> decide +kernel

/-- The hypotheses of TrunkGrantsAndMovesBursts are met, clause by clause. -/
theorem wit_TrunkGrantsAndMovesBursts :
    (arbitrate (inMode Mode.run) [77] = some 77) ∧
    (arbitrate (inMode Mode.run) [48, 77] = some 48) ∧
    (((inMode Mode.run).trk.grant = none) ∧ (arbitrate (inMode Mode.run) [50] = some 50)) ∧
    (((bursting none [] fqOpen).trk.grant = none) ∧ (arbitrate (bursting none [] fqOpen) [] = some 3)) ∧
    (((bursting (some (heldBy 3)) [] w21).trk.grant = some (heldBy 3)) ∧ ((heldBy 3).who = ↑3) ∧ (findOp ((bursting (some (heldBy 3)) [] w21).rods.rods.get 3) (heldBy
      3).op = some w21) ∧ (w21.bank = some BankId.a)) ∧
    ((List.find? (fun y => decide (y.fst = ↑3)) (bursting none [(3, 0, 0)] w22).trk.service = some (3, 0, 0)) ∧ (findOp ((bursting none [(3, 0, 0)] w22).rods.rods.get 3)
      (3, 0, 0).snd.fst = some w22)) ∧
    (((granted 48).trk.grant = some (heldBy 48)) ∧ (48 ≤ (heldBy 48).who)) ∧
    ((List.find? (fun y => decide (y.fst = (48, 0, 0).fst)) w23.trk.service = some (48, 0, 0)) ∧ (48 ≤ (48, 0, 0).fst)) ∧
    ((Awake w24) ∧ (List.find? (fun y => decide (y.fst = (77, 0, 0).fst)) w24.trk.service = some (77, 0, 0)) ∧ (48 ≤ (77, 0, 0).fst)) ∧
    ((Awake (granted 77)) ∧ (longestHeld (granted 77) = some (heldBy 77))) ∧
    ((Awake w25) ∧ (longestHeld w25 = some (heldBy 3))) := by
  and_intros <;> decide +kernel

/-- The hypotheses of BankCommandsAct are met, clause by clause. -/
theorem wit_BankCommandsAct :
    ((Serving (inMode Mode.run)) ∧ (bankOfNo (leAt (loadReq 1 48).payload 0 1) = BankId.b) ∧ (bankTaken (inMode Mode.run) false BankId.b = false) ∧ (activatePending
      (inMode Mode.run) BankId.b = false) ∧ ((loadReq 1 48).payload.length = 8) ∧ (leAt (loadReq 1 48).payload 0 1 ≤ 1) ∧ (leAt (loadReq 1 48).payload 1 3 = 0) ∧ (48 ≤
      leAt (loadReq 1 48).payload 4 4) ∧ (leAt (loadReq 1 48).payload 4 4 ≤ 268435456) ∧ (Begins (inMode Mode.run) (loadReq 1 48) 1281)) ∧
    ((Serving (inMode Mode.run)) ∧ (bankOfNo (leAt (loadReq 0 268435456).payload 0 1) = BankId.a) ∧ (bankTaken (inMode Mode.run) false BankId.a = false) ∧
      (activatePending (inMode Mode.run) BankId.a = false) ∧ ((loadReq 0 268435456).payload.length = 8) ∧ (leAt (loadReq 0 268435456).payload 0 1 ≤ 1) ∧ (leAt (loadReq 0
      268435456).payload 1 3 = 0) ∧ (48 ≤ leAt (loadReq 0 268435456).payload 4 4) ∧ (leAt (loadReq 0 268435456).payload 4 4 ≤ 268435456) ∧ (Begins (inMode Mode.run)
      (loadReq 0 268435456) 1281)) ∧
    ((Serving filled) ∧ (bankOfNo (leAt (bankReq 1).payload 0 1) = BankId.b) ∧ (bankTaken filled false BankId.b = false) ∧ (activatePending filled BankId.b = false) ∧
      (bankPayWrong (bankReq 1).payload = false) ∧ ((bankSt filled BankId.b).phase = BankPhase.loading) ∧ (((assemble (bankSt filled BankId.b)).any fun x => x.isNone) =
      false) ∧ (Begins filled (bankReq 1) 1283)) ∧
    ((Serving w26) ∧ (bankOfNo (leAt (bankReq 1).payload 0 1) = BankId.b) ∧ (bankTaken w26 false BankId.b = false) ∧ (activatePending w26 BankId.b = false) ∧
      (bankPayWrong (bankReq 1).payload = false) ∧ ((bankSt w26 BankId.b).phase = BankPhase.loaded ∨ (bankSt w26 BankId.b).phase = BankPhase.admitted) ∧ (Begins w26
      (bankReq 1) 1284)) ∧
    ((Serving w26) ∧ (bankOfNo (leAt (bankReq 1).payload 0 1) = BankId.b) ∧ (bankTaken w26 false BankId.b = false) ∧ (activatePending w26 BankId.b = false) ∧
      (bankPayWrong (bankReq 1).payload = false) ∧ (w26.ldr.inForce ≠ some BankId.b) ∧ (Begins w26 (bankReq 1) 1288)) ∧
    ((bankOfNo (leAt (bankReq 1).payload 0 1) = BankId.b) ∧ (bankPayWrong (bankReq 1).payload = false) ∧ (Serving storedBank) ∧ (bankTaken storedBank false BankId.b =
      false) ∧ (activatePending storedBank BankId.b = false) ∧ ((bankSt storedBank BankId.b).stored = some image) ∧ (storedValid image = true) ∧ (Begins storedBank
      (bankReq 1) 1287)) ∧
    ((bankOfNo (leAt (bankReq 1).payload 0 1) = BankId.b) ∧ (bankPayWrong (bankReq 1).payload = false) ∧ (Serving (inMode Mode.run)) ∧ (Begins (inMode Mode.run) (bankReq
      1) 1289)) ∧
    ((bankOfNo (leAt (bankReq 1).payload 0 1) = BankId.b) ∧ (bankPayWrong (bankReq 1).payload = false) ∧ (Serving w28) ∧ (chgUses w28 BankId.b = false) ∧ ((bankSt w28
      BankId.b).phase = BankPhase.loaded ∨ (bankSt w28 BankId.b).phase = BankPhase.admitted) ∧ (Begins w28 (bankReq 1) 1286)) ∧
    ((bankOfNo (leAt (bankReq 1).payload 0 1) = BankId.b) ∧ (bankPayWrong (bankReq 1).payload = false) ∧ (w29.tck.mode = Mode.stop) ∧ (w29.chg.stage = ChgStage.idle) ∧
      (w29.ldr.activate = none) ∧ ((bankSt w29 BankId.b).phase = BankPhase.admitted) ∧ (w29.ldr.inForce ≠ some BankId.b) ∧ (Begins w29 (bankReq 1) 1285)) := by
  and_intros <;> decide +kernel

/-- The hypotheses of VerifierAndSaveEnd are met, clause by clause. -/
theorem wit_VerifierAndSaveEnd :
    ((List.find? (fun v => v.bank == BankId.b) (verifying image).ldr.verify = some { bank := BankId.b, who := some vWho : Verify }) ∧ (((portSt (verifying image)
      vWho.port).slots.get vWho.slot).busy = some vWho.id) ∧ ((bankSt (verifying image) BankId.b).phase = BankPhase.loaded ∨ (bankSt (verifying image) BankId.b).phase =
      BankPhase.admitted) ∧ ((verifying image).tck.mode = Mode.shadow → ∀ (v : Verify), v ∈ (verifying image).ldr.verify → v.bank = BankId.b → v.who ≠ some noWho) ∧
      (verifyImage { pending := (verifying image).pending, tx := (verifying image).tx, free := (verifying image).free, now := (verifying image).now, tck := (verifying image).tck, pwr := (verifying image).pwr, host := (verifying image).host, cfg := (verifying image).cfg, slt := (verifying image).slt, recd := (verifying image).recd, img := (verifying image).img, ldr := { a := (verifying image).ldr.a, b := (verifying image).ldr.b, inForce := (verifying image).ldr.inForce, verify := (verifying image).ldr.verify.erase { bank := BankId.b, who := some vWho : Verify }, saves := (verifying image).ldr.saves, activate := (verifying image).ldr.activate, failRod := (verifying image).ldr.failRod, failAddr := (verifying image).ldr.failAddr, failIndex := (verifying image).ldr.failIndex : Ldr }, tasks := (verifying image).tasks, chg := (verifying image).chg, rods := (verifying image).rods, trk := (verifying image).trk, ntm := (verifying image).ntm, lnk := (verifying image).lnk, cry := (verifying image).cry, brk := (verifying image).brk, can := (verifying image).can, lch := (verifying image).lch, mtr := (verifying image).mtr, wdt := (verifying image).wdt, fwu := (verifying image).fwu : State }
      (bankSt (verifying image) BankId.b).image = none)) ∧
    ((List.find? (fun v => v.bank == BankId.b) (verifying badImage).ldr.verify = some { bank := BankId.b, who := some vWho : Verify }) ∧ (((portSt (verifying badImage)
      vWho.port).slots.get vWho.slot).busy = some vWho.id) ∧ ((bankSt (verifying badImage) BankId.b).phase = BankPhase.loaded ∨ (bankSt (verifying badImage)
      BankId.b).phase = BankPhase.admitted) ∧ ((verifying badImage).tck.mode = Mode.shadow → ∀ (v : Verify), v ∈ (verifying badImage).ldr.verify → v.bank = BankId.b →
      v.who ≠ some noWho) ∧ (verifyImage { pending := (verifying badImage).pending, tx := (verifying badImage).tx, free := (verifying badImage).free, now := (verifying badImage).now, tck := (verifying badImage).tck, pwr := (verifying badImage).pwr, host := (verifying badImage).host, cfg := (verifying badImage).cfg, slt := (verifying badImage).slt, recd := (verifying badImage).recd, img := (verifying badImage).img, ldr := { a := (verifying badImage).ldr.a, b := (verifying badImage).ldr.b, inForce := (verifying badImage).ldr.inForce, verify := (verifying badImage).ldr.verify.erase { bank := BankId.b, who := some vWho : Verify }, saves := (verifying badImage).ldr.saves, activate := (verifying badImage).ldr.activate, failRod := (verifying badImage).ldr.failRod, failAddr := (verifying badImage).ldr.failAddr, failIndex := (verifying badImage).ldr.failIndex : Ldr }, tasks := (verifying badImage).tasks, chg := (verifying badImage).chg, rods := (verifying badImage).rods, trk := (verifying badImage).trk, ntm := (verifying badImage).ntm, lnk := (verifying badImage).lnk, cry := (verifying badImage).cry, brk := (verifying badImage).brk, can := (verifying badImage).can, lch := (verifying badImage).lch, mtr := (verifying badImage).mtr, wdt := (verifying badImage).wdt, fwu := (verifying badImage).fwu : State }
      (bankSt (verifying badImage) BankId.b).image = some { code := 1319, rod := 63, addr := 0, idx := 0 : Reject })) ∧
    ((Awake saving) ∧ (saving.ldr.saves = [{ bank := BankId.b, who := some (begun (inMode Mode.stop) (bankReq 1) 1286).fst, image := image : Save }]) ∧ ({ bank := BankId.b, who := some (begun (inMode Mode.stop) (bankReq 1) 1286).fst, image := image : Save }.who
      = some (begun (inMode Mode.stop) (bankReq 1) 1286).fst) ∧ (((portSt saving (begun (inMode Mode.stop) (bankReq 1) 1286).fst.port).slots.get (begun (inMode
      Mode.stop) (bankReq 1) 1286).fst.slot).busy = some (begun (inMode Mode.stop) (bankReq 1) 1286).fst.id)) := by
  and_intros <;> decide +kernel

/-- The hypotheses of VerifierAndCommandsFailWithListedCodes are met, clause by clause. -/
theorem wit_VerifierAndCommandsFailWithListedCodes :
    (headerBad badImage = true) ∧
    (verifyImage (inMode Mode.stop) badImage = some { code := 1319, rod := 63, addr := 0, idx := 0 : Reject }) ∧
    ((((portSt (verifying image) vWho.port).slots.get vWho.slot).busy = some vWho.id) ∧ (commandCodes.contains vWho.code.toNat = true)) := by
  and_intros <;> decide +kernel

/-- The hypotheses of OnlineChangeStartsBuildsAborts are met, clause by clause. -/
theorem wit_OnlineChangeStartsBuildsAborts :
    ((changing.tck.mode = Mode.run ∨ changing.tck.mode = Mode.hold) ∧ (bankPayWrong (bankReq 1).payload = false) ∧ (bankOfNo (leAt (bankReq 1).payload 0 1) = BankId.b) ∧
      (bankInForce changing = some w27) ∧ ((bankSt changing BankId.b).prog = some prog2) ∧ (changing.chg.stage = ChgStage.idle) ∧ ((bankSt changing BankId.b).phase =
      BankPhase.admitted) ∧ (changing.ldr.inForce ≠ some BankId.b) ∧ (admissionMatches changing (bankSt changing BankId.b) = true) ∧ (prog2.base = w27.id) ∧ (cacheFull
      w27 prog2 = none) ∧ (constUnits w27 prog2 ≤ 2048) ∧ (migSourceOk w27 prog2 = true) ∧ (standbyReady changing = true) ∧ (allLines prog2 ≠ []) ∧ (Begins changing
      (bankReq 1) 1537)) ∧
    ((Awake converging) ∧ (converging.cry.catchUp = []) ∧ (converging.chg.stage = ChgStage.first) ∧ (converging.chg.toBuild = [1048576])) ∧
    ((Serving converging) ∧ ((reqOf []).payload = []) ∧ (converging.chg.stage ≠ ChgStage.ordered) ∧ (∀ (w : Who), converging.chg.who = some w → w.port ≠ (reqOf []).port
      ∨ w.slot ≠ (reqOf []).slot) ∧ (Begins converging (reqOf []) 1538)) ∧
    ((Serving (inMode Mode.stop)) ∧ ((reqOf []).payload = []) ∧ ((inMode Mode.stop).chg.stage ≠ ChgStage.ordered) ∧ (∀ (w : Who), (inMode Mode.stop).chg.who = some w →
      w.port ≠ (reqOf []).port ∨ w.slot ≠ (reqOf []).slot) ∧ (Begins (inMode Mode.stop) (reqOf []) 1538)) := by
  and_intros <;> decide +kernel

/-- The hypotheses of FieldFramesPassChecksAndTurnBack are met, clause by clause. -/
theorem wit_FieldFramesPassChecksAndTurnBack :
    ((hcrcOk (rx (rdFrame 81 1 2 3 (List.replicate 16 3#8))).bytes = true) ∧ (frameType (rx (rdFrame 81 1 2 3 (List.replicate 16 3#8))).bytes = 81) ∧ (frameBroken (rx
      (rdFrame 81 1 2 3 (List.replicate 16 3#8))) = false)) ∧
    ((frameBroken (rx (rdFrame 82 1 2 3 (List.replicate 16 3#8))) = false) ∧ (hcrcOk (rx (rdFrame 82 1 2 3 (List.replicate 16 3#8))).bytes = false ∨ frameType (rx
      (rdFrame 82 1 2 3 (List.replicate 16 3#8))).bytes ≠ 81)) ∧
    ((mailboxUp (inMode Mode.shadow) = true) ∧ ((inMode Mode.shadow).cry.claim = none)) ∧
    (frameBroken { bytes := rdFrame 81 1 2 3 (List.replicate 16 3#8), broken := true : RxFrame } = true) := by
  and_intros <;> decide +kernel

/-- The hypotheses of EchoIsTakenOrMissed are met, clause by clause. -/
theorem wit_EchoIsTakenOrMissed :
    ((ticking (lnkd Mode.run (twoSt LinkPhase.cyclic good)) = true) ∧ ((lnkd Mode.run (twoSt LinkPhase.cyclic good)).cry.claim = some 2) ∧ (hcrcOk (rx ech).bytes = true)
      ∧ (frameBroken (rx ech) = false) ∧ (frameClaim (rx ech).bytes ≤ 2) ∧ (frameType (rx ech).bytes = 69) ∧ (frameTick (rx ech).bytes = (lnkd Mode.run (twoSt
      LinkPhase.cyclic good)).tck.tick.toNat % 2 ^ 24) ∧ (((lnkd Mode.run (twoSt LinkPhase.cyclic good)).lnk.get 5).summoned = true) ∧ (((lnkd Mode.run (twoSt
      LinkPhase.cyclic good)).lnk.get 5).echoed = false)) ∧
    ((Instr.echoMissing 5 = Instr.echoMissing 5 ∨ Instr.echoMissing 5 = Instr.linkLockLost 5) ∧ (((lnkd Mode.run (twoSt LinkPhase.cyclic good)).lnk.get 5).summoned =
      true) ∧ (((lnkd Mode.run (twoSt LinkPhase.cyclic good)).lnk.get 5).echoed = false)) ∧
    ((Instr.linkLockLost 5 = Instr.echoMissing 5 ∨ Instr.linkLockLost 5 = Instr.linkLockLost 5) ∧ (((lnkd Mode.run (twoSt LinkPhase.cyclic good)).lnk.get 5).summoned =
      true) ∧ (((lnkd Mode.run (twoSt LinkPhase.cyclic good)).lnk.get 5).echoed = false)) := by
  and_intros <;> decide +kernel

/-- The hypotheses of StationsAndLinksComeAndGo are met, clause by clause. -/
theorem wit_StationsAndLinksComeAndGo :
    ((((lnkd Mode.run (twoSt LinkPhase.cyclic good)).lnk.get 5).live[1]? = some good) ∧ (Awake (lnkd Mode.run (twoSt LinkPhase.cyclic good))) ∧ (good.lost = false)) ∧
    ((((lnkd Mode.run (twoSt LinkPhase.cyclic gone)).lnk.get 5).live[1]? = some gone) ∧ (Awake (lnkd Mode.run (twoSt LinkPhase.cyclic gone))) ∧ (gone.lost = true)) ∧
    ((((lnkd Mode.run (twoSt LinkPhase.cyclic gone)).lnk.get 5).live[1]? = some gone) ∧ (Awake (lnkd Mode.run (twoSt LinkPhase.cyclic gone))) ∧ ((251#8).getLsbD 2 =
      false) ∧ (gone.lost = true) ∧ (gone.mapFailed = false) ∧ (blockedAt ((lnkd Mode.run (twoSt LinkPhase.cyclic gone)).lnk.get 5) 1 = false)) ∧
    ((((lnkd Mode.run (twoSt LinkPhase.cyclic w30)).lnk.get 5).live[1]? = some w30) ∧ (Awake (lnkd Mode.run (twoSt LinkPhase.cyclic w30))) ∧ ((251#8).getLsbD 2 = false)
      ∧ (w30.lost = true) ∧ (w30.mapFailed = false) ∧ (blockedAt ((lnkd Mode.run (twoSt LinkPhase.cyclic w30)).lnk.get 5) 1 = false)) ∧
    (Awake (lnkd Mode.run locking)) ∧
    ((Awake (lnkd Mode.run locking)) ∧ (((lnkd Mode.run locking).lnk.get 5).phase = LinkPhase.lock) ∧ (((lnkd Mode.run locking).lnk.get 5).lock = false)) ∧
    ((Awake (lnkd Mode.run rolling)) ∧ (((lnkd Mode.run rolling).lnk.get 5).phase = LinkPhase.roll (1 + 1)) ∧ (((lnkd Mode.run rolling).lnk.get 5).rollSent = true) ∧
      ((lnkd Mode.run rolling).cry.claim = some 2) ∧ (hcrcOk (rx (rdFrame 82 2 10 1 (List.replicate 32 0#8))).bytes = true) ∧ (frameBroken (rx (rdFrame 82 2 10 1
      (List.replicate 32 0#8))) = false) ∧ (fcrcOk (rx (rdFrame 82 2 10 1 (List.replicate 32 0#8))).bytes = true) ∧ (frameType (rx (rdFrame 82 2 10 1 (List.replicate 32
      0#8))).bytes = 82) ∧ (frameDomain (rx (rdFrame 82 2 10 1 (List.replicate 32 0#8))).bytes = domainOf (lnkd Mode.run rolling)) ∧ (frameClaim (rx (rdFrame 82 2 10 1
      (List.replicate 32 0#8))).bytes = 2) ∧ (8 * (7#16).toNat ≤ 1000 * lnkField (lnkd Mode.run rolling) (↑5) 2 8)) ∧
    ((Awake (lnkd Mode.run (twoSt LinkPhase.cyclic gone))) ∧ (holdsClaim (lnkd Mode.run (twoSt LinkPhase.cyclic gone)) = true) ∧ (((lnkd Mode.run (twoSt LinkPhase.cyclic
      gone)).lnk.get 5).phase = LinkPhase.cyclic) ∧ ((((lnkd Mode.run (twoSt LinkPhase.cyclic gone)).lnk.get 5).live.any fun x => x.lost) = true)) := by
  and_intros <;> decide +kernel

/-- The hypotheses of ClaimFencesAndParleyEnds are met, clause by clause. -/
theorem wit_ClaimFencesAndParleyEnds :
    ((mailboxUp (lnkd Mode.run (twoSt LinkPhase.cyclic gone)) = true) ∧ ((lnkd Mode.run (twoSt LinkPhase.cyclic gone)).cry.claim = some 2) ∧ (2 < (9#24).toNat) ∧ ((lnkd
      Mode.run (twoSt LinkPhase.cyclic gone)).tck.pend = none)) ∧
    ((mailboxUp (lnkd Mode.run (twoSt LinkPhase.cyclic gone)) = true) ∧ (∀ (c : Nat), (lnkd Mode.run (twoSt LinkPhase.cyclic gone)).cry.claim = some c → (2#24).toNat ≤
      c)) ∧
    ((mailboxUp (inMode Mode.shadow) = true) ∧ (∀ (c : Nat), (inMode Mode.shadow).cry.claim = some c → (2#24).toNat ≤ c)) ∧
    ((Awake (asked 5)) ∧ (((asked 5).lnk.get 5).out = some parl) ∧ (parl.why = ParleyWhy.host pWho) ∧ (((portSt (asked 5) pWho.port).slots.get pWho.slot).busy = some
      pWho.id) ∧ (hcrcOk (rx (rdFrame 80 2 10 1 resp)).bytes = true) ∧ (frameBroken (rx (rdFrame 80 2 10 1 resp)) = false) ∧ (fcrcOk (rx (rdFrame 80 2 10 1 resp)).bytes
      = true) ∧ (frameType (rx (rdFrame 80 2 10 1 resp)).bytes = 80) ∧ (leAt (frameBody (rx (rdFrame 80 2 10 1 resp)).bytes) 0 1 = 1) ∧ (leAt (frameBody (rx (rdFrame 80
      2 10 1 resp)).bytes) 8 2 = parl.tag) ∧ (leAt (frameBody (rx (rdFrame 80 2 10 1 resp)).bytes) 3 1 = 0)) ∧
    ((Awake (asked 100)) ∧ (((asked 100).lnk.get 5).out = some parl) ∧ (parl.why = ParleyWhy.host pWho) ∧ (100 ≤ ((asked 100).lnk.get 5).outAge) ∧ (((portSt (asked 100)
      pWho.port).slots.get pWho.slot).busy = some pWho.id)) ∧
    ((Awake noticing) ∧ (ticking noticing = true) ∧ (hcrcOk (rx (note 1)).bytes = true) ∧ (frameBroken (rx (note 1)) = false) ∧ (fcrcOk (rx (note 1)).bytes = true) ∧
      (frameType (rx (note 1)).bytes = 78) ∧ (lnkField noticing (↑5) 21 1 = 1)) ∧
    ((Awake noticing) ∧ (ticking noticing = true) ∧ (hcrcOk (rx (note 5)).bytes = true) ∧ (frameBroken (rx (note 5)) = false) ∧ (fcrcOk (rx (note 5)).bytes = true) ∧
      (frameType (rx (note 5)).bytes = 78) ∧ (lnkField noticing (↑5) 21 1 = 1)) := by
  and_intros <;> decide +kernel

/-- The hypotheses of LinkCommandsAct are met, clause by clause. -/
theorem wit_LinkCommandsAct :
    ((leAt (lk ([0#8, 0#8, 0#8] ++ stationBytes (stn 9))).payload 0 1 = ↑5) ∧ (Serving (lnkd Mode.run (twoSt LinkPhase.cyclic good))) ∧ (Quiet (lnkd Mode.run (twoSt
      LinkPhase.cyclic good))) ∧ (expertHeld (lnkd Mode.run (twoSt LinkPhase.cyclic good)) Port.a 7 = false) ∧ (expertHeld (lnkd Mode.run (twoSt LinkPhase.cyclic good))
      Port.b 7 = false) ∧ (4 ≤ (lk ([0#8, 0#8, 0#8] ++ stationBytes (stn 9))).payload.length) ∧ (leAt (lk ([0#8, 0#8, 0#8] ++ stationBytes (stn 9))).payload 1 3 = 0) ∧
      (parseTable (List.drop 4 (lk ([0#8, 0#8, 0#8] ++ stationBytes (stn 9))).payload) = some [stn 9]) ∧ (Begins (lnkd Mode.run (twoSt LinkPhase.cyclic good)) (lk ([0#8,
      0#8, 0#8] ++ stationBytes (stn 9))) 1793)) ∧
    ((leAt (lk [0#8, 0#8, 0#8]).payload 0 1 = ↑5) ∧ (inBoot (lnkd Mode.run (twoSt LinkPhase.cyclic good)) = false) ∧ (linkPayWrong (lk [0#8, 0#8, 0#8]).payload = false)) ∧
    ((leAt (lk [0#8, 0#8, 0#8]).payload 0 1 = ↑5) ∧ (inBoot (lnkd Mode.run (twoSt LinkPhase.cyclic good)) = false) ∧ (linkPayWrong (lk [0#8, 0#8, 0#8]).payload = false)
      ∧ (linkRuns (lnkd Mode.run (twoSt LinkPhase.cyclic good)) ↑5 = true) ∧ (Begins (lnkd Mode.run (twoSt LinkPhase.cyclic good)) (lk [0#8, 0#8, 0#8]) 1795)) ∧
    ((leAt (lk pay).payload 0 1 = ↑5) ∧ (linkRuns (lnkd Mode.run (twoSt LinkPhase.cyclic good)) ↑5 = true) ∧ (33 ≤ (lk pay).payload.length) ∧ (leAt (lk pay).payload 1 1
      = 0) ∧ (1 ≤ leAt (lk pay).payload 3 1) ∧ (leAt (lk pay).payload 3 1 ≤ 16) ∧ (leAt (lk pay).payload 7 2 ≤ 1024) ∧ (Begins (lnkd Mode.run (twoSt LinkPhase.cyclic
      good)) (lk pay) 1796)) ∧
    ((leAt (lk (16#8 :: List.replicate 16 3#8)).payload 0 1 = ↑5) ∧ (linkRuns (lnkd Mode.run (twoSt LinkPhase.cyclic good)) ↑5 = true) ∧ (1 ≤ leAt (lk (16#8 ::
      List.replicate 16 3#8)).payload 1 1) ∧ (leAt (lk (16#8 :: List.replicate 16 3#8)).payload 1 1 ≤ 16) ∧ (2 + leAt (lk (16#8 :: List.replicate 16 3#8)).payload 1 1 ≤
      (lk (16#8 :: List.replicate 16 3#8)).payload.length) ∧ (Begins (lnkd Mode.run (twoSt LinkPhase.cyclic good)) (lk (16#8 :: List.replicate 16 3#8)) 1797)) := by
  and_intros <;> decide +kernel

/-- The hypotheses of CarryEventsOfTheActiveUnit are met, clause by clause. -/
theorem wit_CarryEventsOfTheActiveUnit :
    ((Serving (prun Mode.run)) ∧ ((prun Mode.run).cry.lanes.getLsbD ↑5 = true)) ∧
    ((Serving (inMode Mode.stop)) ∧ (carryUp (inMode Mode.stop) true = false)) ∧
    ((Serving (prun Mode.run)) ∧ (isPair (prun Mode.run) = true) ∧ ((prun Mode.run).cry.lanes.getLsbD 0 = true) ∧ ((prun Mode.run).cry.lanes.getLsbD 4 = true) ∧ ((prun
      Mode.run).slt.claimRun = none) ∧ (∀ (o : SltOp), o ∈ (prun Mode.run).slt.queue → isClaimOp o = false)) ∧
    ((Serving (prun Mode.run)) ∧ ((prun Mode.run).cry.partner = true)) ∧
    ((Serving (prun Mode.run)) ∧ (isPair (prun Mode.run) = true) ∧ ((prun Mode.run).cry.lanes.getLsbD ↑3 = true) ∧ (carryOk (cf 72 0 8 [2#8, 5#8, 0#8, 3#8, 99#8, 0#8,
      0#8, 0#8]) = true) ∧ (carryClaim (cf 72 0 8 [2#8, 5#8, 0#8, 3#8, 99#8, 0#8, 0#8, 0#8]) ≤ (prun Mode.run).cry.stored.toNat) ∧ (carryType (cf 72 0 8 [2#8, 5#8, 0#8,
      3#8, 99#8, 0#8, 0#8, 0#8]) = 72)) ∧
    ((Serving (prun Mode.run)) ∧ (isPair (prun Mode.run) = true) ∧ ((prun Mode.run).cry.lanes.getLsbD ↑3 = true) ∧ (carryOk (cf 72 0 8 [3#8, 2#8, 0#8, 3#8, 99#8, 0#8,
      0#8, 0#8]) = true) ∧ (carryClaim (cf 72 0 8 [3#8, 2#8, 0#8, 3#8, 99#8, 0#8, 0#8, 0#8]) ≤ (prun Mode.run).cry.stored.toNat) ∧ (carryType (cf 72 0 8 [3#8, 2#8, 0#8,
      3#8, 99#8, 0#8, 0#8, 0#8]) = 72)) ∧
    ((Serving (prun Mode.run)) ∧ (isPair (prun Mode.run) = true) ∧ ((prun Mode.run).cry.lanes.getLsbD ↑3 = true) ∧ (carryOk (cf 82 0 8 (List.replicate 32 3#8)) = true) ∧
      (carryClaim (cf 82 0 8 (List.replicate 32 3#8)) ≤ (prun Mode.run).cry.stored.toNat) ∧ (carryType (cf 82 0 8 (List.replicate 32 3#8)) = 82)) ∧
    ((Serving keptRun) ∧ (isPair keptRun = true) ∧ (keptRun.cry.lanes.getLsbD ↑3 = true) ∧ (carryOk (cf 78 0 8 [7#8, 0#8, 0#8, 0#8, 7#8, 0#8, 0#8, 0#8]) = true) ∧
      (carryClaim (cf 78 0 8 [7#8, 0#8, 0#8, 0#8, 7#8, 0#8, 0#8, 0#8]) ≤ keptRun.cry.stored.toNat) ∧ (carryType (cf 78 0 8 [7#8, 0#8, 0#8, 0#8, 7#8, 0#8, 0#8, 0#8]) =
      78) ∧ (holdsClaim keptRun = true) ∧ (List.map (fun i => leAt (carryBody (cf 78 0 8 [7#8, 0#8, 0#8, 0#8, 7#8, 0#8, 0#8, 0#8])) (4 * i) 4) (List.range ((carryBody
      (cf 78 0 8 [7#8, 0#8, 0#8, 0#8, 7#8, 0#8, 0#8, 0#8])).length / 4)) = [7, 7]) ∧ (List.find? (fun e => e.fst == 7) keptRun.cry.kept = some (7, [1#8]))) ∧
    ((Serving (sealing Phase.ended)) ∧ ((sealing Phase.ended).cry.sealTick = some (sealing Phase.ended).tck.tick) ∧ ((sealing Phase.ended).tck.phase = Phase.ended)) ∧
    ((Serving (sealing Phase.compute)) ∧ ((sealing Phase.compute).cry.sealTick = some (sealing Phase.compute).tck.tick) ∧ ((sealing Phase.compute).tck.sealOfs = none) ∧
      ((sealing Phase.compute).cry.overflow = false) ∧ ((sealing Phase.compute).tck.phase = Phase.compute)) ∧
    ((Serving w31) ∧ (w31.cry.sealTick = some w31.tck.tick) ∧ (w31.cry.overflow = false) ∧ (w31.cry.tracked = []) ∧ (w31.cry.bulk = [(3, 0), (2, 0)])) := by
  and_intros <;> decide +kernel

/-- The hypotheses of CarryEventsOfTheStandby are met, clause by clause. -/
theorem wit_CarryEventsOfTheStandby :
    ((shad.tck.mode = Mode.shadow) ∧ (isPair shad = true) ∧ (shad.cry.takeover = none) ∧ (shad.cry.lanes.getLsbD ↑3 = true) ∧ (carryOk (cf 68 5 8 [0#8]) = true) ∧
      (carryClaim (cf 68 5 8 [0#8]) ≤ shad.cry.stored.toNat) ∧ (shad.cry.rxNext = some (carrySeq (cf 68 5 8 [0#8]))) ∧ (shad.cry.rxFrames = []) ∧ (shad.cry.rxSeals = [])
      ∧ (carryType (cf 68 5 8 [0#8]) = 68)) ∧
    ((shad.tck.mode = Mode.shadow) ∧ (isPair shad = true) ∧ (shad.cry.takeover = none) ∧ (shad.cry.lanes.getLsbD ↑3 = true) ∧ (carryOk (cf 67 5 8 ([0#8, 0#8, 0#8, 0#8,
      5#8, 1#8, 0#8, 1#8] ++ List.replicate 8 2#8)) = true) ∧ (carryClaim (cf 67 5 8 ([0#8, 0#8, 0#8, 0#8, 5#8, 1#8, 0#8, 1#8] ++ List.replicate 8 2#8)) ≤
      shad.cry.stored.toNat) ∧ (shad.cry.rxNext = some (carrySeq (cf 67 5 8 ([0#8, 0#8, 0#8, 0#8, 5#8, 1#8, 0#8, 1#8] ++ List.replicate 8 2#8)))) ∧ (shad.cry.rxFrames =
      []) ∧ (shad.cry.rxSeals = []) ∧ (carryType (cf 67 5 8 ([0#8, 0#8, 0#8, 0#8, 5#8, 1#8, 0#8, 1#8] ++ List.replicate 8 2#8)) = 67) ∧ (leAt (carryBody (cf 67 5 8
      ([0#8, 0#8, 0#8, 0#8, 5#8, 1#8, 0#8, 1#8] ++ List.replicate 8 2#8))) 6 1 = shad.cry.ctlParts.length / 1016 % 256)) ∧
    ((shad.tck.mode = Mode.shadow) ∧ (isPair shad = true) ∧ (shad.cry.takeover = none) ∧ (shad.cry.lanes.getLsbD ↑3 = true) ∧ (carryOk (cf 83 5 8 selem) = true) ∧
      (carryClaim (cf 83 5 8 selem) ≤ shad.cry.stored.toNat) ∧ (shad.cry.rxNext = some (carrySeq (cf 83 5 8 selem))) ∧ (shad.cry.rxFrames = []) ∧ (shad.cry.rxSeals = [])
      ∧ (carryType (cf 83 5 8 selem) = 83) ∧ (shad.cry.syncing = false) ∧ (shad.cry.catchUp = []) ∧ (leAt (carryBody (cf 83 5 8 selem)) 8 4 = 0) ∧ (leAt (carryBody (cf
      83 5 8 selem)) 12 4 = crc32 []) ∧ (leAt (carryBody (cf 83 5 8 selem)) 17 1 = 0) ∧ (leAt (carryBody (cf 83 5 8 selem)) 20 4 = carrySeq (cf 83 5 8 selem))) ∧
    ((shad.tck.mode = Mode.shadow) ∧ (isPair shad = true) ∧ (shad.cry.takeover = none) ∧ (shad.cry.lanes.getLsbD ↑3 = true) ∧ (carryOk ff = true) ∧ (carryClaim ff ≤
      shad.cry.stored.toNat) ∧ (carryType ff = 70) ∧ (shad.cry.partner = true) ∧ (leAt (carryBody ff) 2 1 = 0) ∧ (shad.cry.exhausted = false) ∧ (shad.cry.stored.toNat <
      16777214) ∧ (shad.cry.seenField ≤ shad.cry.stored.toNat) ∧ (carryUp shad false = true ∨ carryUp shad true = true) ∧ (shad.cry.readiness = 0#2) ∧ (shad.cry.sealMode
      = 3 ∨ shad.cry.sealMode = 4)) ∧
    ((shadN.tck.mode = Mode.shadow) ∧ (isPair shadN = true) ∧ (shadN.cry.takeover = none) ∧ (shadN.cry.lanes.getLsbD ↑3 = true) ∧ (carryOk ff = true) ∧ (carryClaim ff ≤
      shadN.cry.stored.toNat) ∧ (carryType ff = 70) ∧ (shadN.cry.partner = true) ∧ (leAt (carryBody ff) 2 1 = 0) ∧ (shadN.cry.exhausted = false) ∧
      (shadN.cry.stored.toNat < 16777214) ∧ (shadN.cry.seenField ≤ shadN.cry.stored.toNat) ∧ (carryUp shadN false = true ∨ carryUp shadN true = true) ∧
      (shadN.cry.readiness = 3#2) ∧ (shadN.cry.claim = none)) ∧
    ((w32.tck.mode = Mode.shadow) ∧ (isPair w32 = true) ∧ (w32.cry.takeover = none) ∧ (w32.tck.tick.toNat % healthTicks w32 = 0)) ∧
    ((w33.tck.mode = Mode.shadow) ∧ (isPair w33 = true) ∧ (w33.cry.takeover = none) ∧ (w33.cry.partner = true) ∧ (carryUp w33 false = false) ∧ (carryUp w33 true = false)
      ∧ (w33.cry.readyBefore = 0#2) ∧ (w33.cry.sealMode = 3 ∨ w33.cry.sealMode = 4) ∧ (w33.cry.exhausted = false) ∧ (max w33.cry.stored.toNat (max w33.cry.seenPartner
      w33.cry.seenField) < 16777214)) ∧
    ((shad.tck.mode = Mode.shadow) ∧ (isPair shad = true) ∧ (shad.cry.takeover = none) ∧ (shad.cry.item < selfItems)) ∧
    ((shad.tck.mode = Mode.shadow) ∧ (isPair shad = true) ∧ (shad.cry.takeover = none) ∧ (shad.cry.item < selfItems) ∧ (shad.tck.pend = none)) := by
  and_intros <;> decide +kernel

/-- The hypotheses of CarryAndCanCommandsAct are met, clause by clause. -/
theorem wit_CarryAndCanCommandsAct :
    (((reqOf []).payload = []) ∧ ((prun Mode.run).tck.mode = Mode.run) ∧ (transPending (prun Mode.run) = false) ∧ ((prun Mode.run).chg.stage = ChgStage.idle) ∧
      (holdsClaim (prun Mode.run) = true) ∧ (partnerShadow (prun Mode.run) = true) ∧ ((prun Mode.run).cry.pReady = 0#8) ∧ ((prun Mode.run).cry.exhausted = false) ∧ (max
      (prun Mode.run).cry.stored.toNat (max (prun Mode.run).cry.seenPartner (prun Mode.run).cry.seenField) < 16777214) ∧ (Begins (prun Mode.run) (reqOf []) 2049)) ∧
    (((reqOf []).payload = []) ∧ (inBoot (prun Mode.run) = false) ∧ (holdsClaim (prun Mode.run) = true) ∧ (partnerShadow (prun Mode.run) = true) ∧ (Begins (prun
      Mode.run) (reqOf []) 2050)) ∧
    (((reqOf []).payload = []) ∧ (inBoot (prun Mode.shadow) = false) ∧ (Begins (prun Mode.shadow) (reqOf []) 2051)) ∧
    ((Serving (setC canOn w44)) ∧ ((c1 0 0).payload.length = 4) ∧ (leAt (c1 0 0).payload 0 1 = ↑1) ∧ (leAt (c1 0 0).payload 1 3 = 0) ∧ (Begins (setC canOn w44) (c1 0 0)
      2817)) ∧
    ((Serving lsn) ∧ ((c1 0 10000).payload.length = 4) ∧ (leAt (c1 0 10000).payload 0 1 = ↑1) ∧ (leAt (c1 0 10000).payload 1 1 = 0) ∧ (10 ≤ leAt (c1 0 10000).payload 2
      2) ∧ (leAt (c1 0 10000).payload 2 2 ≤ 10000) ∧ ((canAt lsn ↑1).det = none) ∧ (canEnabled lsn ↑1 = true) ∧ (canField lsn (↑1) 0 0 2 = 1) ∧ (Begins lsn (c1 0 10000)
      2818)) ∧
    ((Serving hpS) ∧ ((c1 0 0).payload.length = 4) ∧ (leAt (c1 0 0).payload 0 1 = ↑1) ∧ (leAt (c1 0 0).payload 2 2 = 0) ∧ ((hpObjects (blkCfg hpS 11).inForce ↑1)[leAt
      (c1 0 0).payload 1 1]? = some 3) ∧ (Begins hpS (c1 0 0) 2819)) := by
  and_intros <;> decide +kernel

/-- The hypotheses of NetworkTimeEvents are met, clause by clause. -/
theorem wit_NetworkTimeEvents :
    ((Awake (ptp3 4)) ∧ (ptpOn (ptp3 4) false = true) ∧ ((ptpPort (ptp3 4) false).st ≠ 1)) ∧
    ((Awake slvN) ∧ (ptpOn slvN true = true) ∧ ((ptpPort slvN true).st ≠ 1) ∧ (slvN.ntm.slave = some true) ∧ (PtpMsg.sync (0#7) (0#80) (9#16) (some 4999999900) =
      PtpMsg.sync (BitVec.ofNat 7 (ptpDomain slvN)) slvN.ntm.parent (9#16) (some 4999999900)) ∧ (5000000000 = timeNs slvN + ↑(ingressNs slvN true))) ∧
    ((Awake slvN) ∧ (ptpOn slvN true = true) ∧ ((ptpPort slvN true).st ≠ 1) ∧ (slvN.ntm.slave = some true) ∧ (PtpMsg.sync (0#7) (0#80) (9#16) (some 4998000000) =
      PtpMsg.sync (BitVec.ofNat 7 (ptpDomain slvN)) slvN.ntm.parent (9#16) (some 4998000000)) ∧ (5000000000 = timeNs slvN + ↑(ingressNs slvN true))) ∧
    ((Awake slvF) ∧ (ptpOn slvF true = true) ∧ ((ptpPort slvF true).st ≠ 1) ∧ (slvF.ntm.slave = some true) ∧ (PtpMsg.followUp (0#7) (0#80) (9#16) 4999999900 =
      PtpMsg.followUp (BitVec.ofNat 7 (ptpDomain slvF)) slvF.ntm.parent (9#16) 4999999900) ∧ ((ptpPort slvF true).syncIn = some (5000000000, 9#16))) ∧
    ((Awake slvN) ∧ (slvN.ntm.slave = some true) ∧ (5#80 ≠ slvN.ntm.parent ∨ (0#7).toNat ≠ ptpDomain slvN)) ∧
    ((Awake slvN) ∧ (ptpOn slvN true = true) ∧ ((ptpPort slvN true).st ≠ 1) ∧ (slvN.ntm.slave = some true)) ∧
    ((Awake listening) ∧ (ptpOn listening true = true) ∧ ((ptpPort listening true).st ≠ 1) ∧ (ann.domain.toNat = ptpDomain listening) ∧ (slaveOnly listening = true) ∧
      (listening.ntm.slave = none) ∧ (listening.ntm.p0.best = none) ∧ (listening.ntm.p1.best = none) ∧ ((ptpPort listening true).foreign = [])) ∧
    ((Awake lostM) ∧ (lostM.ntm.slave = some true) ∧ ((ptpPort lostM !true).best = none) ∧ (lostM.ntm.quality = 0#2)) ∧
    ((Awake w34) ∧ (w34.ntm.quality = 1#2) ∧ (w34.ntm.holdAt + 60000000000 * cfgField w34 9 264 16 16 ≤ w34.now)) ∧
    (Awake w35) ∧
    ((Awake w35) ∧ (w35.ntm.slew ≠ 0)) ∧
    ((Awake slvN) ∧ (slvN.ntm.slew = 0)) ∧
    (Awake w36) ∧
    ((Awake w37) ∧ (w37.ntm.utc.getLsbD 17 = true)) ∧
    ((Awake slv) ∧ (Answers slv Port.b)) ∧
    ((Awake (lnState 6)) ∧ (launchQueue (lnState 6) true = [ln]) ∧ (((portSt (lnState 6) ln.who.port).slots.get ln.who.slot).busy = some ln.who.id) ∧ (timeNs (lnState 6)
      < ↑(launchNs ln))) ∧
    ((Awake lnBusy) ∧ (launchQueue lnBusy true = [ln]) ∧ (((portSt lnBusy ln.who.port).slots.get ln.who.slot).busy = some ln.who.id) ∧ (↑(launchNs ln) ≤ timeNs lnBusy) ∧
      (timeNs lnBusy ≤ ↑(launchNs ln + 8)) ∧ (lnBusy.now < (ptpPort lnBusy true).busyUntil)) ∧
    ((Awake (lnState 7)) ∧ (launchQueue (lnState 7) true = [ln]) ∧ (((portSt (lnState 7) ln.who.port).slots.get ln.who.slot).busy = some ln.who.id) ∧ (↑(launchNs ln) ≤
      timeNs (lnState 7)) ∧ (timeNs (lnState 7) ≤ ↑(launchNs ln + 8)) ∧ ((ptpPort (lnState 7) true).busyUntil ≤ (lnState 7).now)) ∧
    ((Awake (lnState 15)) ∧ (launchQueue (lnState 15) true = [ln]) ∧ (((portSt (lnState 15) ln.who.port).slots.get ln.who.slot).busy = some ln.who.id) ∧ (↑(launchNs ln)
      ≤ timeNs (lnState 15)) ∧ (timeNs (lnState 15) ≤ ↑(launchNs ln + 8)) ∧ ((ptpPort (lnState 15) true).busyUntil ≤ (lnState 15).now)) ∧
    ((Awake (lnState 16)) ∧ (launchQueue (lnState 16) true = [ln]) ∧ (((portSt (lnState 16) ln.who.port).slots.get ln.who.slot).busy = some ln.who.id) ∧ (↑(launchNs ln +
      8) < timeNs (lnState 16))) := by
  and_intros <;> decide +kernel

/-- The hypotheses of NetworkTimeCommandsAct are met, clause by clause. -/
theorem wit_NetworkTimeCommandsAct :
    ((Serving (rec1 Mode.run)) ∧ (ntmMode (rec1 Mode.run) = 0) ∧ (tReq.payload.length = 12) ∧ (leAt tReq.payload 6 2 = 0) ∧ (leAt tReq.payload 8 4 ≤ 999999999) ∧ (Begins
      (rec1 Mode.run) tReq 2305)) ∧
    ((Serving (rec1 Mode.run)) ∧ (2 ≤ (rec1 Mode.run).ntm.quality.toNat) ∧ (uReq.payload.length = 4) ∧ (leAt uReq.payload 3 1 = 0) ∧ (leAt uReq.payload 2 1 ≤ 3) ∧
      (Begins (rec1 Mode.run) uReq 2306)) ∧
    ((Serving (rec1 Mode.run)) ∧ (lReq.payload.length = 12) ∧ (leAt lReq.payload 0 1 ≤ 1) ∧ (leAt lReq.payload 1 1 = 0) ∧ (leAt lReq.payload 8 4 ≤ 999999999) ∧
      ((launchQueue (rec1 Mode.run) (leAt lReq.payload 0 1 == 1)).length < 16) ∧ (60 ≤ lReq.hostLen.toNat) ∧ (lReq.hostLen.toNat ≤ 1514) ∧ (Begins (rec1 Mode.run) lReq
      2307)) ∧
    ((Serving (rec1 Mode.run)) ∧ ((reqOf []).payload = []) ∧ (Begins (rec1 Mode.run) (reqOf []) 2308)) := by
  and_intros <;> decide +kernel

/-- The hypotheses of BedrockEvents are met, clause by clause. -/
theorem wit_BedrockEvents :
    (Awake (rec1 Mode.run)) ∧
    ((Awake (rec1 Mode.run)) ∧ (2000 ≤ (2000#12).toNat)) ∧
    ((Awake (rec1 Mode.run)) ∧ ((1999#12).toNat < 2000) ∧ ((rec1 Mode.run).brk.backupLow = false)) ∧
    ((Awake wakeSt) ∧ (wakeSt.brk.inReset = false) ∧ (wakeDue wakeSt = true)) ∧
    ((Awake w38) ∧ (w38.brk.inReset = false) ∧ (w38.brk.cdRun = true) ∧ (w38.brk.cd = 0)) ∧
    ((Awake evSt) ∧ (evSt.brk.inReset = false) ∧ (evField evSt (↑3) 0 2 = 1) ∧ (bitOf (evField evSt (↑3) 2 2) (if true = true then 0 else 1) = true)) ∧
    ((Awake trimSt) ∧ (trimSt.brk.inReset = false) ∧ (trimSource trimSt = 2) ∧ (trimWindowOver trimSt = true) ∧ (trimSt.brk.winOk = true) ∧ (trimRefValid trimSt = true)) ∧
    ((Awake w39) ∧ (w39.brk.inReset = false) ∧ (trimSource w39 = 2) ∧ (trimWindowOver w39 = true) ∧ (w39.brk.winOk = false)) ∧
    ((Awake (folSt 98000)) ∧ ((folSt 98000).brk.inReset = false) ∧ (cfgBit (folSt 98000) 10 256 4 = true) ∧ ((folSt 98000).ntm.quality = 0#2) ∧ (brkOpBusy (folSt 98000)
      = none) ∧ ((timeNs (folSt 98000) * 32768 - ↑(rtcCount (folSt 98000).brk * 1000000000)).natAbs < 99 * 32768000)) ∧
    ((Awake (folSt 100000)) ∧ ((folSt 100000).brk.inReset = false) ∧ (cfgBit (folSt 100000) 10 256 4 = true) ∧ ((folSt 100000).ntm.quality = 0#2) ∧ (brkOpBusy (folSt
      100000) = none) ∧ (100 * 32768000 ≤ timeNs (folSt 100000) * 32768 - ↑(rtcCount (folSt 100000).brk * 1000000000)) ∧ (timeNs (folSt 100000) * 32768 - ↑(rtcCount
      (folSt 100000).brk * 1000000000) < 999999 * 32768000)) ∧
    ((Awake (hand (BrkOp.set 5 32767))) ∧ ((hand (BrkOp.set 5 32767)).brk.handed = some (BrkOp.set 5 32767))) ∧
    ((Awake (hand (BrkOp.shift (-70000)))) ∧ ((hand (BrkOp.shift (-70000))).brk.handed = some (BrkOp.shift (-70000))) ∧ ((0 : Int) ≤ (rtcCount (hand (BrkOp.shift
      (-70000))).brk : Nat) + (-70000))) := by
  and_intros <;> decide +kernel

/-- The hypotheses of BedrockCommandsAct are met, clause by clause. -/
theorem wit_BedrockCommandsAct :
    ((Serving (rec1 Mode.run)) ∧ (Answers (rec1 Mode.run) Port.b)) ∧
    ((Serving expA) ∧ (Answers expA Port.b) ∧ ((portSt expA Port.b).expert.getLsbD 10 = true)) ∧
    ((Serving (rec1 Mode.run)) ∧ (blkBusy (rec1 Mode.run) 10 = false) ∧ (transPending (rec1 Mode.run) = false) ∧ ((rec1 Mode.run).brk.handed = none) ∧ (Begins (rec1
      Mode.run) bt 2561)) ∧
    ((Serving (rec1 Mode.run)) ∧ (blkBusy (rec1 Mode.run) 10 = false) ∧ (transPending (rec1 Mode.run) = false) ∧ ((rec1 Mode.run).brk.handed = none) ∧ (Begins (rec1
      Mode.run) bt 2562)) ∧
    ((Serving (rec1 Mode.run)) ∧ (pw.payload.length = 4) ∧ (leAt pw.payload 0 1 ≤ 1) ∧ (leAt pw.payload 1 3 = 0) ∧ (Begins (rec1 Mode.run) pw 2563)) ∧
    ((Serving (rec1 Mode.run)) ∧ ((reqOf []).payload = []) ∧ (Begins (rec1 Mode.run) (reqOf []) 2564)) := by
  and_intros <;> decide +kernel

/-- The hypotheses of CanEvents are met, clause by clause. -/
theorem wit_CanEvents :
    ((Awake canOn) ∧ (canEnabled canOn ↑1 = true) ∧ ((canAt canOn ↑1).busOff = false) ∧ ((canAt canOn ↑1).det = none) ∧ (cfr.remote = false) ∧ (cfr.fdf = true → canField
      canOn (↑1) 0 2 1 ≠ 0) ∧ ((canAt canOn ↑1).rxErr ≤ 127) ∧ (ttRole canOn ↑1 = 0) ∧ ((canMatch canOn (↑1) cfr 128 0).fst = none)) ∧
    ((Awake canRx) ∧ (canEnabled canRx ↑1 = true) ∧ ((canAt canRx ↑1).busOff = false) ∧ ((canAt canRx ↑1).det = none) ∧ (cfr.remote = false) ∧ (cfr.fdf = true → canField
      canRx (↑1) 0 2 1 ≠ 0) ∧ ((canAt canRx ↑1).rxErr ≤ 127) ∧ (ttRole canRx ↑1 = 0) ∧ ((canMatch canRx (↑1) cfr 128 0).fst = some 3) ∧ (hpRank canRx (↑1) 3 = none) ∧
      ((canObjSt (canAt canRx ↑1) 3).failed = false)) ∧
    ((Awake canRx) ∧ (canEnabled canRx ↑1 = true) ∧ (objReceive canRx ↑1 ↑3 = true) ∧ (objField canRx (↑1) (↑3) 8 12 12 ≠ 0) ∧ ((canObjSt (canAt canRx ↑1) ↑3).failed =
      false) ∧ ((canObjSt (canAt canRx ↑1) ↑3).seen + objField canRx (↑1) (↑3) 8 12 12 ≤ canRx.tck.tick.toNat)) ∧
    ((Awake (txing 0)) ∧ (canEnabled (txing 0) ↑1 = true) ∧ (canListen (txing 0) ↑1 = false) ∧ ((canAt (txing 0) ↑1).cur = some ctx) ∧ ((canAt (txing 0) ↑1).busOff =
      false) ∧ (ctx.obj < 128) ∧ ((canAt (txing 0) ↑1).passive = false ∧ (canAt (txing 0) ↑1).txErr < 128 ∧ (canAt (txing 0) ↑1).rxErr < 128 ∨ (canAt (txing 0)
      ↑1).passive = true ∧ 128 < (canAt (txing 0) ↑1).txErr ∧ (canAt (txing 0) ↑1).txErr < 256)) ∧
    ((Awake (txing 119)) ∧ (canEnabled (txing 119) ↑1 = true) ∧ (canListen (txing 119) ↑1 = false) ∧ ((canAt (txing 119) ↑1).cur = some ctx) ∧ (ctx.oneShot = false) ∧
      ((canAt (txing 119) ↑1).rxErr < 128) ∧ ((canAt (txing 119) ↑1).busOff = false) ∧ ((canAt (txing 119) ↑1).txErr < 120) ∧ ((canAt (txing 119) ↑1).passive = false) ∧
      (((canAt (txing 119) ↑1).queue.any fun x => decide (x.obj = ctx.obj)) = false)) ∧
    ((Awake (txing 248)) ∧ (canEnabled (txing 248) ↑1 = true) ∧ (canListen (txing 248) ↑1 = false) ∧ ((canAt (txing 248) ↑1).cur = some ctx) ∧ (ctx.oneShot = false) ∧
      ((canAt (txing 248) ↑1).rxErr < 128) ∧ ((canAt (txing 248) ↑1).busOff = false) ∧ (248 ≤ (canAt (txing 248) ↑1).txErr) ∧ ((canAt (txing 248) ↑1).queue = [])) ∧
    ((Awake (setC canOn w40)) ∧ (canEnabled (setC canOn w40) ↑1 = true) ∧ (canListen (setC canOn w40) ↑1 = false) ∧ ((canAt (setC canOn w40) ↑1).cur = some ctx) ∧
      (ctx.oneShot = false) ∧ ((canAt (setC canOn w40) ↑1).rxErr < 128) ∧ ((canAt (setC canOn w40) ↑1).busOff = false) ∧ ((canAt (setC canOn w40) ↑1).txErr < 120) ∧
      ((canAt (setC canOn w40) ↑1).passive = false) ∧ (((canAt (setC canOn w40) ↑1).queue.any fun x => decide (x.obj = ctx.obj)) = true)) ∧
    ((Awake txPassive) ∧ (canEnabled txPassive ↑1 = true) ∧ (canListen txPassive ↑1 = false) ∧ ((canAt txPassive ↑1).cur = some ctxF) ∧ ((canAt txPassive ↑1).busOff =
      false) ∧ (ctxF.obj < 128) ∧ ((canAt txPassive ↑1).passive = false ∧ (canAt txPassive ↑1).txErr < 128 ∧ (canAt txPassive ↑1).rxErr < 128 ∨ (canAt txPassive
      ↑1).passive = true ∧ 128 < (canAt txPassive ↑1).txErr ∧ (canAt txPassive ↑1).txErr < 256)) ∧
    ((Awake (setC canOn w41)) ∧ ((canAt (setC canOn w41) ↑1).busOff = true) ∧ ((canAt (setC canOn w41) ↑1).recovering = true)) ∧
    ((Awake canTt) ∧ (canSends canTt ↑1 = true) ∧ (objSend canTt ↑1 ↑3 = true) ∧ (objTt canTt ↑1 ↑3 = true) ∧ (canFormatOn canTt (↑1) (objField canTt (↑1) (↑3) 4 29 2 !=
      0) = true) ∧ (ttRole canTt ↑1 ≠ 0) ∧ ((canAt canTt ↑1).ttSync = true) ∧ ((canAt canTt ↑1).cycle % 2 ^ objField canTt (↑1) (↑3) 12 22 3 = objField canTt (↑1) (↑3)
      12 16 6) ∧ ((canAt canTt ↑1).cur = none)) ∧
    ((Awake canTt) ∧ (canSends canTt ↑1 = true) ∧ (objSend canTt ↑1 ↑3 = true) ∧ (objTt canTt ↑1 ↑3 = true) ∧ (canFormatOn canTt (↑1) (objField canTt (↑1) (↑3) 4 29 2 !=
      0) = true) ∧ (ttRole canTt ↑1 ≠ 0) ∧ ((canAt canTt ↑1).ttSync = true) ∧ ((canAt canTt ↑1).cycle % 2 ^ objField canTt (↑1) (↑3) 12 22 3 = objField canTt (↑1) (↑3)
      12 16 6)) ∧
    ((Awake canTt) ∧ (canEnabled canTt ↑1 = true) ∧ (ttRole canTt ↑1 ≠ 0) ∧ ((canAt canTt ↑1).ttSync = true) ∧ ((canAt canTt ↑1).lastRef + 3 * canField canTt (↑1) 12 5
      12 ≤ canTt.tck.tick.toNat)) ∧
    ((Awake (setC canOn w42)) ∧ (canEnabled (setC canOn w42) ↑1 = true) ∧ (canListen (setC canOn w42) ↑1 = false) ∧ ((canAt (setC canOn w42) ↑1).busOff = false) ∧
      ((canAt (setC canOn w42) ↑1).passive = false) ∧ ((canAt (setC canOn w42) ↑1).txErr < 128) ∧ ((canAt (setC canOn w42) ↑1).rxErr ≤ 255) ∧ (min 255 ((canAt (setC
      canOn w42) ↑1).rxErr + if true = true then 8 else 1) < 128)) ∧
    ((Awake (setC canOn w43)) ∧ (canEnabled (setC canOn w43) ↑1 = true) ∧ (canListen (setC canOn w43) ↑1 = false) ∧ ((canAt (setC canOn w43) ↑1).busOff = false) ∧
      ((canAt (setC canOn w43) ↑1).passive = false) ∧ ((canAt (setC canOn w43) ↑1).txErr < 128) ∧ ((canAt (setC canOn w43) ↑1).rxErr ≤ 255) ∧ (128 ≤ min 255 ((canAt
      (setC canOn w43) ↑1).rxErr + if false = true then 8 else 1))) ∧
    ((Awake (detSt 7)) ∧ ((canAt (detSt 7) ↑1).det = some (cdet 7)) ∧ ((cdet 7).nominal = none) ∧ (((portSt (detSt 7) (cdet 7).who.port).slots.get (cdet
      7).who.slot).busy = some (cdet 7).who.id) ∧ ((cdet 7).index < 8)) ∧
    ((Awake (detSt 8)) ∧ ((canAt (detSt 8) ↑1).det = some (cdet 8)) ∧ ((cdet 8).nominal = none) ∧ (((portSt (detSt 8) (cdet 8).who.port).slots.get (cdet
      8).who.slot).busy = some (cdet 8).who.id)) := by
  and_intros <;> decide +kernel

/-- The hypotheses of LocalChannelEvents are met, clause by clause. -/
theorem wit_LocalChannelEvents :
    ((Awake (lchS 1)) ∧ ((lchS 1).lch.groupFail.getLsbD ↑2 = false)) ∧
    ((Awake w45) ∧ (w45.lch.groupFail.getLsbD ↑2 = true)) ∧
    ((Awake (lchS 5)) ∧ (groupEnabled (lchS 5) (↑2 / 8) = true) ∧ (edgeMode (chMode (lchS 5) ↑2) = true) ∧ ((lchS 5).lch.level.getLsbD ↑2 = !true)) ∧
    ((Awake w46) ∧ (groupEnabled w46 (↑2 / 8) = true) ∧ (edgeMode (chMode w46 ↑2) = true) ∧ (w46.lch.level.getLsbD ↑2 = !false)) ∧
    ((Awake (lchS 3)) ∧ (groupEnabled (lchS 3) (↑2 / 8) = true) ∧ (chMode (lchS 3) ↑2 = 3) ∧ ((lchS 3).lch.breaks.getLsbD ↑2 = false)) ∧
    ((Awake w47) ∧ (groupEnabled w47 (↑2 / 8) = true) ∧ (w47.lch.breaks.getLsbD ↑2 = true)) ∧
    ((Awake (lchS 6)) ∧ (groupEnabled (lchS 6) (↑2 / 8) = true) ∧ (chMode (lchS 6) ↑2 = 6) ∧ (↑2 ≤ 7) ∧ (25 ≤ 25)) ∧
    ((Awake (lchS 6)) ∧ (groupEnabled (lchS 6) (↑2 / 8) = true) ∧ (chMode (lchS 6) ↑2 = 6) ∧ (↑2 ≤ 7) ∧ (2 ≤ 24) ∧ (24 < 25)) ∧
    ((Awake w48) ∧ (chMode w48 ↑2 = 4)) ∧
    ((Awake w49) ∧ (chMode w49 ↑2 = 4) ∧ (cfgBit w49 12 256 4 = true) ∧ (retryDue w49 (outputOf w49 ↑2).fst = true) ∧ (w49.lch.overload &&& chBits (outputOf w49 ↑2).fst
      (outputOf w49 ↑2).snd ≠ 0#32)) ∧
    ((Awake w50) ∧ (Serving w50) ∧ (Answers w50 Port.b) ∧ ((portSt w50 Port.b).expert.getLsbD 12 = true)) ∧
    ((Awake (lchS 20)) ∧ (Serving (lchS 20)) ∧ ((reqOf [1#8, 2#8, 3#8, 255#8]).payload.length = 4) ∧ (Begins (lchS 20) (reqOf [1#8, 2#8, 3#8, 255#8]) 3073)) := by
  and_intros <;> decide +kernel

/-- The hypotheses of MeterEventsAndCommands are met, clause by clause. -/
theorem wit_MeterEventsAndCommands :
    ((ticking mtrS = true) ∧ (feederOn mtrS ↑0 = true) ∧ ((feederAt mtrS ↑0).lost = false ∨ cm.timed = true)) ∧
    ((ticking failedS = true) ∧ (feederOn failedS ↑0 = true) ∧ ((feederAt failedS ↑0).lost = false ∨ cm.timed = true)) ∧
    ((ticking sagS = true) ∧ (feederOn sagS ↑0 = true) ∧ ((feederAt sagS ↑0).lost = false ∨ false = true) ∧ ((feederAt sagS ↑0).halfPrev = none)) ∧
    ((ticking (setF sagS sagX) = true) ∧ (feederOn (setF sagS sagX) ↑0 = true) ∧ ((feederAt (setF sagS sagX) ↑0).lost = false ∨ false = true) ∧ ((feederAt (setF sagS
      sagX) ↑0).halfPrev = some w51) ∧ (0 < w51.n + (feederAt (setF sagS sagX) ↑0).half.n) ∧ (feederFailed (setF sagS sagX) ↑0 = false) ∧ ((feederAt (setF sagS sagX)
      ↑0).sag = none) ∧ (((halfSquares (setF sagS sagX) (↑0) (halfSumAdd w51 (feederAt (setF sagS sagX) ↑0).half)).any fun v => decide (v < pctSquare (setF sagS sagX)
      (↑0) (fdrField (setF sagS sagX) (↑0) 16 0 7))) = true)) ∧
    ((ticking (setF sagS w52) = true) ∧ (feederOn (setF sagS w52) ↑0 = true) ∧ ((feederAt (setF sagS w52) ↑0).lost = false)) ∧
    ((ticking (setF sagS w53) = true) ∧ (feederOn (setF sagS w53) ↑0 = true) ∧ ((feederAt (setF sagS w53) ↑0).latchPend = none) ∧ ((feederAt (setF sagS w53) ↑0).trig =
      [])) ∧
    ((ticking (setF sagS w54) = true) ∧ (feederOn (setF sagS w54) ↑0 = true) ∧ (fdrField (setF sagS w54) (↑0) 0 14 16 ≤ (feederAt (setF sagS w54) ↑0).cyc) ∧ ((feederAt
      (setF sagS w54) ↑0).latchPend = none)) ∧
    ((ticking mtrS = true) ∧ (mtrS.mtr.chFail.getLsbD ↑3 = false)) ∧
    ((ticking mtrS = true) ∧ (mtrS.mtr.chFail.getLsbD ↑23 = false)) ∧
    ((ticking failedS = true) ∧ (failedS.mtr.chFail.getLsbD ↑0 = true)) ∧
    (ticking mtrS = true) ∧
    ((ticking w55 = true) ∧ (w55.pwr.pfwAt.isSome = true) ∧ (w55.mtr.captured = false)) ∧
    ((ticking w56 = true) ∧ (w56.mtr.captured = true) ∧ (w56.pwr.pfwAt = some 5) ∧ (5 + 2000000 ≤ w56.now)) ∧
    ((inBoot latS = false) ∧ ((reqOf [0#8, 0#8, 0#8, 0#8]).payload.length = 4) ∧ (leAt (reqOf [0#8, 0#8, 0#8, 0#8]).payload 1 3 = 0) ∧ (leAt (reqOf [0#8, 0#8, 0#8,
      0#8]).payload 0 1 ≤ 3) ∧ ((feederAt latS (leAt (reqOf [0#8, 0#8, 0#8, 0#8]).payload 0 1)).latchCut = some (lat, 9#64)) ∧ (Begins latS (reqOf [0#8, 0#8, 0#8, 0#8])
      3329)) ∧
    ((Serving mtrS) ∧ (blkBusy mtrS 13 = false) ∧ (transPending mtrS = false) ∧ (Begins mtrS preq 3330)) := by
  and_intros <;> decide +kernel

/-- The hypotheses of SlateCommandsAct are met, clause by clause. -/
theorem wit_SlateCommandsAct :
    ((mailboxUp sltS = true) ∧ (sltS.slt.run = none) ∧ (sltS.slt.claimRun = none) ∧ (nextOp sltS.slt.queue = some (so 3 (SltWork.raw 256 [1#8, 2#8]))) ∧ (isClaimOp (so 3
      (SltWork.raw 256 [1#8, 2#8])) = false)) ∧
    (((runS (SltWork.readRaw 256 2)).pending = []) ∧ (Awake (runS (SltWork.readRaw 256 2))) ∧ ((runS (SltWork.readRaw 256 2)).slt.claimRun = none) ∧ ((runS
      (SltWork.readRaw 256 2)).slt.run = some (runX (SltWork.readRaw 256 2))) ∧ ((runX (SltWork.readRaw 256 2)).finish ≤ (runS (SltWork.readRaw 256 2)).now + 1) ∧ ((runX
      (SltWork.readRaw 256 2)).op.who = some sWho) ∧ (((portSt (runS (SltWork.readRaw 256 2)) sWho.port).slots.get sWho.slot).busy = some sWho.id) ∧ (isWriteOp (runX
      (SltWork.readRaw 256 2)).op = false) ∧ ((runX (SltWork.readRaw 256 2)).words = []) ∧ ((runS (SltWork.readRaw 256 2)).slt.ecc = [])) ∧
    (((runS (SltWork.raw 256 [7#8])).pending = []) ∧ (Awake (runS (SltWork.raw 256 [7#8]))) ∧ ((runS (SltWork.raw 256 [7#8])).slt.claimRun = none) ∧ ((runS (SltWork.raw
      256 [7#8])).slt.run = some (runX (SltWork.raw 256 [7#8]))) ∧ ((runX (SltWork.raw 256 [7#8])).finish ≤ (runS (SltWork.raw 256 [7#8])).now + 1) ∧ ((runX (SltWork.raw
      256 [7#8])).op.who = some sWho) ∧ (((portSt (runS (SltWork.raw 256 [7#8])) sWho.port).slots.get sWho.slot).busy = some sWho.id) ∧ ((runX (SltWork.raw 256
      [7#8])).op.work = SltWork.raw 256 [7#8]) ∧ (sWho.code ≠ 4355#16)) ∧
    ((inBoot (rec1 Mode.run) = false) ∧ (leAt (sr 511 0 []).payload 0 2 ≤ 511) ∧ (leAt (sr 511 0 []).payload 2 2 = 0) ∧ (Begins (rec1 Mode.run) (sr 511 0 []) 3585)) ∧
    ((inBoot (rec1 Mode.shadow) = false) ∧ (1 ≤ leAt (sr 3840 256 []).payload 2 2) ∧ (leAt (sr 3840 256 []).payload 2 2 ≤ 256) ∧ (leAt (sr 3840 256 []).payload 0 2 +
      leAt (sr 3840 256 []).payload 2 2 ≤ 4096) ∧ (Begins (rec1 Mode.shadow) (sr 3840 256 []) 3587)) ∧
    ((inBoot (rec1 Mode.run) = false) ∧ (rawWrong rw.payload = false) ∧ (leAt rw.payload 6 2 = 0) ∧ (Begins (rec1 Mode.run) rw 3589)) ∧
    ((inBoot (rec1 Mode.run) = false) ∧ (Serving (rec1 Mode.run)) ∧ (256 ≤ leAt (sr 256 240 (List.replicate 240 7#8)).payload 0 2) ∧ (leAt (sr 256 240 (List.replicate
      240 7#8)).payload 0 2 ≤ 511) ∧ (leAt (sr 256 240 (List.replicate 240 7#8)).payload 2 2 ≤ 240) ∧ ((sr 256 240 (List.replicate 240 7#8)).payload.length = 4 + leAt
      (sr 256 240 (List.replicate 240 7#8)).payload 2 2) ∧ (Begins (rec1 Mode.run) (sr 256 240 (List.replicate 240 7#8)) 3586)) ∧
    ((inBoot (rec1 Mode.run) = false) ∧ (Serving (rec1 Mode.run)) ∧ (256 ≤ leAt (sr 4095 0 (leBytes 4 16777215)).payload 0 2) ∧ (leAt (sr 4095 0 (leBytes 4
      16777215)).payload 0 2 ≤ 4095) ∧ (leAt (sr 4095 0 (leBytes 4 16777215)).payload 2 2 = 0) ∧ (1 ≤ leAt (sr 4095 0 (leBytes 4 16777215)).payload 4 4) ∧ (leAt (sr 4095
      0 (leBytes 4 16777215)).payload 4 4 ≤ 16777215) ∧ (Begins (rec1 Mode.run) (sr 4095 0 (leBytes 4 16777215)) 3588)) ∧
    ((inBoot (rec1 Mode.run) = false) ∧ (Serving (rec1 Mode.run)) ∧ (rawWrong rw.payload = false) ∧ (leAt rw.payload 6 2 = 0) ∧ (rw.payload.length = 8 + leAt rw.payload
      4 2) ∧ (Begins (rec1 Mode.run) rw 3590)) := by
  and_intros <;> decide +kernel

/-- The hypotheses of RecorderReadsAndCopies are met, clause by clause. -/
theorem wit_RecorderReadsAndCopies :
    ((Answers w57 Port.b) ∧ ((portSt w57 Port.b).cursor = w57.recd.head)) ∧
    ((Answers w58 Port.b) ∧ ((portSt w58 Port.b).cursor ≠ w58.recd.head) ∧ (ringRecAt w58.recd (portSt w58 Port.b).cursor = some theRec) ∧ (theRec.entered + 2000 ≤
      w58.now) ∧ (ringSlot w58.recd (portSt w58 Port.b).cursor = some (padTo 32 (slice (recBytes theRec.body) 0 32)))) ∧
    (Answers w59 Port.b) ∧
    ((inBoot recS = false) ∧ ((reqOf (leBytes 1 1 ++ leBytes 7 0)).payload.length = 8) ∧ (leAt (reqOf (leBytes 1 1 ++ leBytes 7 0)).payload 1 3 = 0) ∧ (leAt (reqOf
      (leBytes 1 1 ++ leBytes 7 0)).payload 0 1 = 1 ∧ recS.recd.oldest = recS.recd.oldest ∨ leAt (reqOf (leBytes 1 1 ++ leBytes 7 0)).payload 0 1 = 2 ∧ recS.recd.oldest
      = recS.recd.head) ∧ (Begins recS (reqOf (leBytes 1 1 ++ leBytes 7 0)) 3841)) ∧
    ((inBoot recS = false) ∧ ((reqOf (leBytes 1 2 ++ leBytes 7 0)).payload.length = 8) ∧ (leAt (reqOf (leBytes 1 2 ++ leBytes 7 0)).payload 1 3 = 0) ∧ (leAt (reqOf
      (leBytes 1 2 ++ leBytes 7 0)).payload 0 1 = 1 ∧ recS.recd.head = recS.recd.oldest ∨ leAt (reqOf (leBytes 1 2 ++ leBytes 7 0)).payload 0 1 = 2 ∧ recS.recd.head =
      recS.recd.head) ∧ (Begins recS (reqOf (leBytes 1 2 ++ leBytes 7 0)) 3841)) ∧
    ((inBoot recS = false) ∧ (rr.payload.length = 8) ∧ (indexOf recS.recd (leAt rr.payload 0 4) = some 0) ∧ (recS.recd.oldest ≤ 0) ∧ (0 + leAt rr.payload 4 4 ≤
      recS.recd.head) ∧ (1 ≤ leAt rr.payload 4 4) ∧ (leAt rr.payload 4 4 ≤ 65536) ∧ (Begins recS rr 3842)) ∧
    ((inBoot recS = false) ∧ (rt.payload.length = 4) ∧ (1 ≤ leAt rt.payload 2 2) ∧ (leAt rt.payload 2 2 ≤ 2048) ∧ (leAt rt.payload 2 2 ≤ leAt rt.payload 0 2 + 1) ∧
      (Begins recS rt 3843)) ∧
    ((ra.payload.length = 4) ∧ (leAt ra.payload 2 2 = 0) ∧ (Begins (arcS (crc32 (segmentSlots []))) ra 3844)) ∧
    ((ra.payload.length = 4) ∧ (leAt ra.payload 2 2 = 0) ∧ (Begins (arcS (crc32 (segmentSlots []) + 1)) ra 3844)) ∧
    ((Awake tailS) ∧ (tailS.recd.tailQueue = [List.replicate 32 7#8]) ∧ (tailS.recd.tailSkipped = 0) ∧ ((tailS.recd.tailCopies + 1) % 1024 ≠ 0)) ∧
    ((Awake flS) ∧ (flS.recd.flushes = [fWho]) ∧ (segmentDue flS = false) ∧ (flS.recd.oldest ≤ flS.recd.archNext) ∧ (flS.recd.archNext ≤ flS.recd.head) ∧ (((portSt flS
      fWho.port).slots.get fWho.slot).busy = some fWho.id)) ∧
    ((inBoot recS = false) ∧ ((reqOf []).payload = []) ∧ (Begins recS (reqOf []) 3845)) := by
  and_intros <;> decide +kernel

/-- The hypotheses of WatchdogServicesAndExpiry are met, clause by clause. -/
theorem wit_WatchdogServicesAndExpiry :
    ((Awake (wdS 0 0#32)) ∧ (hostServices (wdS 0 0#32) = true) ∧ (Answers (wdS 0 0#32) Port.a) ∧ ((portSt (wdS 0 0#32) Port.a).expert.getLsbD 16 = true) ∧ (field
      (23235#32).toNat 0 16 = 23235) ∧ (wdtOpen (wdS 0 0#32) ≤ wdtCount (wdS 0 0#32)) ∧ (wdtCount (wdS 0 0#32) < wdtT (wdS 0 0#32)) ∧ (missingBits (wdS 0 0#32) = 0#32)) ∧
    ((Awake (wdS 0 5#32)) ∧ (hostServices (wdS 0 5#32) = true) ∧ (Answers (wdS 0 5#32) Port.a) ∧ ((portSt (wdS 0 5#32) Port.a).expert.getLsbD 16 = true) ∧ (field
      (23235#32).toNat 0 16 = 23235) ∧ (wdtOpen (wdS 0 5#32) ≤ wdtCount (wdS 0 5#32)) ∧ (wdtCount (wdS 0 5#32) < wdtT (wdS 0 5#32)) ∧ (missingBits (wdS 0 5#32) ≠ 0#32)) ∧
    ((Awake (wdS 0 5#32)) ∧ (hostServices (wdS 0 5#32) = true) ∧ (Answers (wdS 0 5#32) Port.a) ∧ ((portSt (wdS 0 5#32) Port.a).expert.getLsbD 16 = true) ∧ (field
      (23234#32).toNat 0 16 ≠ 23235 ∨ wdtCount (wdS 0 5#32) < wdtOpen (wdS 0 5#32) ∨ wdtT (wdS 0 5#32) ≤ wdtCount (wdS 0 5#32))) ∧
    ((Awake (wdS 49999999 5#32)) ∧ (hostServices (wdS 49999999 5#32) = true) ∧ (Answers (wdS 49999999 5#32) Port.a) ∧ ((portSt (wdS 49999999 5#32) Port.a).expert.getLsbD
      16 = true) ∧ (field (23235#32).toNat 0 16 ≠ 23235 ∨ wdtCount (wdS 49999999 5#32) < wdtOpen (wdS 49999999 5#32) ∨ wdtT (wdS 49999999 5#32) ≤ wdtCount (wdS 49999999
      5#32))) ∧
    ((Awake w60) ∧ (hostServices w60 = true) ∧ (Answers w60 Port.a) ∧ ((portSt w60 Port.a).expert.getLsbD 16 = true) ∧ (field (23235#32).toNat 0 16 ≠ 23235 ∨ wdtCount
      w60 < wdtOpen w60 ∨ wdtT w60 ≤ wdtCount w60)) ∧
    ((Awake w61) ∧ (hostServices w61 = false) ∧ (wdtOpen w61 ≤ wdtCount w61) ∧ (wdtCount w61 < wdtT w61) ∧ (missingBits w61 = 0#32)) ∧
    ((Awake w60) ∧ (wdtT w60 ≤ wdtCount w60)) ∧
    ((Awake (wdS 0 0#32)) ∧ (inBoot (wdS 0 0#32) = false)) ∧
    ((Awake clS) ∧ (inBoot clS = false) ∧ (clR.payload.length = 8) ∧ (evidenceValid clS.brk.evidence = true) ∧ (leAt clS.brk.evidence 24 8 = leAt clR.payload 0 8) ∧
      (Begins clS clR 4098)) := by
  and_intros <;> decide +kernel

/-- The hypotheses of FirmwareEvents are met, clause by clause. -/
theorem wit_FirmwareEvents :
    ((Awake (rec1 Mode.run)) ∧ ((rec1 Mode.run).fwu.staging = none)) ∧
    ((Awake stS) ∧ (stS.fwu.staging = some stg) ∧ (stg.who = some gWho) ∧ (((portSt stS gWho.port).slots.get gWho.slot).busy = some gWho.id)) ∧
    ((Awake stS) ∧ (stS.fwu.staging = some stg) ∧ (stg.who = some gWho) ∧ (((portSt stS gWho.port).slots.get gWho.slot).busy = some gWho.id) ∧ (stS.fwu.noSlot = false)) ∧
    ((Awake noS) ∧ (noS.tck.mode = Mode.boot) ∧ (noS.fwu.noSlot = true) ∧ (noS.fwu.staging = none) ∧ (noS.slt.run = none) ∧ (((cardFiles noS).bind fun l => List.find?
      (fun f => (pkgReject true f.data).isNone) l) = none)) ∧
    ((Awake noStg) ∧ (noStg.fwu.staging = some stgB) ∧ (stgB.who = none) ∧ (noStg.fwu.noSlot = true)) ∧
    ((Awake trS) ∧ (trS.fwu.trial = true) ∧ (ticking trS = true) ∧ (trialOver trS = true)) := by
  and_intros <;> decide +kernel

/-- The hypotheses of FirmwareCommandsAct are met, clause by clause. -/
theorem wit_FirmwareCommandsAct :
    ((Serving cdS) ∧ (cardFiles cdS = some card1.files) ∧ ((reqOf []).payload = []) ∧ (Begins cdS (reqOf []) 4353)) ∧
    ((Serving cdS) ∧ (cardFiles cdS = some card1.files) ∧ (sg.payload.length = 4 + leAt sg.payload 0 2) ∧ (leAt sg.payload 2 2 = 0) ∧ (cdS.tck.mode = Mode.stop) ∧
      (cdS.fwu.trial = false) ∧ (cdS.fwu.staging = none) ∧ (List.find? (fun f => f.name == slice sg.payload 4 (leAt sg.payload 0 2)) card1.files = some { name := [65#8, 46#8, 81#8, 70#8, 87#8], data := [1#8, 2#8] : CardFile })
      ∧ (pkgReject true { name := [65#8, 46#8, 81#8, 70#8, 87#8], data := [1#8, 2#8] : CardFile }.data = some ((pkgReject true [1#8, 2#8]).getD 0)) ∧ (Begins cdS sg
      4354)) ∧
    ((Serving acS) ∧ ((reqOf [0#8, 0#8, 0#8, 0#8]).payload.length = 4) ∧ (leAt (reqOf [0#8, 0#8, 0#8, 0#8]).payload 1 3 = 0) ∧ (acS.tck.mode = Mode.stop) ∧
      (acS.fwu.trial = false) ∧ (slotValid (slotOf acS (otherSlot acS)) = true) ∧ (isPair acS = false) ∧ (Begins acS (reqOf [0#8, 0#8, 0#8, 0#8]) 4355)) ∧
    ((Serving trS) ∧ (trS.fwu.trial = true) ∧ ((reqOf []).payload = []) ∧ (Begins trS (reqOf []) 4356)) ∧
    ((Serving trS) ∧ ((reqOf []).payload = []) ∧ (Begins trS (reqOf []) 4357)) := by
  and_intros <;> decide +kernel

end Sys2Proof.Tests
end

section
/-! PROOFS. Accesses of a port: what a read that completes, a cursor interrupt and the registers of the port window do to the state (R5, R23, R47, R50, R54). -/
namespace Sys2Proof.Machine
open Sys2Proof

/-! ### Accesses that are answered -/

theorem access_of_answers {s : State} {p : Port} (h : Answers s p) (f : State → State) : access s p f = f s := by
  obtain ⟨hawake, hd3hot, hperst⟩ := h
  simp [access, hawake, hd3hot, hperst]

@[simp] theorem otherPort_ne (p : Port) : otherPort p ≠ p := by
  cases p <;> decide

theorem sameBut_setPort (s : State) (p : Port) (f : PortState → PortState) : SameBut [.host] s (setPort s p f) := by
  intro part
  cases part <;> simp [samePart]

/-! ### Completion of a read -/

@[simp] theorem portSt_readDone_same (s : State) (p : Port) (v : Dword) : portSt (readDone s p v) p = { portSt s p with rdata := v } := by
  simp [readDone]

@[simp] theorem portSt_readDone_other (s : State) (p q : Port) (v : Dword) (h : q ≠ p) : portSt (readDone s p v) q = portSt s q := by
  simp [readDone, h]

theorem sameBut_readDone (s : State) (p : Port) (v : Dword) : SameBut [.host, .tx] s (readDone s p v) := by
  intro part
  cases part <;> simp [samePart]

/-! ### Interrupts -/

theorem portSt_raiseVector_other (s : State) (p q : Port) (v : Fin 8) (h : q ≠ p) : portSt (raiseVector s p v) q = portSt s q := by
  simp only [raiseVector]
  split
  · rfl
  · split <;> simp [h]

theorem raiseVector_irqStatus_other (s : State) (p : Port) (v i : Fin 8) (h : i ≠ v) :
    (portSt (raiseVector s p v) p).irqStatus.getLsbD i.val = (portSt s p).irqStatus.getLsbD i.val := by
  have hbit : (1#8 <<< v.val).getLsbD i.val = false := by
    simp
    omega
  simp only [raiseVector]
  split
  · rfl
  · split <;> simp only [portSt_emit, portSt_setPort_same, BitVec.getLsbD_or, hbit, Bool.or_false]

/-- A cursor interrupt is vector 3 or nothing (R54, R499). -/
theorem raiseCursor_eq_or (s : State) (p : Port) : raiseCursor s p = s ∨ raiseCursor s p = raiseVector s p 3 := by
  unfold raiseCursor
  split
  · exact .inr rfl
  · exact .inl rfl

theorem portSt_raiseCursor_other (s : State) (p q : Port) (h : q ≠ p) : portSt (raiseCursor s p) q = portSt s q := by
  obtain e | e := raiseCursor_eq_or s p <;> rw [e]
  exact portSt_raiseVector_other s p q 3 h

theorem raiseCursor_irqStatus_other (s : State) (p : Port) (i : Fin 8) (h : i.val ≠ 3) :
    (portSt (raiseCursor s p) p).irqStatus.getLsbD i.val = (portSt s p).irqStatus.getLsbD i.val := by
  obtain e | e := raiseCursor_eq_or s p <;> rw [e]
  exact raiseVector_irqStatus_other s p 3 i (fun hi => h (congrArg Fin.val hi))

/-- Whatever of a port does not look at its interrupt status outlives a cursor interrupt. -/
theorem raiseCursor_field {β : Type} (g : PortState → β) (hg : ∀ q x, g { q with irqStatus := x } = g q) (s : State) (p q : Port) :
    g (portSt (raiseCursor s p) q) = g (portSt s q) := by
  obtain e | e := raiseCursor_eq_or s p <;> rw [e]
  exact raiseVector_field g hg s p q 3

theorem sameBut_raiseCursor (s : State) (p : Port) : SameBut [.host, .tx] s (raiseCursor s p) := by
  intro part
  cases part <;> simp [samePart]

/-! ### Registers of the port window (R50) -/

theorem barWrite_mbDone {s : State} {p : Port} (h : Answers s p) (v : Dword) :
    barWrite s p 0x14#20 v = setPort s p (fun q => { q with done := q.done &&& ~~~v }) :=
  access_of_answers h _

theorem barWrite_irqStatus {s : State} {p : Port} (h : Answers s p) (v : Dword) :
    barWrite s p 0x1C#20 v = raiseCursor (setPort s p (fun q => { q with irqStatus := q.irqStatus &&& ~~~(v.truncate 8) })) p :=
  access_of_answers h _

theorem barRead_portStatus {s : State} {p : Port} (h : Answers s p) :
    barRead s p 0x4#20 = setPort (readDone s p (portReg s p 4)) p (fun q => { q with badAccess := 0#8, deniedWrite := 0#8, badDoorbell := 0#8 }) :=
  access_of_answers h _

theorem tickLoRead_of_answers {s : State} {p : Port} (h : Answers s p) :
    tickLoRead s p = readDone { s with tck.tickHi := (s.tck.tick >>> 32).truncate 32 } p (s.tck.tick.truncate 32) := by
  have hlow : BitVec.ofNat 32 s.tck.tick.toNat = s.tck.tick.truncate 32 := BitVec.eq_of_toNat_eq (by simp)
  have hhigh : BitVec.ofNat 32 (s.tck.tick.toNat / 2 ^ 32) = (s.tck.tick >>> 32).truncate 32 :=
    BitVec.eq_of_toNat_eq (by simp [Nat.shiftRight_eq_div_pow])
  rw [tickLoRead, access_of_answers h, hlow, hhigh]

theorem portSt_with_tck (s : State) (x : Tck) (p : Port) : portSt { s with tck := x } p = portSt s p := by
  cases p <;> rfl

/-- Settles O14: each access is rewritten to its equation of the port window; a cursor interrupt, which can follow a write to SUP_IRQ_STATUS, touches bit 3 of
that register only (R54). -/
theorem portRegistersHaveTheirSideEffects : Obligations.PortRegistersHaveTheirSideEffects := by
  unfold Obligations.PortRegistersHaveTheirSideEffects
  refine ⟨fun s p v h => ⟨⟨_, congrArg Host.Outcome.next (barWrite_mbDone h v), ?mbDone⟩, ⟨_, congrArg Host.Outcome.next (barWrite_irqStatus h v), ?irqStatus⟩⟩,
    fun s p h => ⟨⟨_, congrArg Host.Outcome.next (barRead_portStatus h), ?portStatus⟩, ⟨_, congrArg Host.Outcome.next (tickLoRead_of_answers h), ?tickLo⟩⟩⟩
  case mbDone =>
    refine ⟨?_, ?_, ?_, sameBut_setPort s p _⟩
    all_goals simp
  case irqStatus =>
    refine ⟨fun i hi => ?_, ?_, ?_, ?_⟩
    · rw [raiseCursor_irqStatus_other _ p i hi]
      simp [i.isLt]
    · refine (raiseCursor_field (fun q => { q with irqStatus := (portSt s p).irqStatus }) (fun _ _ => rfl) _ p p).trans ?_
      simp
    · rw [portSt_raiseCursor_other _ p _ (otherPort_ne p)]
      simp
    · exact sameBut_mono (sameBut_trans (sameBut_setPort s p _) (sameBut_raiseCursor _ p)) (by simp)
  case portStatus =>
    refine ⟨?_, ?_, ?_, ?_, ?_, sameBut_mono (sameBut_trans (sameBut_readDone s p _) (sameBut_setPort _ p _)) (by simp)⟩
    all_goals simp [portReg]
  case tickLo =>
    refine ⟨?_, by simp, by simp, ?_, fun part => ?_⟩
    · rw [portSt_readDone_same]
    · rw [portSt_readDone_other _ p _ _ (otherPort_ne p)]
      exact portSt_with_tck s _ _
    · cases part <;> simp [samePart]

end Sys2Proof.Machine
end

section
/-! PROOFS. Force commands, the ends of host transfers, the verifier's verdict and the end of a stored-copy write (R62, R87, R105, R107, R235, R236, R239). -/
namespace Sys2Proof.Machine
open Sys2Proof

/-! ### The start of a request -/

/-- A request that starts changes the host ports and what leaves the part, and no other part. -/
theorem starts_eq {s : State} {r : Req} {code : Nat} {w : Who} {u : State} (h : Starts s r code w u) : ∃ host tx, u = { s with host := host, tx := tx } := by
  have hparts := startCmd_parts s r code _ h.2.1
  refine ⟨u.host, u.tx, ?_⟩
  cases u
  cases s
  simpa [and_assoc] using hparts

/-- The state before the requests behind a started one are examined, where its command leads to t. -/
theorem command_serves {s : State} {r : Req} {code : Nat} {w : Who} {u t : State} {f : Req → Who → State → State} (h : Starts s r code w u)
    (hf : f r w u = t) : command s r code f = serveQueue t := by
  rw [command_starts s r code w u f h, hf]

theorem examine_xfers (s : State) (l : List Queued) : (examine s l).host.xfers = s.host.xfers := by
  induction l generalizing s with
  | nil => rfl
  | cons e rest ih =>
    simp only [examine]
    split
    · rw [ih, respond, (respondAt_host _ _ _ _ _).2.2]
    · rfl

theorem ringDoor_xfers (s : State) (p : Port) (slot : Fin 32) : (ringDoor s p slot).host.xfers = s.host.xfers := by
  simp only [ringDoor]
  split <;> simp [examine_xfers]

theorem offer_xfers (s : State) (r : Req) (code : Nat) : (offer s r code).host.xfers = s.host.xfers := by
  simp only [offer]
  split
  · rfl
  · rw [ringDoor_xfers, writeArea, setPort_xfers]

theorem takeFront_xfers {s : State} {r : Req} {code : Nat} {x : Req × Who × State} (h : takeFront s r code = some x) :
    x.2.2.host.xfers = s.host.xfers := by
  simp only [takeFront] at h
  split at h
  · split at h
    · cases h
      rfl
    · cases h
  · cases h

/-- The start of a request leaves the transfers under way alone. -/
theorem starts_xfers {s : State} {r : Req} {code : Nat} {w : Who} {u : State} (h : Starts s r code w u) : u.host.xfers = s.host.xfers := by
  obtain ⟨-, hstart, -⟩ := h
  exact (takeFront_xfers hstart).trans (offer_xfers s r code)

/-! ### Frames -/

theorem portSt_of_host {s t : State} (h : t.host = s.host) (p : Port) : portSt t p = portSt s p := by
  cases p <;> simp only [portSt, h]

theorem bankSt_of_ldr {s t : State} (h : t.ldr = s.ldr) (bank : BankId) : bankSt t bank = bankSt s bank := by
  cases bank <;> simp only [bankSt, h]

/-- A command that leaves the host ports alone leaves of them what an answer leaves. -/
theorem answerFrame_of_host {s t : State} (h : t.host = s.host) (r : Req) : AnswerFrame r s t := by
  simp [AnswerFrame, samePortRest, portSt_of_host h, h]

theorem sameBut_respondAt (s : State) (w : Who) (reason : Nat) (tick : BitVec 64) (data : List Byte) :
    SameBut [.host, .tx] s (respondAt s w reason tick data) := by
  intro part
  cases part <;> simp [samePart]

theorem sameBut_startXfer (s : State) (w : Who) (r : Req) (kind : XferKind) : SameBut [.host, .tx] s (startXfer s w r kind) := by
  intro part
  cases part <;> simp [samePart]

theorem sameBut_sendControl (s : State) (apply code : Nat) (data : List Byte) : SameBut [.tx, .cry] s (sendControl s apply code data) := by
  intro part
  cases part <;> simp [samePart]

theorem sameBut_setBank (s : State) (bank : BankId) (f : BankSt → BankSt) : SameBut [.ldr] s (setBank s bank f) := by
  intro part
  cases part <;> simp [samePart]

theorem sameBut_record (s : State) (code : Nat) (ps : List Nat) : SameBut [.host, .tx, .recd] s (record s code ps) := by
  intro part
  cases part <;> simp [samePart]

/-! ### The slot of an answer -/

/-- The slot of a request, once it is answered. -/
theorem respondAt_get {s : State} {w : Who} (h : ((portSt s w.port).slots.get w.slot).busy = some w.id) (reason : Nat) (tick : BitVec 64) (data : List Byte) :
    (portSt (respondAt s w reason tick data) w.port).slots.get w.slot = { (portSt s w.port).slots.get w.slot with
      busy := none, response := some { code := w.code, reason := BitVec.ofNat 16 reason, seq := w.seq, tick := tick, data := data.take 65504 } } := by
  rw [(respondAt_slot s w reason tick data h).1, vector_get_set, if_pos rfl]

theorem irqOnly_slots {s t : State} (h : IrqOnly s t) (p : Port) : (portSt t p).slots = (portSt s p).slots := by
  unfold IrqOnly at h
  cases p <;> simp only [portSt] <;> rw [h]

/-- A record leaves every slot of the mailboxes alone. -/
@[simp] theorem record_slots (s : State) (code : Nat) (ps : List Nat) (p : Port) : (portSt (record s code ps) p).slots = (portSt s p).slots :=
  irqOnly_slots (record_irqOnly s code ps) p

/-! ### Little-endian numbers -/

@[simp] theorem length_leBytes (n v : Nat) : (leBytes n v).length = n := by
  induction n generalizing v with
  | zero => rfl
  | succ n ih => simp [leBytes, ih]

theorem leNat_leBytes (n v : Nat) : leNat (leBytes n v) = v % 256 ^ n := by
  induction n generalizing v with
  | zero => simp [leBytes, leNat, Nat.mod_one]
  | succ n ih => simp [leBytes, leNat, ih, Nat.pow_succ', Nat.mod_mul]

/-- A number at the front of a list reads back. -/
theorem leAt_leBytes_append (n v : Nat) (l : List Byte) : leAt (leBytes n v ++ l) 0 n = v % 256 ^ n := by
  rw [leAt, slice, List.drop_zero, List.take_left' (length_leBytes n v), leNat_leBytes]

/-! ### Force commands (R105, R107) -/

theorem inBootOrShadow_of_serving {s : State} (h : Serving s) : inBootOrShadow s = false := by
  rcases h with h | h | h <;> simp [inBootOrShadow, h]

theorem inBoot_of_serving {s : State} (h : Serving s) : inBoot s = false := by
  rcases h with h | h | h <;> simp [inBoot, h]

theorem doForceSet_of_serving {s : State} (hs : Serving s) {d : List Byte} (w : Who) (hin : s.ldr.inForce.isSome = true) (hpay : forcePayBad d 12 = false) :
    doForceSet d w s = askForce s w (forceSetOf d) :=
  refuseOr_taken _ _ _ _ (by simp [firstReason, inBootOrShadow_of_serving hs, Option.isSome_iff_ne_none.mp hin, hpay])

theorem doForceClear_of_serving {s : State} (hs : Serving s) {d : List Byte} (w : Who) (hin : s.ldr.inForce.isSome = true) (hpay : forcePayBad d 4 = false) :
    doForceClear d w s = askForce s w (forceClearOf d) :=
  refuseOr_taken _ _ _ _ (by simp [firstReason, inBootOrShadow_of_serving hs, Option.isSome_iff_ne_none.mp hin, hpay])

theorem doForceClearAll_of_serving {s : State} (hs : Serving s) {d : List Byte} (w : Who) (hpay : d = []) : doForceClearAll d w s = askForce s w .clearAll :=
  refuseOr_taken _ _ _ _ (by simp [firstReason, inBootOrShadow_of_serving hs, hpay])

/-- A force command that is taken answers nobody yet: it waits for its check and its edge, behind those that came before it (R107). -/
theorem command_askForce {s : State} {r : Req} {code : Nat} {w : Who} {u : State} (f : Req → Who → State → State) {work : ForceWork}
    (h : Starts s r code w u) (hf : ∀ host tx, f r w { s with host := host, tx := tx } = askForce { s with host := host, tx := tx } w work) :
    ∃ t, command s r code f = serveQueue t ∧ Waits t r code w ∧ AnswerFrame r u t ∧ SameBut [.host, .img] u t ∧
      t.img = { s.img with forceOps := s.img.forceOps ++ [{ work := work, who := w, passedAt := none }] } := by
  obtain ⟨host, tx, rfl⟩ := starts_eq h
  refine ⟨_, command_serves h (hf host tx), h.2.2, answerFrame_of_host rfl r, fun part => ?_, rfl⟩
  cases part <;> simp [samePart, askForce]

theorem length_forceEntry (e : Nat × Force) : (forceEntry e).length = 12 := by
  simp [forceEntry]

theorem length_flatMap_forceEntry (es : List (Nat × Force)) : (es.flatMap forceEntry).length = 12 * es.length := by
  induction es with
  | nil => rfl
  | cons e es ih =>
    rw [List.flatMap_cons, List.length_append, length_forceEntry, ih, List.length_cons]
    omega

/-- The answer of FORCE_LIST: how many forces stand, where the next list begins, and at most 4,096 entries (R108). -/
theorem doForceList_of_serving {s : State} (hs : Serving s) (d : List Byte) (hd : d.length = 4) (w : Who) :
    ∃ e, doForceList d w s = respond s w 0 e ∧ leAt e 0 4 = s.img.forces.length % 2 ^ 32 ∧
      e.length = 8 + 12 * min 4096 (s.img.forces.length - leAt d 0 4) := by
  refine ⟨_, refuseOr_taken _ _ _ _ (by simp [firstReason, inBoot_of_serving hs, hd]), ?_, ?_⟩
  · rw [List.append_assoc, leAt_leBytes_append, show (256 : Nat) ^ 4 = 2 ^ 32 from rfl]
  · simp only [List.length_append, length_leBytes, length_flatMap_forceEntry, List.length_take, List.length_drop]

/-! ### Host transfers (R62, R235) -/

/-- The state with a transfer taken out of those under way. -/
def withoutXfer (s : State) (x : Xfer) : State := { s with host.xfers := s.host.xfers.erase x }

@[simp] theorem portSt_withoutXfer (s : State) (x : Xfer) (p : Port) : portSt (withoutXfer s x) p = portSt s p := by
  cases p <;> rfl

theorem sameBut_withoutXfer (s : State) (x : Xfer) : SameBut [.host] s (withoutXfer s x) := by
  intro part
  cases part <;> simp [samePart, withoutXfer]

theorem loadMode_of_serving {s : State} (h : Serving s) : loadMode s false = true := by
  rcases h with h | h | h <;> simp [loadMode, h]

/-- A LOAD_DATA into bank A that none of R235's refusals meets starts its transfer. -/
theorem doLoadData_starts {s : State} {r : Req} (w : Who) (hs : Serving s) (hpay : r.payload.length = 4) (hofs : leAt r.payload 0 4 < 2 ^ 29)
    (hpos : 0 < r.hostLen.toNat) (hmax : r.hostLen.toNat ≤ 16777216) (htaken : bankTaken s false .a = false) (hphase : (bankSt s .a).phase = .loading)
    (hfits : leAt r.payload 0 4 + r.hostLen.toNat ≤ (bankSt s .a).length) :
    doLoadData r w s = startXfer s w r (.load .a (leAt r.payload 0 4)) := by
  have hbank : bitOf (leAt r.payload 0 4) 31 = false := Nat.testBit_lt_two_pow (by omega)
  have hreserved : field (leAt r.payload 0 4) 29 2 = 0 := by
    rw [field, Nat.div_eq_of_lt hofs, Nat.zero_mod]
  have hmod : leAt r.payload 0 4 % 2 ^ 29 = leAt r.payload 0 4 := Nat.mod_eq_of_lt hofs
  unfold doLoadData
  simp only [hbank, hreserved, hmod, Bool.false_eq_true, if_false]
  refine refuseOr_taken _ _ _ _ ?_
  simp [firstReason, hpay, loadMode_of_serving hs, htaken, hphase, hfits, hmax]
  omega

/-- A block that has come stands in its bank, in front of the blocks before it, and its command is answered (R62, R235). -/
theorem loadDataEnd_done {s : State} {x : Xfer} {bank : BankId} {ofs : Nat} (d : List Byte)
    (hbusy : ((portSt s x.who.port).slots.get x.who.slot).busy = some x.who.id)
    (hphase : (bankSt s bank).phase = .loading) (hfits : ofs + x.len ≤ (bankSt s bank).length) :
    bankSt (loadDataEnd s x bank ofs (.done d)) bank =
      { bankSt s bank with chunks := { ofs := ofs, len := x.len, data := some (padTo x.len d) } :: (bankSt s bank).chunks } ∧
    ((portSt (loadDataEnd s x bank ofs (.done d)) x.who.port).slots.get x.who.slot).busy = none ∧
    SameBut [.host, .tx, .ldr, .cry] s (loadDataEnd s x bank ofs (.done d)) := by
  have hend : ∃ apply data, loadDataEnd s x bank ofs (.done d) =
      respond (sendControl (placeChunk s bank ofs x.len (some (padTo x.len d))) apply 0x0502 data) x.who 0 [] := by
    unfold loadDataEnd
    rw [if_neg (by simp [hphase, hfits])]
    exact ⟨_, _, rfl⟩
  obtain ⟨apply, data, hend⟩ := hend
  rw [hend]
  refine ⟨?_, ?_, ?_⟩
  · rw [bankSt_of_ldr (s := placeChunk s bank ofs x.len (some (padTo x.len d))) (by simp), placeChunk, bankSt_setBank_same]
  · exact congrArg Slot.busy (respondAt_get (by rwa [portSt_of_host (s := s) (by simp [placeChunk])]) _ _ _)
  · exact sameBut_mono (sameBut_trans (sameBut_trans (sameBut_setBank s _ _) (sameBut_sendControl _ _ _ _)) (sameBut_respondAt _ _ _ _ _)) (by simp)

/-- The reason that the end of a transfer to the host answers with (R62). -/
def transferReason (res : TransferResult) : Nat := match res with | .done _ => 0 | .error => 0x0106

section
variable {s : State} {x : Xfer} (hfind : s.host.xfers.find? (fun y => y.who.port == x.who.port && y.who.slot == x.who.slot) = some x)
include hfind

theorem hostTransferEnd_load {bank : BankId} {ofs : Nat} (hkind : x.kind = .load bank ofs) (res : TransferResult) :
    hostTransferEnd s x.who.port x.who.slot res = loadDataEnd (withoutXfer s x) x bank ofs res := by
  simp only [hostTransferEnd, hfind, hkind, withoutXfer]

theorem hostTransferEnd_toHost {d : List Byte} (hkind : x.kind = .toHost d) (res : TransferResult) :
    hostTransferEnd s x.who.port x.who.slot res = respond (withoutXfer s x) x.who (transferReason res) [] := by
  cases res <;> simp only [hostTransferEnd, hfind, hkind, withoutXfer, transferReason]

end

/-- Settles O21: each command that is taken is rewritten to what it does on the state that its start leaves, and each end of a transfer to the answer that it
gives. -/
theorem forcesWaitAndTransfersEnd : Obligations.ForcesWaitAndTransfersEnd := by
  unfold Obligations.ForcesWaitAndTransfersEnd
  refine ⟨fun s r hs => ⟨?forceSet, ?forceClear, ?forceClearAll, ?forceList⟩, ⟨?loadData, ?loadEnd⟩, ?toHost⟩
  case forceSet =>
    intro hin hpay w u h
    obtain ⟨t, hserve, ht⟩ := command_askForce (fun q => doForceSet q.payload) h
      (fun host tx => doForceSet_of_serving (s := { s with host := host, tx := tx }) hs w hin hpay)
    exact ⟨t, congrArg Host.Outcome.next hserve, ht⟩
  case forceClear =>
    intro hin hpay w u h
    obtain ⟨t, hserve, ht⟩ := command_askForce (fun q => doForceClear q.payload) h
      (fun host tx => doForceClear_of_serving (s := { s with host := host, tx := tx }) hs w hin hpay)
    exact ⟨t, congrArg Host.Outcome.next hserve, ht⟩
  case forceClearAll =>
    intro hpay w u h
    obtain ⟨t, hserve, ht⟩ := command_askForce (fun q => doForceClearAll q.payload) h
      (fun host tx => doForceClearAll_of_serving (s := { s with host := host, tx := tx }) hs w hpay)
    exact ⟨t, congrArg Host.Outcome.next hserve, ht⟩
  case forceList =>
    intro hpay w u h
    obtain ⟨host, tx, rfl⟩ := starts_eq h
    obtain ⟨e, hlist, htotal, hlength⟩ := doForceList_of_serving (s := { s with host := host, tx := tx }) hs r.payload hpay w
    exact ⟨_, e, congrArg Host.Outcome.next (command_serves h hlist), respond_lands _ r _ 0 w e h.2.2, htotal, hlength,
      respondAt_frame _ r _ 0 w _ e h.2.2, sameBut_respondAt _ w 0 _ e⟩
  case loadData =>
    intro s r hs hpay hofs hpos hmax htaken hphase hfits w u h
    have hxfers := starts_xfers h
    obtain ⟨host, tx, rfl⟩ := starts_eq h
    obtain ⟨hport, -⟩ := h.2.2
    have hload := doLoadData_starts (s := { s with host := host, tx := tx }) w hs hpay hofs hpos hmax htaken hphase hfits
    refine ⟨_, congrArg Host.Outcome.next (command_serves h hload), h.2.2, ?xfers, ?read, sameBut_startXfer _ w r _⟩
    case xfers => exact congrArg (· ++ _) hxfers
    case read => exact congrArg (fun p => Tx.hostRead p r.hostAddr r.hostLen.toNat :: tx) hport
  case loadEnd =>
    intro s x bank ofs d hfind hkind hbusy hphase hfits
    obtain ⟨hbank, hfree, hframe⟩ := loadDataEnd_done (s := withoutXfer s x) d (by rwa [portSt_withoutXfer]) hphase hfits
    refine ⟨_, congrArg Host.Outcome.next (hostTransferEnd_load hfind hkind _), ?_, ?_, hfree, ?_⟩
    · rw [hbank]
      rfl
    · rw [hbank]
      exact hphase
    · exact sameBut_mono (sameBut_trans (sameBut_withoutXfer s x) hframe) (by simp)
  case toHost =>
    intro s x d res hfind hkind hbusy
    have hget := respondAt_get (s := withoutXfer s x) (w := x.who) (by rwa [portSt_withoutXfer]) (transferReason res) s.tck.tick []
    refine ⟨_, congrArg Host.Outcome.next (hostTransferEnd_toHost hfind hkind res), (respondAt_host _ _ _ _ _).2.2, ?_, congrArg Slot.busy hget, ?_⟩
    · refine (congrArg Slot.response hget).trans ?_
      cases res <;> rfl
    · exact sameBut_mono (sameBut_trans (sameBut_withoutXfer s x) (sameBut_respondAt _ _ _ _ _)) (by simp)

/-! ### A bank that is admitted, and one that is rejected (R87, R239) -/

/-- The bank as its admission leaves it. -/
theorem admitBank_ldr (s : State) (bank : BankId) (img : List Byte) : (admitBank s bank img).ldr = (setBank s bank (fun q =>
    { q with phase := .admitted, prog := some (parseBank img), period := tickPeriod s, share := shareNow s
             bound := analyticBound img (tickPeriod s) (shareNow s) })).ldr := by
  simp [admitBank]

@[simp] theorem admitBank_slots (s : State) (bank : BankId) (img : List Byte) (p : Port) : (portSt (admitBank s bank img) p).slots = (portSt s p).slots := by
  rw [admitBank, record_slots, portSt_of_host (s := s) (by simp)]

@[simp] theorem setBank_verify (s : State) (bank : BankId) (f : BankSt → BankSt) : (setBank s bank f).ldr.verify = s.ldr.verify := by
  cases bank <;> rfl

@[simp] theorem setBank_inForce (s : State) (bank : BankId) (f : BankSt → BankSt) : (setBank s bank f).ldr.inForce = s.ldr.inForce := by
  cases bank <;> rfl

/-- What the verifier's rejection leaves: the bank LOADED without its admission, and LDR_FAIL (R239); a bank that was in force is so no more (R87). -/
theorem rejectBank_ldr (s : State) (bank : BankId) (x : Reject) : (rejectBank s bank x).ldr =
    { (setBank s bank (fun q => { q with phase := .loaded, period := 0, share := 0, prog := none, data := [] })).ldr with
      inForce := if s.ldr.inForce = some bank then none else s.ldr.inForce
      failRod := BitVec.ofNat 6 x.rod, failAddr := BitVec.ofNat 15 x.addr, failIndex := BitVec.ofNat 4 x.idx } := by
  by_cases h : s.ldr.inForce = some bank
  · simp only [rejectBank, setBank_inForce, if_pos h]
    rfl
  · simp only [rejectBank, setBank_inForce, if_neg h, noteReject]

theorem rejectBank_img {s : State} {bank : BankId} (x : Reject) (h : s.ldr.inForce ≠ some bank) : (rejectBank s bank x).img = s.img := by
  simp [rejectBank, h, noteReject]

theorem sameBut_rejectBank (s : State) (bank : BankId) (x : Reject) : SameBut [.ldr, .img] s (rejectBank s bank x) := by
  intro part
  simp only [rejectBank, setBank_inForce]
  split <;> cases part <;> simp [samePart, noteReject, dropBank, clearViews]

theorem bankSt_rejectBank (s : State) (bank y : BankId) (x : Reject) : bankSt (rejectBank s bank x) y =
    bankSt (setBank s bank (fun q => { q with phase := .loaded, period := 0, share := 0, prog := none, data := [] })) y := by
  cases y <;> simp only [bankSt, rejectBank_ldr]

/-- A bank that the verifier rejects, before its command is answered; one for which an ACTIVATE waits stays as it was (log 99). -/
def afterRejection (s : State) (bank : BankId) (x : Reject) : State := if activatePending s bank then noteReject s x else rejectBank s bank x

theorem afterRejection_of_activatePending {s : State} {bank : BankId} (x : Reject) (h : activatePending s bank = true) :
    afterRejection s bank x = noteReject s x :=
  if_pos h

theorem afterRejection_of_not_activatePending {s : State} {bank : BankId} (x : Reject) (h : activatePending s bank = false) :
    afterRejection s bank x = rejectBank s bank x := by
  simp [afterRejection, h]

theorem bankSt_noteReject (s : State) (x : Reject) (y : BankId) : bankSt (noteReject s x) y = bankSt s y := by
  cases y <;> rfl

/-- A rejection shows in LDR_FAIL (R239, R270). -/
theorem afterRejection_fail (s : State) (bank : BankId) (x : Reject) :
    (afterRejection s bank x).ldr.failRod = BitVec.ofNat 6 x.rod ∧ (afterRejection s bank x).ldr.failAddr = BitVec.ofNat 15 x.addr ∧
    (afterRejection s bank x).ldr.failIndex = BitVec.ofNat 4 x.idx ∧ (afterRejection s bank x).ldr.verify = s.ldr.verify := by
  unfold afterRejection
  split
  · exact ⟨rfl, rfl, rfl, rfl⟩
  · simp [rejectBank_ldr]

theorem bankSt_afterRejection_other (s : State) (bank : BankId) (x : Reject) {y : BankId} (h : y ≠ bank) : bankSt (afterRejection s bank x) y = bankSt s y := by
  unfold afterRejection
  split
  · exact bankSt_noteReject s x y
  · rw [bankSt_rejectBank, bankSt_setBank_other _ _ _ _ h]

theorem sameBut_afterRejection (s : State) (bank : BankId) (x : Reject) : SameBut [.ldr, .img] s (afterRejection s bank x) := by
  unfold afterRejection
  split
  · intro part
    cases part <;> simp [samePart, noteReject]
  · exact sameBut_rejectBank s bank x

theorem afterRejection_img {s : State} {bank : BankId} (x : Reject) (h : s.ldr.inForce ≠ some bank) : (afterRejection s bank x).img = s.img := by
  unfold afterRejection
  split
  · rfl
  · exact rejectBank_img x h

/-! ### The verifier's verdict (R87, R236, R239) -/

/-- The state with a verification taken out of those under way. -/
def withoutVerify (s : State) (v : Verify) : State := { s with ldr.verify := s.ldr.verify.erase v }

/-- The model's own spelling of that state. -/
theorem withoutVerify_eq (s : State) (v : Verify) : { s with ldr.verify := s.ldr.verify.erase v } = withoutVerify s v := rfl

@[simp] theorem bankSt_withoutVerify (s : State) (v : Verify) (bank : BankId) : bankSt (withoutVerify s v) bank = bankSt s bank := by
  cases bank <;> rfl

theorem sameBut_withoutVerify (s : State) (v : Verify) : SameBut [.ldr] s (withoutVerify s v) := by
  intro part
  cases part <;> simp [samePart, withoutVerify]

/-- Where no command that the carry link brought waits for the verdict, the row is the verifier's end alone (R339). -/
theorem verdictEnd_of_own {s : State} {bank : BankId} (h : s.tck.mode = .shadow → ∀ v ∈ s.ldr.verify, v.bank = bank → v.who ≠ some noWho) :
    verdictEnd s bank = verifierEnd s bank := by
  have hown : (s.tck.mode == .shadow && s.ldr.verify.any (fun v => v.bank == bank && v.who == some noWho)) = false := by
    simpa using h
  simp [verdictEnd, hown]

section
variable {s : State} {bank : BankId} {v : Verify} (hfind : s.ldr.verify.find? (fun v => v.bank == bank) = some v)
  (hphase : (bankSt s bank).phase = .loaded ∨ (bankSt s bank).phase = .admitted)
include hfind hphase

theorem verifierEnd_admits (h : verifyImage (withoutVerify s v) (bankSt s bank).image = none) :
    verifierEnd s bank = respondOpt (admitBank (withoutVerify s v) bank (bankSt s bank).image) v.who 0 s.tck.tick [] := by
  have hheld : ¬((bankSt s bank).phase ≠ .loaded ∧ (bankSt s bank).phase ≠ .admitted) :=
    fun ⟨hloaded, hadmitted⟩ => hphase.elim hloaded hadmitted
  simp only [verifierEnd, hfind, withoutVerify_eq, bankSt_withoutVerify, if_neg hheld, h]

theorem verifierEnd_rejects {x : Reject} (h : verifyImage (withoutVerify s v) (bankSt s bank).image = some x) :
    verifierEnd s bank = respondOpt (afterRejection (withoutVerify s v) bank x) v.who x.code s.tck.tick [] := by
  have hheld : ¬((bankSt s bank).phase ≠ .loaded ∧ (bankSt s bank).phase ≠ .admitted) :=
    fun ⟨hloaded, hadmitted⟩ => hphase.elim hloaded hadmitted
  simp only [verifierEnd, hfind, withoutVerify_eq, bankSt_withoutVerify, if_neg hheld, h]
  rfl

end

section
variable {s : State} {bank : BankId} {w : Who} (hfind : s.ldr.verify.find? (fun v => v.bank == bank) = some { bank := bank, who := some w })
  (hbusy : ((portSt s w.port).slots.get w.slot).busy = some w.id) (hphase : (bankSt s bank).phase = .loaded ∨ (bankSt s bank).phase = .admitted)
  (hown : s.tck.mode = .shadow → ∀ v ∈ s.ldr.verify, v.bank = bank → v.who ≠ some noWho)
include hfind hbusy hphase hown

/-- An admission that a command asked for. -/
theorem verdictEnd_admits (h : verifyImage (withoutVerify s { bank := bank, who := some w }) (bankSt s bank).image = none) :
    bankSt (verdictEnd s bank) bank = { bankSt s bank with
      phase := .admitted, prog := some (parseBank (bankSt s bank).image), period := tickPeriod s, share := shareNow s
      bound := analyticBound (bankSt s bank).image (tickPeriod s) (shareNow s) } ∧
    (∀ y, y ≠ bank → bankSt (verdictEnd s bank) y = bankSt s y) ∧
    (verdictEnd s bank).ldr.verify = s.ldr.verify.erase { bank := bank, who := some w } ∧ (verdictEnd s bank).ldr.inForce = s.ldr.inForce ∧
    ((portSt (verdictEnd s bank) w.port).slots.get w.slot).busy = none := by
  have hend := (verdictEnd_of_own hown).trans (verifierEnd_admits hfind hphase h)
  have hldr : (verdictEnd s bank).ldr = (admitBank (withoutVerify s { bank := bank, who := some w }) bank (bankSt s bank).image).ldr := by
    rw [hend]
    simp
  rw [admitBank_ldr] at hldr
  refine ⟨?_, fun y hy => ?_, ?_, ?_, ?_⟩
  · rw [bankSt_of_ldr hldr, bankSt_setBank_same, bankSt_withoutVerify]
    rfl
  · rw [bankSt_of_ldr hldr, bankSt_setBank_other _ _ _ _ hy, bankSt_withoutVerify]
  · rw [hldr, setBank_verify]
    rfl
  · rw [hldr, setBank_inForce]
    rfl
  · rw [hend]
    exact congrArg Slot.busy (respondAt_get (by rwa [admitBank_slots]) _ _ _)

/-- A rejection that a command asked for. -/
theorem verdictEnd_rejects {x : Reject} (h : verifyImage (withoutVerify s { bank := bank, who := some w }) (bankSt s bank).image = some x) :
    (verdictEnd s bank).ldr = (afterRejection (withoutVerify s { bank := bank, who := some w }) bank x).ldr ∧
    (verdictEnd s bank).img = (afterRejection (withoutVerify s { bank := bank, who := some w }) bank x).img ∧
    ((portSt (verdictEnd s bank) w.port).slots.get w.slot).response =
      some { code := w.code, reason := BitVec.ofNat 16 x.code, seq := w.seq, tick := s.tck.tick, data := [] } ∧
    SameBut [.host, .tx, .ldr, .img] s (verdictEnd s bank) := by
  have hframe := sameBut_trans (sameBut_withoutVerify s { bank := bank, who := some w }) (sameBut_afterRejection (withoutVerify s _) bank x)
  have hhost := (hframe .host).resolve_left (by decide)
  rw [(verdictEnd_of_own hown).trans (verifierEnd_rejects hfind hphase h)]
  refine ⟨by simp, by simp, ?_, ?_⟩
  · exact congrArg Slot.response (respondAt_get (by rwa [portSt_of_host hhost]) _ _ _)
  · exact sameBut_mono (sameBut_trans hframe (sameBut_respondAt _ _ _ _ _)) (by simp)

end

/-! ### The end of a stored-copy write (R236) -/

/-- The state with the stored copy of a bank as the end of its write leaves it, before the end is recorded and answered. -/
def afterSave (s : State) (rest : List Save) (bank : BankId) (stored : Option (List Byte)) : State :=
  setBank { s with ldr.saves := rest } bank (fun q => { q with stored := stored })

theorem bankSt_afterSave_same (s : State) (rest : List Save) (bank : BankId) (stored : Option (List Byte)) :
    bankSt (afterSave s rest bank stored) bank = { bankSt s bank with stored := stored } := by
  cases bank <;> rfl

theorem bankSt_afterSave_other (s : State) (rest : List Save) {bank y : BankId} (stored : Option (List Byte)) (h : y ≠ bank) :
    bankSt (afterSave s rest bank stored) y = bankSt s y := by
  rw [afterSave, bankSt_setBank_other _ _ _ _ h]
  cases y <;> rfl

theorem afterSave_saves (s : State) (rest : List Save) (bank : BankId) (stored : Option (List Byte)) : (afterSave s rest bank stored).ldr.saves = rest := by
  cases bank <;> rfl

theorem sameBut_afterSave (s : State) (rest : List Save) (bank : BankId) (stored : Option (List Byte)) : SameBut [.ldr] s (afterSave s rest bank stored) := by
  intro part
  cases part <;> simp [samePart, afterSave]

section
variable {s : State} {v : Save} {rest : List Save} {w : Who} (hsaves : s.ldr.saves = v :: rest) (hwho : v.who = some w)
include hsaves hwho

theorem saveComplete_passed : saveComplete s true =
    respond (record (afterSave s rest v.bank (if rest.any (fun x => x.bank == v.bank) then none else some v.image)) 0x0542 [bankNo v.bank]) w 0 [] := by
  simp [saveComplete, hsaves, hwho, afterSave]

theorem saveComplete_failed : saveComplete s false = respond (record (afterSave s rest v.bank none) 0x052C []) w 0x052C [] := by
  simp [saveComplete, hsaves, hwho, afterSave, respondOpt, respond]

end

/-- Whether a record goes in is a matter of the recorder and its settings. -/
theorem canRecord_of_sameBut {s u : State} (h : SameBut [.ldr] s u) (code : Nat) : CanRecord s code → CanRecord u code := by
  have hrecd : u.recd = s.recd := (h .recd).resolve_left (by decide)
  have hcfg : u.cfg = s.cfg := (h .cfg).resolve_left (by decide)
  simp only [CanRecord, cfgField, blkCfg, hrecd, hcfg]
  exact id

/-- The end of an operation that has changed a bank, recorded and answered. -/
theorem record_answered {s u : State} {w : Who} {code : Nat} (ps : List Nat) (reason : Nat) (hframe : SameBut [.ldr] s u)
    (hawake : Awake s) (hcode : code < 65536) (hbusy : ((portSt s w.port).slots.get w.slot).busy = some w.id) :
    (respond (record u code ps) w reason []).ldr = u.ldr ∧ (CanRecord s code → LastReport (respond (record u code ps) w reason []) code false ps) ∧
    ((portSt (respond (record u code ps) w reason []) w.port).slots.get w.slot).response =
      some { code := w.code, reason := BitVec.ofNat 16 reason, seq := w.seq, tick := s.tck.tick, data := [] } ∧
    ((portSt (respond (record u code ps) w reason []) w.port).slots.get w.slot).busy = none ∧
    SameBut [.host, .tx, .ldr, .recd] s (respond (record u code ps) w reason []) := by
  have htck : u.tck = s.tck := (hframe .tck).resolve_left (by decide)
  have hhost : u.host = s.host := (hframe .host).resolve_left (by decide)
  have hget := respondAt_get (s := record u code ps) (w := w) (by rwa [record_slots, portSt_of_host hhost]) reason (record u code ps).tck.tick []
  refine ⟨by simp, fun hcan => ?_, (congrArg Slot.response hget).trans (by simp [htck]), congrArg Slot.busy hget, ?_⟩
  · have hlast := (record_reports u code ps (by rwa [Awake, htck]) hcode).1 (canRecord_of_sameBut hframe code hcan)
    simpa [LastReport] using hlast
  · exact sameBut_mono (sameBut_trans (sameBut_trans hframe (sameBut_record u code ps)) (sameBut_respondAt _ _ _ _ _)) (by simp)

/-- Settles O38: the verdict is rewritten to the bank admitted or rejected and the answer, the end of a stored-copy write to the copy, the record and the
answer. -/
theorem verifierAndSaveEnd : Obligations.VerifierAndSaveEnd := by
  unfold Obligations.VerifierAndSaveEnd
  refine ⟨fun s bank w hfind hbusy hphase hown => ⟨fun hverdict => ?admitted, fun x hverdict => ?rejected⟩,
    fun s v rest w hawake hsaves hwho hbusy => ⟨?passed, ?failed⟩⟩
  case admitted =>
    obtain ⟨hbank, hother, hverify, hinForce, hfree⟩ := verdictEnd_admits hfind hbusy hphase hown hverdict
    exact ⟨_, rfl, by rw [hbank], by rw [hbank], by rw [hbank], hverify, hfree, hother, hinForce⟩
  case rejected =>
    obtain ⟨hldr, himg, hanswer, hframe⟩ := verdictEnd_rejects hfind hbusy hphase hown hverdict
    obtain ⟨hrod, haddr, hindex, hverify⟩ := afterRejection_fail (withoutVerify s { bank := bank, who := some w }) bank x
    refine ⟨_, rfl, (congrArg Ldr.failRod hldr).trans hrod, (congrArg Ldr.failAddr hldr).trans haddr, (congrArg Ldr.failIndex hldr).trans hindex,
      (congrArg Ldr.verify hldr).trans hverify, fun y hy => ?others, fun hactivate => ?dropped, fun hactivate => ?kept, hanswer, hframe, fun hforce => ?image⟩
    case others => rw [bankSt_of_ldr hldr, bankSt_afterRejection_other _ _ _ hy, bankSt_withoutVerify]
    case dropped =>
      rw [afterRejection_of_not_activatePending (s := withoutVerify s _) x hactivate] at hldr
      have hbank := bankSt_of_ldr hldr bank
      rw [bankSt_rejectBank, bankSt_setBank_same, bankSt_withoutVerify] at hbank
      exact ⟨by rw [hbank], by rw [hbank], by rw [hbank], by rw [hldr, rejectBank_ldr]; rfl⟩
    case kept =>
      rw [afterRejection_of_activatePending (s := withoutVerify s _) x hactivate] at hldr
      exact ⟨by rw [bankSt_of_ldr hldr, bankSt_noteReject, bankSt_withoutVerify], by rw [hldr]; rfl⟩
    case image => exact himg.trans (afterRejection_img x hforce)
  case passed =>
    obtain ⟨hldr, hreport, -, hfree, hframe⟩ := record_answered (code := 0x0542) [bankNo v.bank] 0
      (sameBut_afterSave s rest v.bank (if rest.any (fun x => x.bank == v.bank) then none else some v.image)) hawake (by decide) hbusy
    refine ⟨_, congrArg Host.Outcome.next (saveComplete_passed hsaves hwho), ?_, ?_, hreport, hfree, hframe⟩
    · rw [hldr, afterSave_saves]
    · rw [bankSt_of_ldr hldr, bankSt_afterSave_same]
  case failed =>
    obtain ⟨hldr, hreport, hanswer, -, hframe⟩ := record_answered (code := 0x052C) [] 0x052C (sameBut_afterSave s rest v.bank none) hawake (by decide) hbusy
    refine ⟨_, congrArg Host.Outcome.next (saveComplete_failed hsaves hwho), ?_, ?_, ?_, hreport, fun y hy => ?_, hanswer, hframe⟩
    · rw [hldr, afterSave_saves]
    · rw [bankSt_of_ldr hldr, bankSt_afterSave_same]
    · rw [bankSt_of_ldr hldr, bankSt_afterSave_same]
    · rw [bankSt_of_ldr hldr, bankSt_afterSave_other _ _ _ hy]

end Sys2Proof.Machine
end

section
/-! PROOFS. Landing of results and of exchange stores, the constants of R124, and the end of a WAITF's stall (R124, R126, R135, R136, R138, R139, R174). -/
namespace Sys2Proof.Machine
open Sys2Proof

/-! ### Rods read and written -/

theorem rodAt_val (s : State) (k : Fin 48) : rodAt s k.val = s.rods.rods.get k := by
  simp [rodAt, Array.getD_eq_getD_getElem?, Vector.get]

theorem get_setRod (s : State) (k n : Fin 48) (r : Rod) : (setRod s k.val r).rods.rods.get n = if n = k then r else s.rods.rods.get n := by
  rw [← rodAt_val, rodAt_setRod s k.val n.val r k.isLt, rodAt_val]
  simp [Fin.ext_iff]

@[simp] theorem get_setRod_same (s : State) (k : Fin 48) (r : Rod) : (setRod s k.val r).rods.rods.get k = r := by
  rw [get_setRod, if_pos rfl]

theorem get_setRod_other (s : State) {k n : Fin 48} (r : Rod) (h : n ≠ k) : (setRod s k.val r).rods.rods.get n = s.rods.rods.get n := by
  rw [get_setRod, if_neg h]

theorem sameBut_setRod (s : State) (n : Nat) (r : Rod) : SameBut [.rods] s (setRod s n r) := by
  intro part
  cases part <;> simp [samePart]

theorem get_setIfInBounds {α : Type} {n : Nat} (v : Vector α n) (i : Nat) (j : Fin n) (x : α) :
    (v.setIfInBounds i x).get j = if j.val = i then x else v.get j := by
  change (v.setIfInBounds i x)[j.val] = if j.val = i then x else v[j.val]
  rw [Vector.getElem_setIfInBounds]
  simp only [eq_comm]

/-! ### Sparse maps -/

theorem smGet_smPut_same {α : Type} (m : SMap α) (k : Nat) (v : α) : smGet (smPut m k v) k = some v := by
  induction m with
  | nil => simp [smPut, smGet]
  | cons e m ih =>
    simp only [smPut]
    split
    · simp [smGet]
    · split
      · simp [smGet]
      · next hne => simpa [smGet, Ne.symm hne] using ih

theorem smGet_smPut_other {α : Type} (m : SMap α) {k a : Nat} (v : α) (h : a ≠ k) : smGet (smPut m k v) a = smGet m a := by
  induction m with
  | nil => simp [smPut, smGet, h.symm]
  | cons e m ih =>
    simp only [smPut]
    split
    · simp [smGet, h.symm]
    · split
      · next heq => simp [smGet, ← heq, h.symm]
      · simp only [smGet, ih]

theorem smGetD_smPut_same {α : Type} (m : SMap α) (k : Nat) (v d : α) : smGetD (smPut m k v) k d = v := by
  simp [smGetD, smGet_smPut_same]

theorem smGetD_smPut_other {α : Type} (m : SMap α) {k a : Nat} (v d : α) (h : a ≠ k) : smGetD (smPut m k v) a d = smGetD m a d := by
  simp [smGetD, smGet_smPut_other m v h]

/-- The map with values under consecutive keys. -/
def smPutFrom {α : Type} (m : SMap α) (k : Nat) (vs : List α) : SMap α :=
  (vs.foldl (fun (acc : SMap α × Nat) v => (smPut acc.1 acc.2 v, acc.2 + 1)) (m, k)).1

theorem smPutFrom_cons {α : Type} (m : SMap α) (k : Nat) (v : α) (vs : List α) : smPutFrom m k (v :: vs) = smPutFrom (smPut m k v) (k + 1) vs := rfl

theorem smGet_smPutFrom_below {α : Type} (m : SMap α) {k a : Nat} (vs : List α) (h : a < k) : smGet (smPutFrom m k vs) a = smGet m a := by
  induction vs generalizing m k with
  | nil => rfl
  | cons v vs ih => rw [smPutFrom_cons, ih _ (by omega), smGet_smPut_other _ _ (by omega)]

theorem smGet_smPutFrom {α : Type} (m : SMap α) (k : Nat) (vs : List α) {i : Nat} (h : i < vs.length) : smGet (smPutFrom m k vs) (k + i) = vs[i]? := by
  induction vs generalizing m k i with
  | nil => simp at h
  | cons v vs ih =>
    rw [smPutFrom_cons]
    cases i with
    | zero => exact (smGet_smPutFrom_below _ vs k.lt_succ_self).trans (smGet_smPut_same m k v)
    | succ i => rw [show k + (i + 1) = k + 1 + i by omega, ih _ _ (by simpa using h), List.getElem?_cons_succ]

/-! ### g0, p0 and s0 (R124) -/

/-- What stands in g0, p0 and s0 is the same in two rods. -/
def HardwiredSame (r q : Rod) : Prop := q.g.get 0 = r.g.get 0 ∧ q.p.getLsbD 0 = r.p.getLsbD 0 ∧ q.seg.get 0 = r.seg.get 0

/-- A destination whose writes are discarded. -/
def Hardwired (d : Dest) : Prop := d = .g 0 ∨ d = .p 0 ∨ d = .seg 0

theorem landDest_of_hardwired {d : Dest} (h : Hardwired d) (r : Rod) (v : Nat) : landDest r d v = r := by
  rcases h with rfl | rfl | rfl <;> simp [landDest]

/-- Writing a bit of a number above bit 0 leaves bit 0. -/
theorem testBit_zero_setBitN (v : Nat) {i : Nat} (b : Bool) (h : i ≠ 0) : (setBitN v i b).testBit 0 = v.testBit 0 := by
  obtain ⟨m, hm⟩ : ∃ m, 2 ^ i = 2 * m := ⟨2 ^ (i - 1), by rw [Nat.mul_comm, Nat.two_pow_pred_mul_two (Nat.pos_of_ne_zero h)]⟩
  unfold setBitN
  split
  · simp [h]
  · split
    · next hbit =>
      have hle := Nat.ge_two_pow_of_testBit hbit
      simp only [Nat.testBit_zero]
      congr 1
      simp only [eq_iff_iff]
      omega
    · rfl

theorem landDest_hardwiredSame (r : Rod) (d : Dest) (v : Nat) : HardwiredSame r (landDest r d v) := by
  by_cases hd : Hardwired d
  · rw [landDest_of_hardwired hd]
    exact ⟨rfl, rfl, rfl⟩
  cases d with
  | g n =>
    have hn : n ≠ 0 := fun h => hd (.inl (by rw [h]))
    refine ⟨?_, ?_, ?_⟩ <;> simp [landDest, hn, get_setIfInBounds, hn.symm]
  | p n =>
    have hn : n ≠ 0 := fun h => hd (.inr (.inl (by rw [h])))
    refine ⟨?_, ?_, ?_⟩
    · simp [landDest, hn]
    · simp only [landDest, if_neg hn, BitVec.getLsbD_ofNat, testBit_zero_setBitN _ _ hn]
      simp [BitVec.getLsbD]
    · simp [landDest, hn]
  | lc n => exact ⟨rfl, rfl, rfl⟩
  | seg n =>
    have hn : n ≠ 0 := fun h => hd (.inr (.inr (by rw [h])))
    refine ⟨?_, ?_, ?_⟩ <;> simp [landDest, hn, get_setIfInBounds, hn.symm]

theorem landUpTo_hardwiredSame (r : Rod) (c : Nat) : HardwiredSame r (landUpTo r c) :=
  List.foldlRecOn (motive := HardwiredSame r) ((r.flight.filter (fun f => f.due ≤ c)).foldr insertFlight []) _ ⟨rfl, rfl, rfl⟩ fun q ⟨hg, hp, hs⟩ f _ =>
    have ⟨hg', hp', hs'⟩ := landDest_hardwiredSame q f.dest f.value
    ⟨hg'.trans hg, hp'.trans hp, hs'.trans hs⟩

/-! ### One result on its way (R126, R174) -/

theorem landUpTo_of_due {r : Rod} {f : Flight} {c : Nat} (hflight : r.flight = [f]) (hdue : f.due ≤ c) :
    landUpTo r c = { landDest r f.dest f.value with flight := [], divAt := (landUpTo r c).divAt } := by
  have hlate : ¬c < f.due := Nat.not_lt.mpr hdue
  simp [landUpTo, hflight, hdue, hlate, insertFlight]

theorem landUpTo_of_early {r : Rod} {f : Flight} {c : Nat} (hflight : r.flight = [f]) (hearly : c < f.due) :
    landUpTo r c = { r with divAt := (landUpTo r c).divAt } := by
  have hnot : ¬f.due ≤ c := Nat.not_le.mpr hearly
  simp [landUpTo, hflight, hearly, hnot]

theorem landUpTo_divAt {r : Rod} (h : r.divAt = none) (c : Nat) : (landUpTo r c).divAt = r.divAt := by
  simp [landUpTo, h]

theorem resultLand_val (s : State) (k : Fin 48) :
    resultLand s k.val = setRod s k.val (landUpTo (s.rods.rods.get k) (s.rods.rods.get k).cycle) := by
  rw [resultLand, rodAt_val]

/-- A result for a general register; g0 discards it (R124). -/
theorem landDest_g_get (r : Rod) (n m : Fin 64) (v : Nat) :
    (landDest r (.g n.val) v).g.get m = if m = n ∧ n.val ≠ 0 then BitVec.ofNat 24 v else r.g.get m := by
  by_cases hn : n.val = 0
  · simp [landDest, hn]
  · simp [landDest, hn, get_setIfInBounds, Fin.ext_iff]

theorem landDest_g_rest (r : Rod) (n v : Nat) : (landDest r (.g n) v).p = r.p ∧ (landDest r (.g n) v).pc = r.pc := by
  unfold landDest
  dsimp only
  split <;> exact ⟨rfl, rfl⟩

/-- Settles O33: a read of g0, p0 or s0 does not look at the rod; a landing that is a fold of writes keeps all three, since each write does. -/
theorem hardwiredRegistersReadConstant : Obligations.HardwiredRegistersReadConstant := by
  unfold Obligations.HardwiredRegistersReadConstant
  refine ⟨fun r => ⟨by simp [rdG], by simp [rdP], by simp [rdSeg]⟩, fun s k => ?lands, fun s k f hflight hdest hdue hdiv => ?discarded⟩
  case lands =>
    refine ⟨_, congrArg Host.Outcome.next (resultLand_val s k), ?_⟩
    rw [get_setRod_same]
    obtain ⟨hg, hp, hs⟩ := landUpTo_hardwiredSame (s.rods.rods.get k) (s.rods.rods.get k).cycle
    exact ⟨hg, hp, hs, sameBut_setRod _ _ _⟩
  case discarded =>
    refine ⟨_, congrArg Host.Outcome.next (resultLand_val s k), ?_, fun n hn => get_setRod_other _ _ hn, sameBut_setRod _ _ _⟩
    rw [get_setRod_same, landUpTo_of_due hflight hdue, landDest_of_hardwired hdest, landUpTo_divAt hdiv]

/-! ### Exchange stores (R135, R136) -/

/-- The exchange store that is the first to reach its word in its cycle. -/
theorem xstStore_first (s : State) {r : Rod} {x : XStore}
    (h : smGetD r.landed (0x7C000 + x.ofs) (x.due + 1, 0, false) = (x.due + 1, 0, false)) :
    xstStore s r x = (s, { r with landed := smPut r.landed (0x7C000 + x.ofs) (x.due, 1, true), loc := smPut r.loc (0x7C000 + x.ofs) x.value }) := by
  simp [xstStore, h]

theorem landXst_one {s : State} {x : XStore} {rod c : Nat} (hxst : s.rods.xst = [x]) (hdst : x.dst = rod) (hdue : x.due ≤ c) (r : Rod) :
    landXst s rod r c = xstStore { s with rods.xst := [] } r x := by
  simp [landXst, hxst, hdst, hdue, insertXst]

theorem xstHorizon_of_running {s : State} {k : Fin 48} (h : (s.rods.rods.get k).run = .running) : xstHorizon s k.val = (s.rods.rods.get k).cycle := by
  simp [xstHorizon, rodAt_val, h]

/-! ### The end of a WAITF's stall (R138, R139) -/

theorem fqAt_retireOp (r : Rod) {slot : Nat} (o : FqOp) (h : slot < 16) : fqAt (retireOp r slot o) slot = none := by
  rw [fqAt, retireOp, vector_getD_set _ _ _ _ _ h, if_pos rfl]

/-- A fetch that is retired has copied its buffer to its destination. -/
theorem retireOp_loc (r : Rod) (slot : Nat) {o : FqOp} (hfailed : o.failed = false) (hstore : o.store = false) :
    (retireOp r slot o).loc = smPutFrom r.loc o.loc o.data := by
  simp [retireOp, hfailed, hstore, smPutFrom]

/-- The rod after a stalled WAITF has retired. -/
def afterWaitf (r : Rod) (slot : Nat) (o : FqOp) (cycles : Nat) : Rod := { retireOp r slot o with run := .running, cycle := r.cycle + cycles + 1 }

/-- The longest stall of a WAITF is kept, with the rod that had it. -/
def noteStall (s : State) (rod ns : Nat) : State :=
  if ns > s.rods.waitfNs.toNat then { s with rods.waitfNs := BitVec.ofNat 24 (min ns 0xFFFFFF), rods.waitfRod := BitVec.ofNat 6 rod } else s

theorem noteStall_rods (s : State) (rod ns : Nat) : (noteStall s rod ns).rods.rods = s.rods.rods := by
  unfold noteStall
  split <;> rfl

theorem noteStall_waitfNs (s : State) (rod ns : Nat) :
    (noteStall s rod ns).rods.waitfNs = if s.rods.waitfNs.toNat < ns then BitVec.ofNat 24 (min ns 0xFFFFFF) else s.rods.waitfNs := by
  unfold noteStall
  split <;> rfl

theorem sameBut_noteStall (s : State) (rod ns : Nat) : SameBut [.rods] s (noteStall s rod ns) := by
  unfold noteStall
  split
  · intro part
    cases part <;> simp [samePart]
  · exact sameBut_refl _ _

theorem waitfRetire_of_complete {s : State} {k : Fin 48} {slot since cycles : Nat} (ns : Nat) {o : FqOp}
    (hrun : (s.rods.rods.get k).run = .stalled slot since) (hop : fqAt (s.rods.rods.get k) slot = some o) (hcomplete : opComplete o = true)
    (hgoes : computeGoes s ((s.rods.rods.get k).cycle + cycles) = true) :
    waitfRetire s k.val cycles ns = noteStall (setRod s k.val (afterWaitf (s.rods.rods.get k) slot o cycles)) k.val ns := by
  simp [waitfRetire, rodAt_val, hrun, hop, hcomplete, hgoes, noteStall, afterWaitf]

/-- Settles O34: one result, one exchange store and one stalled WAITF, each rewritten to the rod that it leaves. -/
theorem resultsAndStoresLand : Obligations.ResultsAndStoresLand := by
  unfold Obligations.ResultsAndStoresLand
  refine ⟨fun s k f n => ?result, fun s k x hxst hdst hrun hdue hfirst => ?store,
    fun s k slot since cycles ns o hslot hrun hop hcomplete hgoes => ?retire⟩
  case result =>
    intro r hflight hdest
    refine ⟨fun hdue => ⟨_, congrArg Host.Outcome.next (resultLand_val s k), ?_⟩, fun hearly => ⟨_, congrArg Host.Outcome.next (resultLand_val s k), ?_⟩⟩
    · rw [get_setRod_same, landUpTo_of_due hflight hdue, hdest]
      obtain ⟨hp, hpc⟩ := landDest_g_rest r n.val f.value
      refine ⟨rfl, ?_, fun m hm => ?_, hp, hpc, fun j hj => get_setRod_other _ _ hj, sameBut_setRod _ _ _⟩
      · refine (landDest_g_get r n n f.value).trans ?_
        by_cases hn : n.val = 0 <;> simp [hn]
      · exact (landDest_g_get r n m f.value).trans (if_neg fun h => hm h.1)
    · rw [get_setRod_same, landUpTo_of_early hflight hearly]
      exact ⟨hflight, rfl, rfl, sameBut_setRod _ _ _⟩
  case store =>
    have hland := landXst_one hxst hdst hdue (s.rods.rods.get k)
    rw [xstStore_first _ hfirst] at hland
    refine ⟨_, congrArg Host.Outcome.next (show xstLand s k.val = _ by rw [xstLand, xstHorizon_of_running hrun, rodAt_val, hland]), rfl, ?_⟩
    rw [get_setRod_same]
    refine ⟨smGetD_smPut_same _ _ _ _, fun a ha => smGetD_smPut_other _ _ _ ha, rfl, fun j hj => get_setRod_other _ _ hj, fun part => ?_⟩
    cases part <;> simp [samePart]
  case retire =>
    refine ⟨_, congrArg Host.Outcome.next (waitfRetire_of_complete ns hrun hop hcomplete hgoes), ?_⟩
    rw [noteStall_rods, get_setRod_same, noteStall_waitfNs]
    refine ⟨rfl, rfl, fqAt_retireOp _ o hslot, rfl, fun hfailed hstore i hi => ?_, rfl, fun j hj => get_setRod_other _ _ hj,
      sameBut_mono (sameBut_trans (sameBut_setRod s _ _) (sameBut_noteStall _ _ _)) (by simp)⟩
    rw [show (afterWaitf (s.rods.rods.get k) slot o cycles).loc = _ from retireOp_loc _ slot hfailed hstore]
    exact smGet_smPutFrom _ _ _ hi

end Sys2Proof.Machine
end

section
/-! PROOFS. The trunk: arbitration, grants, grant phases, bursts that are done, quota windows and long holds (R139, R145, R146, R149 to R151, R153). -/
namespace Sys2Proof.Machine
open Sys2Proof

/-! ### Arbitration (R149 to R151) -/

theorem le_foldl_max (f : Nat → Nat) (l : List Nat) (m : Nat) :
    m ≤ l.foldl (fun m w => max m (f w)) m ∧ ∀ v ∈ l, f v ≤ l.foldl (fun m w => max m (f w)) m := by
  induction l generalizing m with
  | nil => simp
  | cons a l ih =>
    obtain ⟨hstart, hall⟩ := ih (max m (f a))
    refine ⟨Nat.le_trans (Nat.le_max_left _ _) hstart, fun v hv => ?_⟩
    rcases List.mem_cons.mp hv with rfl | hv
    · exact Nat.le_trans (Nat.le_max_right _ _) hstart
    · exact hall v hv

theorem roundRobin_mem {last w : Nat} {ws : List Nat} (h : roundRobin last ws = some w) : w ∈ ws := by
  unfold roundRobin at h
  split at h
  · next hfind =>
    cases h
    exact List.mem_of_find?_eq_some hfind
  · exact List.mem_of_head? h

theorem not_masked_of_mem_requests {s : State} {others : List Nat} {w : Nat} (h : w ∈ requests s others) : masked s w = false := by
  simpa using (List.mem_filter.mp h).2

theorem arbitrate_spec {s : State} {others : List Nat} {w : Nat} (h : arbitrate s others = some w) :
    w ∈ requests s others ∧ ∀ v ∈ requests s others, trunkRank s v ≤ trunkRank s w := by
  have hmem : w ∈ (requests s others).filter
      (fun w => trunkRank s w = (requests s others).foldl (fun m w => max m (trunkRank s w)) 0) := by
    simp only [arbitrate] at h
    split at h
    · cases h
    · exact roundRobin_mem h
  obtain ⟨hreq, htop⟩ := List.mem_filter.mp hmem
  refine ⟨hreq, fun v hv => ?_⟩
  rw [of_decide_eq_true htop]
  exact (le_foldl_max _ _ _).2 v hv

/-! ### Operations of a rod (R138, R145) -/

/-- A queue slot in which an operation is changed if it is the one of an order number. -/
def updateOp (op : Nat) (f : FqOp → FqOp) (slot : Option FqOp) : Option FqOp := slot.map (fun o => if o.order = op then f o else o)

theorem setOp_val (s : State) (k : Fin 48) (op : Nat) (f : FqOp → FqOp) :
    setOp s k.val op f = setRod s k.val { s.rods.rods.get k with fq := (s.rods.rods.get k).fq.map (updateOp op f) } := by
  rw [setOp, rodAt_val]
  congr
  funext slot
  cases slot <;> rfl

theorem find?_map_updateOp (op : Nat) {f : FqOp → FqOp} (hf : ∀ o, (f o).order = o.order) (l : List (Option FqOp)) :
    ((l.map (updateOp op f)).filterMap id).find? (fun o => o.order = op) = ((l.filterMap id).find? (fun o => o.order = op)).map f := by
  induction l with
  | nil => rfl
  | cons slot l ih =>
    cases slot with
    | none => simpa [updateOp] using ih
    | some o =>
      by_cases ho : o.order = op
      · simp [updateOp, ho, hf]
      · simpa [updateOp, ho] using ih

theorem findOp_setOp (s : State) (k : Fin 48) (op : Nat) {f : FqOp → FqOp} (hf : ∀ o, (f o).order = o.order) :
    findOp ((setOp s k.val op f).rods.rods.get k) op = (findOp (s.rods.rods.get k) op).map f := by
  rw [setOp_val, get_setRod_same]
  simp only [findOp, Vector.toList_map]
  exact find?_map_updateOp op hf _

theorem get_setOp_other (s : State) {k n : Fin 48} (op : Nat) (f : FqOp → FqOp) (h : n ≠ k) :
    (setOp s k.val op f).rods.rods.get n = s.rods.rods.get n :=
  get_setRod_other _ _ h

theorem sameBut_setOp (s : State) (rod op : Nat) (f : FqOp → FqOp) : SameBut [.rods] s (setOp s rod op f) := sameBut_setRod _ _ _

theorem findOp_setBurst (s : State) (k : Fin 48) (op j : Nat) (b : BurstSt) :
    findOp ((setBurst s k.val op j b).rods.rods.get k) op = (findOp (s.rods.rods.get k) op).map (fun o => { o with bursts := o.bursts.set j b }) :=
  findOp_setOp s k op fun _ => rfl

theorem get_setBurst_other (s : State) {k n : Fin 48} (op j : Nat) (b : BurstSt) (h : n ≠ k) :
    (setBurst s k.val op j b).rods.rods.get n = s.rods.rods.get n :=
  get_setOp_other _ _ _ h

theorem sameBut_setBurst (s : State) (rod op j : Nat) (b : BurstSt) : SameBut [.rods] s (setBurst s rod op j b) := sameBut_setOp _ _ _ _

theorem setBurst_trk (s : State) (rod op j : Nat) (b : BurstSt) : (setBurst s rod op j b).trk = s.trk :=
  (sameBut_setBurst s rod op j b .trk).resolve_left (by decide)

theorem setBurst_ldr (s : State) (rod op j : Nat) (b : BurstSt) : (setBurst s rod op j b).ldr = s.ldr :=
  (sameBut_setBurst s rod op j b .ldr).resolve_left (by decide)

/-- The next burst of a rod is one of an operation that the rod holds. -/
theorem findOp_of_rodBurst {r : Rod} {op j : Nat} (h : rodBurst r = some (op, j)) : ∃ o, findOp r op = some o := by
  have hheld : ∀ x, rodBurst r = some x → ∃ o, some o ∈ r.fq.toList ∧ o.order = x.1 := by
    refine List.foldlRecOn (motive := fun (best : Option (Nat × Nat)) => ∀ x, best = some x → ∃ o, some o ∈ r.fq.toList ∧ o.order = x.1) _ _ (by simp) ?_
    intro best hbest slot hslot x hx
    split at hx
    · exact hbest x hx
    · next o =>
      split at hx
      · exact hbest x hx
      · split at hx
        · cases hx
          exact ⟨o, hslot, rfl⟩
        · split at hx
          · cases hx
            exact ⟨o, hslot, rfl⟩
          · exact hbest x hx
  obtain ⟨o, hmem, horder⟩ := hheld _ h
  refine Option.isSome_iff_exists.mp (List.find?_isSome.mpr ⟨o, ?_, by simpa using horder⟩)
  simpa using hmem

/-! ### A grant (R149 to R151) -/

theorem countRestart_rods (s : State) (who : Nat) : (countRestart s who).rods = s.rods := by
  unfold countRestart
  split
  · rfl
  · split <;> rfl

theorem sameBut_countRestart (s : State) (who : Nat) : SameBut [.trk] s (countRestart s who) := by
  unfold countRestart
  split
  · exact sameBut_refl _ _
  · intro part
    split <;> cases part <;> simp [samePart]

/-- The order number of the operation, and the index, of the burst that a grant is for; (0, 0) where the requester is no rod. -/
def burstOf (s : State) (who : Nat) : Nat × Nat := if who < 48 then (rodBurst (rodAt s who)).getD (0, 0) else (0, 0)

theorem burstOf_rod {s : State} {k : Fin 48} {op j : Nat} (h : rodBurst (s.rods.rods.get k) = some (op, j)) : burstOf s k.val = (op, j) := by
  simp [burstOf, rodAt_val, h]

/-- The state in which the burst of a request that is granted has left the pending ones, before the stage is given to it. -/
def burstGranted (s : State) (who : Nat) : State :=
  if who < 48 then setBurst (countRestart s who) who (burstOf s who).1 (burstOf s who).2 .granted else countRestart s who

theorem burstGranted_of_rod {s : State} {k : Fin 48} {op j : Nat} (h : rodBurst (s.rods.rods.get k) = some (op, j)) :
    burstGranted s k.val = setBurst (countRestart s k.val) k.val op j .granted := by
  rw [burstGranted, if_pos k.isLt, burstOf_rod h]

theorem burstGranted_rods_of_other (s : State) {who : Nat} (h : 48 ≤ who) : (burstGranted s who).rods = s.rods := by
  rw [burstGranted, if_neg (Nat.not_lt.mpr h), countRestart_rods]

theorem sameBut_burstGranted (s : State) (who : Nat) : SameBut [.trk, .rods] s (burstGranted s who) := by
  unfold burstGranted
  split
  · exact sameBut_trans (sameBut_countRestart s who) (sameBut_setBurst _ _ _ _ _)
  · exact sameBut_mono (sameBut_countRestart s who) (by simp)

/-- A grant gives the stage to the requester and counts in the window; beside that only the burst of a rod changes. -/
theorem grantTo_spec (s : State) (who : Nat) :
    (∃ g, (grantTo s who).trk.grant = some g ∧ g.who = who ∧ (g.op, g.burst) = burstOf s who) ∧
    (grantTo s who).trk.counts = smPut (burstGranted s who).trk.counts who (grantsOf s who + 1) ∧
    (grantTo s who).rods = (burstGranted s who).rods ∧ SameBut [.trk] (burstGranted s who) (grantTo s who) := by
  refine ⟨⟨_, rfl, rfl, rfl⟩, rfl, rfl, fun part => ?_⟩
  cases part
  case trk => exact .inl (by simp)
  all_goals exact .inr rfl

theorem trunkGrant_of_free {s : State} {others : List Nat} {w : Nat} (hfree : s.trk.grant = none) (hwin : arbitrate s others = some w) :
    trunkGrant s others = grantTo s w := by
  simp [trunkGrant, hfree, hwin]

/-! ### A burst meets DRAM (R139, R145) -/

theorem instWord_of_ldr {s t : State} (h : t.ldr = s.ldr) (bank : BankId) (key : Nat) : instWord t bank key = instWord s bank key := by
  simp only [instWord, dataOf, bankSt_of_ldr h]

theorem sameBut_storeWords (s : State) (bank : Option BankId) (seg base : Nat) (ws : List Word) : SameBut [.ldr] s (storeWords s bank seg base ws) := by
  cases bank with
  | none => exact sameBut_refl _ _
  | some bank =>
    exact List.foldlRecOn (motive := fun (acc : State × Nat) => SameBut [.ldr] s acc.1) ws _ (sameBut_refl _ _) fun _ hacc _ _ =>
      sameBut_mono (sameBut_trans hacc (sameBut_setBank _ bank _)) (by simp)

/-- The buffer of a fetch once burst j has read its words. -/
def fetchedData (s : State) (o : FqOp) (bank : BankId) (j : Nat) : List Word :=
  let k := burstRange o j
  let pad := o.data ++ List.replicate (o.len - o.data.length) 0#24
  pad.take k.1 ++ (List.range k.2).map (fun i => instWord s bank (wordKey o.seg (o.base + k.1 + i))) ++ pad.drop (k.1 + k.2)

theorem getElem?_fetchedData (s : State) (o : FqOp) (bank : BankId) {j i : Nat} (h : i < min 64 (o.len - 64 * j)) :
    (fetchedData s o bank j)[64 * j + i]? = some (instWord s bank (wordKey o.seg (o.base + 64 * j + i))) := by
  have hfront : ((o.data ++ List.replicate (o.len - o.data.length) 0#24).take (64 * j)).length = 64 * j := by
    simp
    omega
  simp only [fetchedData, burstRange, List.append_assoc]
  rw [List.getElem?_append_right (by omega), hfront, Nat.add_sub_cancel_left, List.getElem?_append_left (by simpa using h)]
  simp [h]

section
variable {s : State} {k : Fin 48} {op : Nat} {o : FqOp} {bank : BankId} (hop : findOp (s.rods.rods.get k) op = some o) (hbank : o.bank = some bank)
include hop hbank

theorem burstAccess_store (hstore : o.store = true) (j : Nat) :
    burstAccess s k.val op j =
      storeWords s o.bank o.seg (o.base + (burstRange o j).1) ((o.data.drop (burstRange o j).1).take (burstRange o j).2) := by
  simp [burstAccess, rodAt_val, hop, hbank, hstore]

theorem burstAccess_fetch (hstore : o.store = false) (j : Nat) :
    burstAccess s k.val op j = setOp s k.val op (fun x => { x with data := fetchedData s o bank j }) := by
  simp [burstAccess, rodAt_val, hop, hbank, hstore, fetchedData]

/-- A burst that meets DRAM: a fetch has the words, a store has written them to the bank. -/
theorem burstAccess_spec (j : Nat) :
    (∃ x, findOp ((burstAccess s k.val op j).rods.rods.get k) op = some x ∧ x.bursts = o.bursts ∧ x.loc = o.loc ∧ x.len = o.len ∧
      (o.store = true → x.data = o.data) ∧ (o.store = false → x.data = fetchedData s o bank j ∧ (burstAccess s k.val op j).ldr = s.ldr)) ∧
    (∀ n, n ≠ k → (burstAccess s k.val op j).rods.rods.get n = s.rods.rods.get n) ∧ SameBut [.rods, .ldr] s (burstAccess s k.val op j) := by
  by_cases hstore : o.store = true
  · rw [burstAccess_store hop hbank hstore]
    have hframe := sameBut_storeWords s o.bank o.seg (o.base + (burstRange o j).1) ((o.data.drop (burstRange o j).1).take (burstRange o j).2)
    rw [show State.rods _ = s.rods from (hframe .rods).resolve_left (by decide)]
    exact ⟨⟨o, hop, rfl, rfl, rfl, fun _ => rfl, fun h => by simp [hstore] at h⟩, fun _ _ => rfl, sameBut_mono hframe (by simp)⟩
  · rw [burstAccess_fetch hop hbank (by simpa using hstore)]
    refine ⟨⟨{ o with data := fetchedData s o bank j }, ?_, rfl, rfl, rfl, fun h => absurd h hstore, fun _ => ⟨rfl, rfl⟩⟩,
      fun n hn => get_setOp_other _ _ _ hn, sameBut_mono (sameBut_setOp _ _ _ _) (by simp)⟩
    exact (findOp_setOp s k op (f := fun x => { x with data := fetchedData s o bank j }) fun _ => rfl).trans (by rw [hop, Option.map_some])

end

/-! ### The end of a grant phase (R149) -/

/-- The state in which the stage is free again and the time it was held is noted. -/
def stageFreed (s : State) (g : Grant) : State := { noteHeld s g.who g.first with trk.grant := none }

theorem stageFreed_spec (s : State) (g : Grant) :
    (stageFreed s g).trk.grant = none ∧ (stageFreed s g).trk.service = s.trk.service ∧ SameBut [.trk] s (stageFreed s g) := by
  unfold stageFreed noteHeld
  dsimp only
  split
  all_goals
    refine ⟨rfl, rfl, fun part => ?_⟩
    cases part <;> simp [samePart]

/-- A burst enters service. -/
def enterService (s : State) (x : Nat × Nat × Nat) : State := { s with trk.service := s.trk.service ++ [x] }

theorem enterService_trk (s : State) (x : Nat × Nat × Nat) : (enterService s x).trk = { s.trk with service := s.trk.service ++ [x] } := rfl

theorem enterService_rods (s : State) (x : Nat × Nat × Nat) : (enterService s x).rods = s.rods := rfl

theorem enterService_ldr (s : State) (x : Nat × Nat × Nat) : (enterService s x).ldr = s.ldr := rfl

theorem sameBut_enterService (s : State) (x : Nat × Nat × Nat) : SameBut [.trk] s (enterService s x) := by
  intro part
  cases part <;> simp [samePart, enterService]

theorem grantPhaseEnd_of_rod {s : State} {g : Grant} {k : Fin 48} (hgrant : s.trk.grant = some g) (hwho : g.who = k.val) :
    grantPhaseEnd s = enterService (setBurst (burstAccess (stageFreed s g) k.val g.op g.burst) k.val g.op g.burst .service) (g.who, g.op, g.burst) := by
  simp [grantPhaseEnd, hgrant, hwho, stageFreed, enterService]

theorem grantPhaseEnd_of_other {s : State} {g : Grant} (hgrant : s.trk.grant = some g) (hwho : 48 ≤ g.who) :
    grantPhaseEnd s = enterService (stageFreed s g) (g.who, 0, 0) := by
  simp [grantPhaseEnd, hgrant, Nat.not_lt.mpr hwho, stageFreed, enterService]

/-- The end of a grant phase of a rod: the burst has met DRAM and is in service. -/
theorem grantPhaseEnd_rod_spec {s : State} {g : Grant} {k : Fin 48} {o : FqOp} {bank : BankId} (hgrant : s.trk.grant = some g) (hwho : g.who = k.val)
    (hop : findOp (s.rods.rods.get k) g.op = some o) (hbank : o.bank = some bank) :
    (grantPhaseEnd s).trk.grant = none ∧ (grantPhaseEnd s).trk.service = s.trk.service ++ [(g.who, g.op, g.burst)] ∧
    ∃ x, findOp ((grantPhaseEnd s).rods.rods.get k) g.op = some x ∧ x.bursts = o.bursts.set g.burst .service ∧ x.loc = o.loc ∧ x.len = o.len ∧
      (o.store = true → x.data = o.data) ∧
      (o.store = false → (∀ i, i < min 64 (o.len - 64 * g.burst) →
          x.data[64 * g.burst + i]? = some (instWord s bank (wordKey o.seg (o.base + 64 * g.burst + i)))) ∧ (grantPhaseEnd s).ldr = s.ldr) ∧
      (∀ n, n ≠ k → (grantPhaseEnd s).rods.rods.get n = s.rods.rods.get n) ∧ SameBut [.trk, .rods, .ldr] s (grantPhaseEnd s) := by
  obtain ⟨hfree, hservice, hfreed⟩ := stageFreed_spec s g
  have hrods : (stageFreed s g).rods = s.rods := (hfreed .rods).resolve_left (by decide)
  have hldr : (stageFreed s g).ldr = s.ldr := (hfreed .ldr).resolve_left (by decide)
  obtain ⟨⟨x, hx, hbursts, hloc, hlen, hdata, hfetched⟩, hothers, haccess⟩ :=
    burstAccess_spec (s := stageFreed s g) (by rwa [hrods]) hbank g.burst
  have htrk : (burstAccess (stageFreed s g) k.val g.op g.burst).trk = (stageFreed s g).trk := (haccess .trk).resolve_left (by decide)
  rw [grantPhaseEnd_of_rod hgrant hwho, enterService_trk, enterService_rods, setBurst_trk, htrk]
  refine ⟨hfree, by rw [hservice], { x with bursts := x.bursts.set g.burst .service }, ?_, ?_, hloc, hlen, hdata, fun hstore => ⟨fun i hi => ?_, ?_⟩,
    fun n hn => ?_, ?_⟩
  · rw [findOp_setBurst, hx, Option.map_some]
  · rw [hbursts]
  · rw [(hfetched hstore).1, getElem?_fetchedData _ _ _ hi, instWord_of_ldr hldr]
  · rw [enterService_ldr, setBurst_ldr, (hfetched hstore).2, hldr]
  · rw [get_setBurst_other _ _ _ _ hn, hothers n hn, hrods]
  · exact sameBut_mono (sameBut_trans (sameBut_trans (sameBut_trans hfreed haccess) (sameBut_setBurst _ _ _ _ _)) (sameBut_enterService _ _)) (by simp)

/-! ### A burst that is done (R145, R146) -/

/-- The state with a burst taken out of those in service. -/
def leaveService (s : State) (x : Nat × Nat × Nat) : State := { s with trk.service := s.trk.service.erase x }

theorem sameBut_leaveService (s : State) (x : Nat × Nat × Nat) : SameBut [.trk] s (leaveService s x) := by
  intro part
  cases part <;> simp [samePart, leaveService]

theorem trunkBurstDone_of_rod {s : State} {k : Fin 48} {x : Nat × Nat × Nat} (hfind : s.trk.service.find? (fun y => y.1 = k.val) = some x) :
    trunkBurstDone s k.val [] = setBurst (leaveService s x) k.val x.2.1 x.2.2 .done := by
  simp [trunkBurstDone, hfind, leaveService]

theorem trunkBurstDone_of_other {s : State} {x : Nat × Nat × Nat} (hfind : s.trk.service.find? (fun y => y.1 = x.1) = some x) (hwho : 48 ≤ x.1)
    (errs : List DramErr) : trunkBurstDone s x.1 errs = errs.foldl (fun s e => dramErr s x.1 e) (leaveService s x) := by
  simp only [trunkBurstDone, hfind, if_neg (Nat.not_lt.mpr hwho)]
  rfl

/-- A corrected codeword is counted, in SHADOW for the pair too (R146). -/
def countCorrected (s : State) : State :=
  { s with trk.eccCorrected := satAdd s.trk.eccCorrected 1, cry.corrections := if s.tck.mode = .shadow then satAdd s.cry.corrections 1 else s.cry.corrections }

theorem sameBut_countCorrected (s : State) : SameBut [.trk, .cry] s (countCorrected s) := by
  intro part
  cases part <;> simp [samePart, countCorrected]

theorem dramErr_corrected (s : State) (who : Nat) (a : BitVec 48) : dramErr s who (.corrected a) = record (countCorrected s) 0x1221 [stackOf a] := rfl

/-! ### Reports after a change of the trunk -/

/-- An event recorded after parts have changed that neither the recorder nor the ports look at. -/
theorem record_reports_of_sameBut {s u : State} {ps : List Part} (hframe : SameBut ps s u)
    (hapart : .tck ∉ ps ∧ .recd ∉ ps ∧ .cfg ∉ ps ∧ .host ∉ ps) (hawake : Awake s) {code : Nat} (hcode : code < 65536) (params : List Nat) :
    Reports s (record u code params) code params := by
  obtain ⟨htck, hrecd, hcfg, hhost⟩ := hapart
  have htck : u.tck = s.tck := (hframe .tck).resolve_left htck
  have hrecd : u.recd = s.recd := (hframe .recd).resolve_left hrecd
  have hcfg : u.cfg = s.cfg := (hframe .cfg).resolve_left hcfg
  have hhost : u.host = s.host := (hframe .host).resolve_left hhost
  obtain ⟨hlast, hirq⟩ := record_reports u code params (by rwa [Awake, htck]) hcode
  refine ⟨fun hcan => hlast ?_, irqOnly_trans (by rw [IrqOnly, hhost]) hirq⟩
  simpa only [CanRecord, cfgField, blkCfg, hrecd, hcfg] using hcan

/-! ### Long holds (R153) -/

/-- Of a list of uses of the grant stage, one that has not been named and began first, if there is one. -/
def OldestUnnamed (l : List Grant) (a : Option Grant) : Prop :=
  match a with
  | none => ∀ x ∈ l, x.named = true
  | some g => g ∈ l ∧ g.named = false ∧ ∀ x ∈ l, x.named = false → g.first ≤ x.first

theorem oldestUnnamed_olderGrant {l : List Grant} {a : Option Grant} (h : OldestUnnamed l a) (g : Grant) :
    OldestUnnamed (l ++ [g]) (olderGrant a g) := by
  by_cases hnamed : g.named
  · simp only [olderGrant, if_pos hnamed]
    cases a <;> grind [OldestUnnamed]
  · simp only [olderGrant, if_neg hnamed]
    cases a with
    | none => grind [OldestUnnamed]
    | some x => by_cases hfirst : g.first < x.first <;> grind [OldestUnnamed]

theorem oldestUnnamed_foldl {l : List Grant} {a : Option Grant} (h : OldestUnnamed l a) (m : List Grant) :
    OldestUnnamed (l ++ m) (m.foldl olderGrant a) := by
  induction m generalizing l a with
  | nil => simpa using h
  | cons g m ih => simpa using ih (oldestUnnamed_olderGrant h g)

theorem oldestUnnamed_longestHeld (s : State) : OldestUnnamed (s.trk.grant.toList ++ s.trk.preempted.map (fun e => e.2)) (longestHeld s) := by
  refine oldestUnnamed_foldl ?_ _
  cases s.trk.grant with
  | none => simp [OldestUnnamed]
  | some g => exact oldestUnnamed_olderGrant (l := []) (a := none) (by simp [OldestUnnamed]) g

/-- The grant that GRANT_HELD_LONG names, marked where it stands. -/
def markNamed (g x : Grant) : Grant := if x = g then { x with named := true } else x

/-- The state in which a long hold is named, before it is recorded. -/
def heldLongNamed (s : State) (g : Grant) : State :=
  { s with trk.grant := s.trk.grant.map (markNamed g), trk.preempted := s.trk.preempted.map (fun e => (e.1, markNamed g e.2))
           trk.heldLong := true, trk.heldWho := BitVec.ofNat 7 g.who }

theorem sameBut_heldLongNamed (s : State) (g : Grant) : SameBut [.trk] s (heldLongNamed s g) := by
  intro part
  cases part <;> simp [samePart, heldLongNamed]

theorem grantHeldLong_of_longestHeld {s : State} {g : Grant} (h : longestHeld s = some g) :
    grantHeldLong s = record (heldLongNamed s g) 0x1210 [g.who] := by
  simp only [grantHeldLong, h]
  rfl

/-- Settles O36: the winner of an arbitration is one of the requests of the highest rank; each command of the trunk is rewritten to its change of the trunk and,
for a rod, to the change of one operation of its queue. -/
theorem trunkGrantsAndMovesBursts : Obligations.TrunkGrantsAndMovesBursts := by
  unfold Obligations.TrunkGrantsAndMovesBursts
  refine ⟨fun s others w hwin => ?arbitration, fun s others w hfree hwin => ?grant, fun s g k o bank hgrant hwho hop hbank => ?phaseEnd,
    fun s x k o hfind hop => ?done, fun s g hgrant hwho => ?phaseEndOther, fun s x hfind hwho => ?doneOther, fun s x a hawake hfind hwho => ?corrected,
    fun s => ?window, fun s g hawake hlongest => ?heldLong⟩
  case arbitration =>
    obtain ⟨hreq, htop⟩ := arbitrate_spec hwin
    exact ⟨hreq, not_masked_of_mem_requests hreq, htop⟩
  case grant =>
    obtain ⟨⟨g, hgrant, hwho, hburst⟩, hcounts, hrods, hframe⟩ := grantTo_spec s w
    refine ⟨_, g, congrArg Host.Outcome.next (trunkGrant_of_free hfree hwin), hgrant, hwho, ?_, ?_,
      sameBut_mono (sameBut_trans (sameBut_burstGranted s w) hframe) (by simp), fun k op j hk hnext => ?_⟩
    · rw [hcounts, smGetD_smPut_same, grantsOf]
    · exact (Nat.lt_or_ge w 48).imp_right fun h => by rw [hrods, burstGranted_rods_of_other s h]
    · subst hk
      obtain ⟨o, hop⟩ := findOp_of_rodBurst hnext
      obtain ⟨hgop, hgburst⟩ := Prod.mk.inj (hburst.trans (burstOf_rod hnext))
      rw [hrods, burstGranted_of_rod hnext]
      refine ⟨hgop, hgburst, fun n hn => ?_, o, _, hop, (findOp_setBurst _ _ _ _ _).trans ?_, rfl⟩
      · rw [get_setBurst_other _ _ _ _ hn, countRestart_rods]
      · rw [countRestart_rods, hop, Option.map_some]
  case phaseEnd =>
    obtain ⟨hfree, hservice, x, hx, hbursts, hloc, hlen, hdata, hfetched, hothers, hframe⟩ := grantPhaseEnd_rod_spec hgrant hwho hop hbank
    exact ⟨_, x, rfl, hfree, hservice, hx, hbursts, hloc, hlen, hdata, hfetched, hothers, hframe⟩
  case done =>
    refine ⟨_, congrArg Host.Outcome.next (trunkBurstDone_of_rod hfind), setBurst_trk _ _ _ _ _, (findOp_setBurst _ _ _ _ _).trans ?_,
      fun n hn => get_setBurst_other _ _ _ _ hn, sameBut_mono (sameBut_trans (sameBut_leaveService s x) (sameBut_setBurst _ _ _ _ _)) (by simp)⟩
    rw [show (leaveService s x).rods = s.rods from rfl, hop, Option.map_some]
  case phaseEndOther =>
    obtain ⟨hfree, hservice, hfreed⟩ := stageFreed_spec s g
    exact ⟨_, congrArg Host.Outcome.next (grantPhaseEnd_of_other hgrant hwho), hfree, congrArg (· ++ _) hservice,
      sameBut_mono (sameBut_trans hfreed (sameBut_enterService _ _)) (by simp)⟩
  case doneOther =>
    exact ⟨_, congrArg Host.Outcome.next (trunkBurstDone_of_other hfind hwho []), rfl, sameBut_leaveService s x⟩
  case corrected =>
    have hcounted := sameBut_trans (sameBut_leaveService s x) (sameBut_countCorrected (leaveService s x))
    refine ⟨_, congrArg Host.Outcome.next (trunkBurstDone_of_other hfind hwho [.corrected a]), ?_⟩
    rw [List.foldl_cons, List.foldl_nil, dramErr_corrected]
    have hrecord := sameBut_record (countCorrected (leaveService s x)) 0x1221 [stackOf a]
    exact ⟨(hrecord .trk).resolve_left (by decide), record_reports_of_sameBut hcounted (by decide) hawake (by decide) _,
      (hrecord .cry).resolve_left (by decide), sameBut_mono (sameBut_trans hcounted hrecord) (by simp)⟩
  case window =>
    refine ⟨_, rfl, rfl, rfl, rfl, rfl, rfl, rfl, fun part => ?_⟩
    cases part <;> simp [samePart, quotaWindow]
  case heldLong =>
    have hold := oldestUnnamed_longestHeld s
    rw [hlongest] at hold
    obtain ⟨hmem, hnamed, hfirst⟩ := hold
    have hrecord := sameBut_record (heldLongNamed s g) 0x1210 [g.who]
    have htrk := (hrecord .trk).resolve_left (by decide)
    refine ⟨by simpa using hmem, hnamed, fun x hx => hfirst x (by simp [hx]), fun k x hx => hfirst x ?_, _,
      congrArg Host.Outcome.next (grantHeldLong_of_longestHeld hlongest), congrArg Trk.heldLong htrk, congrArg Trk.heldWho htrk, fun hgrant => ?_,
      record_reports_of_sameBut (sameBut_heldLongNamed s g) (by decide) hawake (by decide) _, sameBut_mono (sameBut_trans (sameBut_heldLongNamed s g) hrecord) (by simp)⟩
    · exact List.mem_append_right _ (List.mem_map_of_mem hx)
    · refine (congrArg Trk.grant htrk).trans ?_
      simp [heldLongNamed, hgrant, markNamed]

end Sys2Proof.Machine
end

section
/-! PROOFS. Integer arithmetic of classes A and M: two's complement words as balanced residues, sums, saturation, division and remainder (R194, R197, R198). -/
namespace Sys2Proof.Machine
open Sys2Proof

/-! ### Words in two's complement -/

/-- A signed value of a word is the balanced residue that the library knows. -/
theorem ofTwos_eq_bmod (n v : Nat) : ofTwos (n + 1) v = (v : Int).bmod (2 ^ (n + 1)) := by
  have hhalf : (((2 ^ (n + 1) : Nat) : Int) + 1) / 2 = (2 ^ n : Nat) := by
    rw [Nat.pow_succ]
    omega
  rw [Int.bmod_def, hhalf]
  unfold ofTwos
  simp only [Nat.add_sub_cancel]
  norm_cast

theorem cast_toTwos (n : Nat) (i : Int) : (toTwos n i : Int) = i % (2 ^ n : Nat) :=
  Int.toNat_of_nonneg (Int.emod_nonneg _ (Int.natCast_ne_zero.mpr (Nat.ne_of_gt (Nat.two_pow_pos n))))

theorem toTwos_lt (n : Nat) (i : Int) : toTwos n i < 2 ^ n := by
  rw [← Int.ofNat_lt, cast_toTwos]
  exact Int.emod_lt_of_pos _ (Int.natCast_pos.mpr (Nat.two_pow_pos n))

theorem ofTwos_toTwos (n : Nat) (i : Int) : ofTwos (n + 1) (toTwos (n + 1) i) = i.bmod (2 ^ (n + 1)) := by
  rw [ofTwos_eq_bmod, cast_toTwos, Int.emod_bmod]

theorem ofTwos_toTwos_24_of_range {i : Int} (hlo : -8388608 ≤ i) (hhi : i ≤ 8388607) : ofTwos 24 (toTwos 24 i) = i := by
  rw [ofTwos_toTwos]
  exact Int.bmod_eq_of_le (by omega) (by omega)

theorem ofTwos_24_range (v : Nat) : -8388608 ≤ ofTwos 24 v ∧ ofTwos 24 v ≤ 8388607 := by
  rw [ofTwos_eq_bmod]
  have hlo := Int.le_bmod (x := v) (Nat.two_pow_pos (23 + 1))
  have hhi := Int.bmod_lt (x := v) (Nat.two_pow_pos (23 + 1))
  omega

theorem ofTwos_emod (n v : Nat) : ofTwos (n + 1) v % (2 ^ (n + 1) : Nat) = v % (2 ^ (n + 1) : Nat) := by
  rw [ofTwos_eq_bmod, Int.bmod_emod]

theorem toTwos_emod (n : Nat) (i : Int) : (toTwos n i : Int) % (2 ^ n : Nat) = i % (2 ^ n : Nat) := by
  rw [cast_toTwos, Int.emod_emod]

theorem ofTwos_24_ne_zero {v : Nat} (hlt : v < 2 ^ 24) (hne : v ≠ 0) : ofTwos 24 v ≠ 0 := by
  simp only [ofTwos, Nat.mod_eq_of_lt hlt]
  split <;> omega

theorem satInt_24 (i : Int) : satInt 24 i = max (-8388608) (min 8388607 i) := by
  have hhalf : ((2 ^ (24 - 1) : Nat) : Int) = 8388608 := rfl
  simp only [satInt, hhalf]
  split
  · omega
  · split <;> omega

/-! ### What the operations write -/

theorem rdG_lt (r : Rod) (n : Nat) : rdG r n < 2 ^ 24 := by
  unfold rdG
  split
  · exact Nat.two_pow_pos 24
  · exact BitVec.isLt _

theorem aluResults_of_class_a {p : Prim} (h : p.row.cls = 1) (r : Rod) : aluResults r p = aluA r p := by
  simp only [aluResults, h]

theorem aluResults_of_class_m {p : Prim} (h : p.row.cls = 2) (r : Rod) : aluResults r p = aluM r p := by
  simp only [aluResults, h]

theorem aluA_add {p : Prim} (h : p.row.op = 0x01) (r : Rod) : aluA r p = wG (sDest p.w) (rdG r (sSrc1 p.w) + rdG r (sSrc2 p.w)) := by
  simp only [aluA, h]

theorem aluA_sub {p : Prim} (h : p.row.op = 0x02) (r : Rod) : aluA r p = wG (sDest p.w) (rdG r (sSrc1 p.w) + 2 ^ 24 - rdG r (sSrc2 p.w)) := by
  simp only [aluA, h]

theorem aluA_adds {p : Prim} (h : p.row.op = 0x05) (r : Rod) :
    aluA r p = wG (sDest p.w) (toTwos 24 (satInt 24 (ofTwos 24 (rdG r (sSrc1 p.w)) + ofTwos 24 (rdG r (sSrc2 p.w))))) := by
  simp only [aluA, h]

theorem aluM_mul {p : Prim} (h : p.row.op = 0x01) (r : Rod) : aluM r p = wG (sDest p.w) (rdG r (sSrc1 p.w) * rdG r (sSrc2 p.w)) := by
  simp only [aluM, h]

theorem aluM_div {p : Prim} (h : p.row.op = 0x08) (r : Rod) : aluM r p = wG (sDest p.w) (divide24 0x08 (rdG r (sSrc1 p.w)) (rdG r (sSrc2 p.w))) := by
  simp only [aluM, h]

theorem aluM_rem {p : Prim} (h : p.row.op = 0x0A) (r : Rod) : aluM r p = wG (sDest p.w) (divide24 0x0A (rdG r (sSrc1 p.w)) (rdG r (sSrc2 p.w))) := by
  simp only [aluM, h]

/-! ### Sums -/

theorem sub_wrapped_add_cancel {b : Nat} (a : Nat) (hb : b < 2 ^ 24) : ((a + 2 ^ 24 - b) % 2 ^ 24 + b) % 2 ^ 24 = a % 2 ^ 24 := by
  omega

theorem ofTwos_saturated (i : Int) : ofTwos 24 (toTwos 24 (satInt 24 i) % 2 ^ 24) = max (-8388608) (min 8388607 i) := by
  rw [Nat.mod_eq_of_lt (toTwos_lt 24 _), satInt_24]
  exact ofTwos_toTwos_24_of_range (by omega) (by omega)

/-! ### Division (R197, R198) -/

theorem divide24_div_zero (a : Nat) : divide24 0x08 a 0 = 0xFFFFFF := rfl

theorem divide24_rem_zero (a : Nat) : divide24 0x0A a 0 = a := rfl

theorem divide24_div {b : Nat} (hb : b ≠ 0) (a : Nat) : divide24 0x08 a b = toTwos 24 ((ofTwos 24 a).tdiv (ofTwos 24 b)) := by
  simp only [divide24, hb, if_false]

theorem divide24_rem {b : Nat} (hb : b ≠ 0) (a : Nat) : divide24 0x0A a b = toTwos 24 ((ofTwos 24 a).tmod (ofTwos 24 b)) := by
  simp only [divide24, hb, if_false]

theorem natAbs_tmod_lt {b : Int} (hb : b ≠ 0) (a : Int) : (a.tmod b).natAbs < b.natAbs := by
  rw [Int.natAbs_tmod]
  exact Nat.mod_lt _ (Int.natAbs_pos.mpr hb)

/-- A remainder fits a word, so that nothing of it is lost in the register. -/
theorem ofTwos_divide24_rem {b : Nat} (hlt : b < 2 ^ 24) (hb : b ≠ 0) (a : Nat) :
    ofTwos 24 (divide24 0x0A a b) = (ofTwos 24 a).tmod (ofTwos 24 b) := by
  have hsmall := natAbs_tmod_lt (ofTwos_24_ne_zero hlt hb) (ofTwos 24 a)
  have hrange := ofTwos_24_range b
  rw [divide24_rem hb]
  exact ofTwos_toTwos_24_of_range (by omega) (by omega)

/-- The quotient wraps only for −8,388,608 by −1, and there too the residues agree. -/
theorem divide24_quotient_remainder {a b : Nat} (ha : a < 2 ^ 24) (hb : b ≠ 0) :
    (divide24 0x08 a b * b + divide24 0x0A a b) % 2 ^ 24 = a := by
  have hint : ((divide24 0x08 a b * b + divide24 0x0A a b : Nat) : Int) % (2 ^ 24 : Nat) = (a : Int) % (2 ^ 24 : Nat) := by
    rw [divide24_div hb, divide24_rem hb, Int.natCast_add, Int.natCast_mul]
    calc ((toTwos 24 ((ofTwos 24 a).tdiv (ofTwos 24 b)) : Int) * b + toTwos 24 ((ofTwos 24 a).tmod (ofTwos 24 b))) % (2 ^ 24 : Nat)
        = ((ofTwos 24 a).tdiv (ofTwos 24 b) * ofTwos 24 b + (ofTwos 24 a).tmod (ofTwos 24 b)) % (2 ^ 24 : Nat) := by
          rw [Int.add_emod, Int.mul_emod, toTwos_emod, toTwos_emod, ← ofTwos_emod 23 b, ← Int.mul_emod, ← Int.add_emod]
      _ = ofTwos 24 a % (2 ^ 24 : Nat) := by rw [Int.tdiv_mul_add_tmod]
      _ = a % (2 ^ 24 : Nat) := ofTwos_emod 23 a
  rw [← Int.natCast_emod, ← Int.natCast_emod, Int.ofNat_inj] at hint
  exact hint.trans (Nat.mod_eq_of_lt ha)

/-- Settles O35: each operation is rewritten to the word that it writes; quotient and remainder follow truncated division of the signed values, in residues. -/
theorem integerArithmeticResults : Obligations.IntegerArithmeticResults := by
  unfold Obligations.IntegerArithmeticResults
  refine ⟨fun r p => ⟨fun hcls hop => ?add, fun hcls hop => ?sub, fun hcls hop => ?adds, fun hcls hop => ?mul, fun hcls hop hb => ?divZero,
    fun hcls hop hb => ?remZero, fun hcls hop ha hb => ?divOverflow, fun hcls hop ha hb => ?remOverflow⟩,
    fun a b ha hlt hb => ⟨divide24_quotient_remainder ha hb, ?small, fun hsign => ?nonneg, fun hsign => ?nonpos⟩⟩
  case add => exact (aluResults_of_class_a hcls r).trans (aluA_add hop r)
  case sub =>
    exact ⟨_, (aluResults_of_class_a hcls r).trans (aluA_sub hop r), Nat.mod_lt _ (Nat.two_pow_pos 24), sub_wrapped_add_cancel _ (rdG_lt r _)⟩
  case adds =>
    exact ⟨_, (aluResults_of_class_a hcls r).trans (aluA_adds hop r), Nat.mod_lt _ (Nat.two_pow_pos 24), ofTwos_saturated _⟩
  case mul => exact (aluResults_of_class_m hcls r).trans (aluM_mul hop r)
  case divZero => rw [aluResults_of_class_m hcls, aluM_div hop, hb, divide24_div_zero]; rfl
  case remZero => rw [aluResults_of_class_m hcls, aluM_rem hop, hb, divide24_rem_zero]; rfl
  case divOverflow => rw [aluResults_of_class_m hcls, aluM_div hop, ha, hb]; rfl
  case remOverflow => rw [aluResults_of_class_m hcls, aluM_rem hop, ha, hb]; rfl
  case small =>
    rw [ofTwos_divide24_rem hlt hb]
    exact natAbs_tmod_lt (ofTwos_24_ne_zero hlt hb) _
  case nonneg =>
    rw [ofTwos_divide24_rem hlt hb]
    exact Int.tmod_nonneg _ hsign
  case nonpos =>
    rw [ofTwos_divide24_rem hlt hb, ← Int.neg_nonneg, ← Int.neg_tmod]
    exact Int.tmod_nonneg _ (Int.neg_nonneg.mpr hsign)

end Sys2Proof.Machine
end
